-- ==== Sys2Proof/Word.lean ====
section
/-! DEFINITION. The word types the spec counts in, and the sparse table. -/

namespace Sys2Proof

/-- One octet. -/
abbrev Byte := BitVec 8

/-- One 32-bit word of the application bus (R19). -/
abbrev Word := BitVec 32

/-- A table with a numeric key: key and value pairs, keys rising, no pair holding the table's default value. -/
abbrev Tab (α : Type) := List (Nat × α)

end Sys2Proof
end

