-- ==== Sys2Proof/Syntax.lean ====
section
/-! DEFINITION. The commands: one constructor for each row of the opcode table, with the operands the row needs. -/

namespace Sys2Proof

/-- The three requesters of R38, R56 and R86. -/
inductive Requester where
  | app | host | port
  deriving DecidableEq, Repr

/-- Who makes a register or queue access: the application core or the SPI host port (R16, R21). -/
inductive Who where
  | app | host
  deriving DecidableEq, Repr

/-- The width of a bus access (R19, R604). -/
inductive Size where
  | b | h | w
  deriving DecidableEq, Repr

/-- Power states, and the depths a request names (R450, R451). -/
inductive Depth where
  | none | doze | nap | hibernate
  deriving DecidableEq, Repr

/-- A general register u0 to u15, 15 naming sp (R601). -/
abbrev Reg := BitVec 4

/-- The firmware serves one request: the channel it takes it from, and what the flash does for the writes the
command makes (environment). -/
structure Srv where
  /-- channel 0 to 5 whose BUSY request is served -/ ch : Nat
  /-- block that fails when the command counter is stored (R53 step 7); none when the store succeeds -/ ctrFail : Option Nat
  /-- which of the command's own flash writes fails, counted from 0, and the block that fails; none when all succeed -/ wFail : Option (Nat × Nat)
  deriving DecidableEq, Repr

/-- The PHY header a lane has received: what the air brought. -/
inductive LaneHdr where
  /-- SUN FSK PHR (R187, R189): it decoded, Mode Switch, FCS Type (true 2-octet), Data Whitening, Frame Length -/
  | fsk (decoded modeSwitch fcs2 white : Bool) (len : BitVec 11)
  /-- SUN OFDM PHR (R194): its HCS passed, Rate field, Frame Length -/
  | ofdm (hcs : Bool) (rate : BitVec 5) (len : BitVec 11)
  /-- the 24 bits of a Seam header, h0 in bit 0 (R203) -/
  | seam (h : BitVec 24)
  deriving DecidableEq, Repr

/-- What a lane knows at the end of a frame (R172, R215): the air's part. -/
structure LaneRes where
  /-- the PSDU octets as decoded -/ psdu : List Byte
  /-- RSSI at the port in 0.5 dBm, RSSI_OFFSET not yet subtracted (R144) -/ rssi : Int
  /-- SNR in 0.25 dB -/ snr : Int
  /-- frequency offset in Hz -/ freqOff : Int
  /-- R215 SLOPE -/ slope : Int
  /-- R215 EQ_ENERGY -/ eqEnergy : Int
  /-- R215 TRACK_ERR -/ trackErr : Nat
  deriving DecidableEq, Repr

/-- A wake sequence as the canary's decoder gives it (R227, R234). -/
structure WakeSeq where
  /-- 25 bits -/ address : Nat
  /-- 7 bits -/ group : Nat
  /-- 8 bits, the CRC received -/ crc : Nat
  /-- MTIME at the end of the last chip -/ at_ : Nat
  deriving DecidableEq, Repr

/-- What a pool or link RAM read finds (R369, R370): the environment's part. -/
inductive PopEcc where
  | none
  /-- a single-bit error in word `w` of the packet's cells -/ | ce (w : Nat)
  /-- a double-bit error in word `w` of the packet's cells -/ | ue (w : Nat)
  /-- a single-bit error in word `w` of the link RAM -/ | linkCe (w : Nat)
  /-- a double-bit error in word `w` of the link RAM of the queue -/ | linkUe (w : Nat)
  deriving DecidableEq, Repr

/-- How a program or erase left the array (R505, R507): the array's own part. -/
structure FlashEnd where
  /-- units (array offset / 16) left holding a single-bit error -/ ce : List Nat
  /-- units left holding a double-bit error -/ ue : List Nat
  deriving DecidableEq, Repr

/-- What the SD slot holds (R528). -/
inductive SdCard where
  | none
  | unreadable
  /-- SD_BUS, and the TXB files of GZUPDATE in directory order -/ | files (bus : Nat) (fs : List (List Byte))
  deriving DecidableEq, Repr

/-- What the loader and the start-up meet outside the state (R488, R529, R531, R540). -/
structure BootEnv where
  /-- the SD slot -/ card : SdCard
  /-- block of the target region whose read-back fails twice; none when all pass -/ badBlock : Option Nat
  /-- a rewrite of option copy 1, of option copy 2 fails -/ copy1Fails : Bool
  copy2Fails : Bool
  /-- the settings block's write of a migration fails -/ setFails : Bool
  deriving DecidableEq, Repr

/-- A short operation's four fields (R630). -/
structure Short where
  op : BitVec 5
  rd : Reg
  rs : Reg
  md : BitVec 2
  deriving DecidableEq, Repr

/-- The count of a repeat prefix: the field COUNT − 1, or a register (R644). -/
inductive RepCount where
  | imm (f : BitVec 8)
  | reg (ra : Reg)
  deriving DecidableEq, Repr

/-- The registers of a serial engine that BUSY protects (R656). -/
inductive SeReg where
  | ctl | div | xfer
  deriving DecidableEq, Repr

/-- How an SPI or I²C transfer ended (R654): the bus's part. -/
structure SeEnd where
  /-- bytes taken from the transmit FIFO -/ sent : Nat
  /-- bytes received -/ got : List Byte
  /-- 0 none, 1 address NACK, 2 data NACK, 3 bus error -/ err : Nat
  deriving DecidableEq, Repr

/-- What is wrong with a received UART byte (R654). -/
inductive UartErr where
  | none | framing | parity
  deriving DecidableEq, Repr

/-- An access on the two-wire debug port (R685). -/
inductive DebugAccess where
  | halt | resume | coreReset
  | readMem (addr : Word)
  | writeMem (addr v : Word)
  | readReg (r : Reg)
  | writeReg (r : Reg) (v : Word)
  deriving DecidableEq, Repr

/-- The commands of the block. -/
inductive Instr where
  /-- R39: DOORBELL -/
  | doorbell (who : Who) (v : Word)
  /-- R39: MBX_ACK -/
  | mbxAck (who : Who) (v : Word)
  /-- R40: REQUEST_BUFFER_WRITE -/
  | requestBufferWrite (who : Who) (addr : Nat) (size : Size) (v : Word)
  /-- R63: EVENT_WRITE -/
  | eventWrite (ch : Nat)
  /-- R58: AUTH_LOCKOUT_END -/
  | authLockoutEnd (req : Requester)
  /-- R81: HOST_WRITE_TRANSACTION -/
  | hostWriteTransaction (sdi : List Byte) (partWord : Bool)
  /-- R81: HOST_READ_TRANSACTION -/
  | hostReadTransaction (sdi : List Byte) (words : Nat) (partWord : Bool)
  /-- R66: SYS_INFO -/
  | sysInfo (v : Srv)
  /-- R67: SYS_CAPS -/
  | sysCaps (v : Srv)
  /-- R76: SURVEY -/
  | survey (v : Srv)
  /-- R77: SURVEY_RECORD -/
  | surveyRecord
  /-- R78: SURVEY_CAPTURE -/
  | surveyCapture
  /-- R78: SURVEY_QUIESCE_TIMEOUT -/
  | surveyQuiesceTimeout
  /-- R68: SYS_RESET -/
  | sysReset (v : Srv)
  /-- R68: RESET_DELAY_EXPIRY -/
  | resetDelayExpiry
  /-- R445: MODE_SET -/
  | modeSet (v : Srv)
  /-- R445: MODE_DRAIN_END -/
  | modeDrainEnd
  /-- R445: MODE_DRAIN_TIMEOUT -/
  | modeDrainTimeout
  /-- R69: MODE_GET -/
  | modeGet (v : Srv)
  /-- R70: MODE_LOCK -/
  | modeLock (v : Srv)
  /-- R71: DEBUG_UNLOCK -/
  | debugUnlock (v : Srv)
  /-- R72: OPTION_READ -/
  | optionRead (v : Srv)
  /-- R73: OPTION_WRITE -/
  | optionWrite (v : Srv)
  /-- R74: CMD_COUNTER_GET -/
  | cmdCounterGet (v : Srv)
  /-- R75: COUNTER_RAISE -/
  | counterRaise (v : Srv)
  /-- R65: EVENT_FILTER_SET -/
  | eventFilterSet (v : Srv)
  /-- R65: EVENT_FILTER_GET -/
  | eventFilterGet (v : Srv)
  /-- R105: SHOT_OPEN -/
  | shotOpen (v : Srv)
  /-- R106: SHOT_ADD -/
  | shotAdd (v : Srv)
  /-- R107: SHOT_FIRE -/
  | shotFire (v : Srv)
  /-- R109: SHOT_ABORT -/
  | shotAbort (v : Srv)
  /-- R110: SHOT_STATUS -/
  | shotStatus (v : Srv)
  /-- R92: SHOT_TRIGGER -/
  | shotTrigger (n : Nat)
  /-- R92: SHOT_FRAME_TIMEOUT -/
  | shotFrameTimeout (n : Nat)
  /-- R95: SHOT_QUIESCE_START -/
  | shotQuiesceStart (n : Nat)
  /-- R99: SHOT_SWAP -/
  | shotSwap (n : Nat)
  /-- R102: SHOT_BOUND_EXPIRY -/
  | shotBoundExpiry (n : Nat)
  /-- R104: SHOT_PERSIST_DONE -/
  | shotPersistDone (n : Nat) (fail : Option Nat)
  /-- R161: RADIO_STATE_GET -/
  | radioStateGet (v : Srv)
  /-- R150: RADIO_TUNE_SET -/
  | radioTuneSet (v : Srv)
  /-- R150: RADIO_TUNE_GET -/
  | radioTuneGet (v : Srv)
  /-- R151: RADIO_PA_SET -/
  | radioPaSet (v : Srv)
  /-- R151: RADIO_PA_GET -/
  | radioPaGet (v : Srv)
  /-- R152: RADIO_COMP_SET -/
  | radioCompSet (v : Srv)
  /-- R152: RADIO_COMP_GET -/
  | radioCompGet (v : Srv)
  /-- R153: RADIO_DIV_SET -/
  | radioDivSet (v : Srv)
  /-- R153: RADIO_DIV_GET -/
  | radioDivGet (v : Srv)
  /-- R154: RADIO_EXT_SET -/
  | radioExtSet (v : Srv)
  /-- R154: RADIO_EXT_GET -/
  | radioExtGet (v : Srv)
  /-- R155: RADIO_CAL -/
  | radioCal (v : Srv)
  /-- R155: RADIO_CAL_DONE -/
  | radioCalDone
  /-- R156: RADIO_RSSI -/
  | radioRssi (v : Srv)
  /-- R144: RSSI_MEASURE_END -/
  | rssiMeasureEnd (rssi : Int)
  /-- R157: RADIO_CCA -/
  | radioCca (v : Srv)
  /-- R145: CCA_LISTEN_END -/
  | ccaListenEnd (rssiA : Int) (rssiB : Int)
  /-- R158: RADIO_STATS_GET -/
  | radioStatsGet (v : Srv)
  /-- R159: RADIO_TEST_TX -/
  | radioTestTx (v : Srv)
  /-- R159: RADIO_TEST_STOP -/
  | radioTestStop (v : Srv)
  /-- R159: TEST_TX_END -/
  | testTxEnd
  /-- R116: RADIO_TRANSITION_DONE -/
  | radioTransitionDone
  /-- R120: CAL_END -/
  | calEnd (code : Nat)
  /-- R123: LOCK_TIMEOUT -/
  | lockTimeout
  /-- R121: TEMP_MEASURE -/
  | tempMeasure (temp : Int)
  /-- R122: AUTO_RECAL -/
  | autoRecal
  /-- R122: RECAL_WAIT_TIMEOUT -/
  | recalWaitTimeout
  /-- R114: HOME_RETUNE -/
  | homeRetune
  /-- R124: TX_START -/
  | txStart (vbat : Nat) (temp : Int)
  /-- R117: TX_END -/
  | txEnd
  /-- R126: TX_LATE -/
  | txLate
  /-- R137: DIV_DECISION_END -/
  | divDecisionEnd (lane : Nat) (rssiA : Int) (rssiB : Int) (cut : Option Nat)
  /-- R28: REF_FAIL -/
  | refFail
  /-- R28: REF_RETRY -/
  | refRetry
  /-- R26: XORDY -/
  | xordy
  /-- R26: PLL_LOCK -/
  | pllLock (env : BootEnv)
  /-- R481: LFXRDY -/
  | lfxrdy
  /-- R30: SCAL_WINDOW_END -/
  | scalWindowEnd (count : Nat)
  /-- R36: MTIME_LO_READ -/
  | mtimeLoRead
  /-- R184: LANE_STATE_GET -/
  | laneStateGet (v : Srv)
  /-- R183: LANE_SET -/
  | laneSet (v : Srv)
  /-- R183: LANE_GET -/
  | laneGet (v : Srv)
  /-- R185: LANE_STATS_GET -/
  | laneStatsGet (v : Srv)
  /-- R173: LANE_SOF_DETECT -/
  | laneSofDetect (lane : Nat) (path : Nat) (coded : Bool) (stamp : Nat)
  /-- R189: LANE_HEADER -/
  | laneHeader (lane : Nat) (h : LaneHdr)
  /-- R211: SEAM_PILOT_BLOCK -/
  | seamPilotBlock (lane : Nat) (weak : Bool) (energy : Bool)
  /-- R172: LANE_FCS_RESULT -/
  | laneFcsResult (lane : Nat) (r : LaneRes)
  /-- R164: AGC_CLIP -/
  | agcClip (path : Nat)
  /-- R221: PHY_PROFILE_SET -/
  | phyProfileSet (v : Srv)
  /-- R221: PHY_PROFILE_GET -/
  | phyProfileGet (v : Srv)
  /-- R222: PHY_QUALITY_GET -/
  | phyQualityGet (v : Srv)
  /-- R223: PHY_STATS_GET -/
  | phyStatsGet (v : Srv)
  /-- R248: CANARY_STATE_GET -/
  | canaryStateGet (v : Srv)
  /-- R245: CANARY_SET -/
  | canarySet (v : Srv)
  /-- R245: CANARY_GET -/
  | canaryGet (v : Srv)
  /-- R246: CANARY_SEND -/
  | canarySend (v : Srv)
  /-- R240: CANARY_SEND_END -/
  | canarySendEnd
  /-- R247: CANARY_STATS_GET -/
  | canaryStatsGet (v : Srv)
  /-- R231: PREAMBLE_SEEN -/
  | preambleSeen
  /-- R231: MANCHESTER_VIOLATION -/
  | manchesterViolation
  /-- R234: CANARY_SEQUENCE_END -/
  | canarySequenceEnd (rx : WakeSeq)
  /-- R249: CANARY_MATCH -/
  | canaryMatch
  /-- R233: CANARY_BLANK_END -/
  | canaryBlankEnd
  /-- R296: LINK_STATE_GET -/
  | linkStateGet (v : Srv)
  /-- R288: LINK_CFG_SET -/
  | linkCfgSet (v : Srv)
  /-- R288: LINK_CFG_GET -/
  | linkCfgGet (v : Srv)
  /-- R289: NBR_SET -/
  | nbrSet (v : Srv)
  /-- R289: NBR_GET -/
  | nbrGet (v : Srv)
  /-- R290: NBR_FIND -/
  | nbrFind (v : Srv)
  /-- R291: ROUTE_SET -/
  | routeSet (v : Srv)
  /-- R291: ROUTE_GET -/
  | routeGet (v : Srv)
  /-- R292: ROUTE_LOOKUP -/
  | routeLookup (v : Srv)
  /-- R284: LINK_JOIN -/
  | linkJoin (v : Srv)
  /-- R284: JOIN_REQ_INTERVAL -/
  | joinReqInterval
  /-- R284: JOIN_TIMEOUT -/
  | joinTimeout
  /-- R286: LINK_JOIN_REPLY -/
  | linkJoinReply (v : Srv)
  /-- R295: LINK_STATS_GET -/
  | linkStatsGet (v : Srv)
  /-- R267: FRAME_RECEIVE -/
  | frameReceive (rx : Nat)
  /-- R269: ACK_DECISION -/
  | ackDecision (rx : Nat)
  /-- R270: MIC_RESULT -/
  | micResult (rx : Nat) (ecc : PopEcc)
  /-- R273: PEND_HOLD_END -/
  | pendHoldEnd
  /-- R275: LINK_TAKE_FRAME -/
  | linkTakeFrame (flow : Nat) (ecc : PopEcc)
  /-- R277: ACK_RECEIVE -/
  | ackReceive (rx : Nat)
  /-- R277: ACK_WAIT_EXPIRY -/
  | ackWaitExpiry
  /-- R278: RETRY_BACKOFF_END -/
  | retryBackoffEnd (flight : Nat)
  /-- R297: LINK_DROP -/
  | linkDrop
  /-- R329: TIMING_STATE_GET -/
  | timingStateGet (v : Srv)
  /-- R322: TIMING_CFG_SET -/
  | timingCfgSet (v : Srv)
  /-- R322: TIMING_CFG_GET -/
  | timingCfgGet (v : Srv)
  /-- R323: TIMING_CHSEQ_SET -/
  | timingChseqSet (v : Srv)
  /-- R323: TIMING_CHSEQ_GET -/
  | timingChseqGet (v : Srv)
  /-- R324: TIMING_NBR_GET -/
  | timingNbrGet (v : Srv)
  /-- R325: TIMING_MTIME_SET -/
  | timingMtimeSet (v : Srv)
  /-- R326: TIMING_BEACON -/
  | timingBeacon (v : Srv)
  /-- R326: TIMING_RESYNC -/
  | timingResync (v : Srv)
  /-- R320: TIME_SYNC -/
  | timeSync (v : Srv)
  /-- R328: TIMING_STATS_GET -/
  | timingStatsGet (v : Srv)
  /-- R308: MTIME_STEP -/
  | mtimeStep
  /-- R310: CALENDAR_OVERFLOW_MOVE -/
  | calendarOverflowMove
  /-- R314: OWN_WINDOW_OPEN -/
  | ownWindowOpen
  /-- R315: OWN_WINDOW_CLOSE -/
  | ownWindowClose
  /-- R316: KEEPALIVE_BEACON -/
  | keepaliveBeacon (nbr : Nat)
  /-- R317: RESYNC_BEACON -/
  | resyncBeacon (nbr : Nat)
  /-- R317: RESYNC_INTERVAL -/
  | resyncInterval (nbr : Nat)
  /-- R318: RESYNC_LISTEN_END -/
  | resyncListenEnd
  /-- R348: TALLY_CFG_SET -/
  | tallyCfgSet (v : Srv)
  /-- R348: TALLY_CFG_GET -/
  | tallyCfgGet (v : Srv)
  /-- R349: TALLY_BAND_SET -/
  | tallyBandSet (v : Srv)
  /-- R349: TALLY_BAND_GET -/
  | tallyBandGet (v : Srv)
  /-- R350: TALLY_USAGE_GET -/
  | tallyUsageGet (v : Srv)
  /-- R351: TALLY_CHECK -/
  | tallyCheck (v : Srv)
  /-- R352: TALLY_STATS_GET -/
  | tallyStatsGet (v : Srv)
  /-- R353: TALLY_CLEAR -/
  | tallyClear (v : Srv)
  /-- R335: BUCKET_ROLL -/
  | bucketRoll
  /-- R345: LBT_LISTEN_END -/
  | lbtListenEnd (rssiA : Int) (rssiB : Int)
  /-- R345: LBT_BACKOFF_END -/
  | lbtBackoffEnd
  /-- R354: TALLY_REFUSE -/
  | tallyRefuse
  /-- R378: QM_STATE_GET -/
  | qmStateGet (v : Srv)
  /-- R374: QUEUE_SET -/
  | queueSet (v : Srv)
  /-- R374: QUEUE_GET -/
  | queueGet (v : Srv)
  /-- R376: QUEUE_STATUS_GET -/
  | queueStatusGet (v : Srv)
  /-- R375: QM_CFG_SET -/
  | qmCfgSet (v : Srv)
  /-- R375: QM_CFG_GET -/
  | qmCfgGet (v : Srv)
  /-- R377: QUEUE_FLUSH -/
  | queueFlush (v : Srv)
  /-- R379: QM_STATS_GET -/
  | qmStatsGet (v : Srv)
  /-- R363: QM_PUSH -/
  | qmPush (who : Who) (q : Nat) (v : Word)
  /-- R364: QM_POP -/
  | qmPop (who : Who) (q : Nat) (ecc : PopEcc)
  /-- R364: QM_LANDING_WRITE -/
  | qmLandingWrite (who : Who) (q : Nat) (v : Word)
  /-- R365: POP_STALL_EXPIRED -/
  | popStallExpired (who : Who)
  /-- R404: SCHED_STATE_GET -/
  | schedStateGet (v : Srv)
  /-- R401: FLOW_SET -/
  | flowSet (v : Srv)
  /-- R401: FLOW_GET -/
  | flowGet (v : Srv)
  /-- R402: FLOW_STATE_GET -/
  | flowStateGet (v : Srv)
  /-- R403: SHAPER_SET -/
  | shaperSet (v : Srv)
  /-- R403: SHAPER_GET -/
  | shaperGet (v : Srv)
  /-- R405: SCHED_STATS_GET -/
  | schedStatsGet (v : Srv)
  /-- R389: SCHED_RELEASE -/
  | schedRelease
  /-- R391: SHAPER_REFILL -/
  | shaperRefill
  /-- R394: WHEEL_ELIGIBLE -/
  | wheelEligible (flow : Nat)
  /-- R406: SCHED_BLOCKED -/
  | schedBlocked
  /-- R440: CIPHER_STATE_GET -/
  | cipherStateGet (v : Srv)
  /-- R432: KEY_INFO_GET -/
  | keyInfoGet (v : Srv)
  /-- R433: KEY_USAGE_SET -/
  | keyUsageSet (v : Srv)
  /-- R413: KEY_IMPORT -/
  | keyImport (v : Srv)
  /-- R416: KEY_RETIRE -/
  | keyRetire (v : Srv)
  /-- R415: KEY_GENERATE -/
  | keyGenerate (v : Srv)
  /-- R437: CIPHER_RUN -/
  | cipherRun (v : Srv)
  /-- R437: CIPHER_RUN_DONE -/
  | cipherRunDone
  /-- R438: RNG_GET -/
  | rngGet (v : Srv)
  /-- R439: HASH_RUN -/
  | hashRun (v : Srv)
  /-- R439: HASH_RUN_DONE -/
  | hashRunDone
  /-- R439: SIG_VERIFY -/
  | sigVerify (v : Srv)
  /-- R439: SIG_VERIFY_DONE -/
  | sigVerifyDone
  /-- R440: CIPHER_STATS_GET -/
  | cipherStatsGet (v : Srv)
  /-- R418: FC_RESERVE_WRITE -/
  | fcReserveWrite (slot : Nat) (fail : Option Nat)
  /-- R418: FC_RESERVE_RETRY -/
  | fcReserveRetry
  /-- R426: DRBG_RESEED -/
  | drbgReseed (mask : Bool)
  /-- R427: CIPHER_HALT -/
  | cipherHalt (mask : Bool)
  /-- R425: HEALTH_FAIL -/
  | healthFail
  /-- R425: SOURCE_RESTART_END -/
  | sourceRestartEnd (pass : Bool)
  /-- R472: PWR_STATE_GET -/
  | pwrStateGet (v : Srv)
  /-- R470: PWR_CFG_SET -/
  | pwrCfgSet (v : Srv)
  /-- R470: PWR_CFG_GET -/
  | pwrCfgGet (v : Srv)
  /-- R453: PWR_SLEEP -/
  | pwrSleep (v : Srv)
  /-- R452: PWR_SLEEP_WRITE -/
  | pwrSleepWrite (v : Word)
  /-- R457: SLEEP_COMMIT -/
  | sleepCommit
  /-- R458: NAP_REACHED -/
  | napReached
  /-- R458: HIBERNATE_REACHED -/
  | hibernateReached
  /-- R450: NAP_WAKE -/
  | napWake
  /-- R461: WAKE_PIN_EDGE -/
  | wakePinEdge
  /-- R648: GPIO_EDGE -/
  | gpioEdge (pin : Nat) (rising : Bool) (held : Bool)
  /-- R461: NETTIMER -/
  | nettimer
  /-- R462: APPTIMER_ARM -/
  | apptimerArm (v : Word)
  /-- R462: APPTIMER -/
  | apptimer
  /-- R461: PWR_WAKEEN_WRITE -/
  | pwrWakeenWrite (v : Word)
  /-- R467: PWR_CLR -/
  | pwrClr (v : Word)
  /-- R465: PADS_RELEASE -/
  | padsRelease (v : Word)
  /-- R468: PADS_OUTSET -/
  | padsOutset (v : Word)
  /-- R468: PADS_OUTCLR -/
  | padsOutclr (v : Word)
  /-- R474: POR -/
  | por
  /-- R474: BOR -/
  | bor
  /-- R474: BOR_RELEASE -/
  | borRelease
  /-- R474: BACKUP_RETENTION -/
  | backupRetention
  /-- R546: BACKUP_RETURN -/
  | backupReturn
  /-- R474: AON_LOSS -/
  | aonLoss
  /-- R475: NRST_ASSERT -/
  | nrstAssert
  /-- R475: NRST_RELEASE -/
  | nrstRelease
  /-- R473: NWDT_EXPIRE -/
  | nwdtExpire
  /-- R476: SYSCTL_CORERST -/
  | sysctlCorerst (v : Word)
  /-- R476: CORE_RESTART -/
  | coreRestart
  /-- R480: WAKE_RESET -/
  | wakeReset
  /-- R626: BOOT_HANDOVER -/
  | bootHandover
  /-- R517: FLASH_STATE_GET -/
  | flashStateGet (v : Srv)
  /-- R514: FLASH_READ -/
  | flashRead (v : Srv)
  /-- R515: FLASH_PROGRAM -/
  | flashProgram (v : Srv)
  /-- R515: FLASH_ERASE -/
  | flashErase (v : Srv)
  /-- R516: FLASH_BLOCK_GET -/
  | flashBlockGet (v : Srv)
  /-- R518: FLASH_STATS_GET -/
  | flashStatsGet (v : Srv)
  /-- R503: FLASHC_PROGRAM -/
  | flashcProgram (v : Word)
  /-- R509: FLASHC_ERASE -/
  | flashcErase (v : Word)
  /-- R504: FLASH_COMMAND_START -/
  | flashCommandStart (plane : Nat)
  /-- R495: FLASH_PROGRAM_DONE -/
  | flashProgramDone (plane : Nat) (r : FlashEnd)
  /-- R509: FLASH_ERASE_DONE -/
  | flashEraseDone (plane : Nat) (r : FlashEnd)
  /-- R499: FLASH_XIP_READ -/
  | flashXipRead (addr : Nat) (size : Size) (fetch : Bool)
  /-- R501: ERASE_RESUME -/
  | eraseResume (plane : Nat)
  /-- R512: FLASHC_BSEL -/
  | flashcBsel (v : Word)
  /-- R512: BLOCK_QUERY_DONE -/
  | blockQueryDone
  /-- R498: FLASHC_LOCK -/
  | flashcLock (v : Word)
  /-- R499: FLASHC_ECCCNT_READ -/
  | flashcEcccntRead
  /-- R544: UPDATE_STATE_GET -/
  | updateStateGet (v : Srv)
  /-- R542: UPDATE_STAGE_BEGIN -/
  | updateStageBegin (v : Srv)
  /-- R542: UPDATE_STAGE_BEGIN_DONE -/
  | updateStageBeginDone (fail : Option Nat)
  /-- R526: UPDATE_STAGE_WRITE -/
  | updateStageWrite (v : Srv)
  /-- R542: UPDATE_STAGE_CHECK -/
  | updateStageCheck (v : Srv)
  /-- R542: UPDATE_STAGE_CHECK_DONE -/
  | updateStageCheckDone
  /-- R535: UPDATE_COMMIT -/
  | updateCommit (v : Srv)
  /-- R537: UPDATE_SCHEDULE -/
  | updateSchedule (v : Srv)
  /-- R543: UPDATE_CANCEL -/
  | updateCancel (v : Srv)
  /-- R529: SD_CARD_SEARCH -/
  | sdCardSearch (env : BootEnv)
  /-- R567: RTC_STATE_GET -/
  | rtcStateGet (v : Srv)
  /-- R563: RTC_TIME_GET -/
  | rtcTimeGet (v : Srv)
  /-- R564: RTC_TIME_SET -/
  | rtcTimeSet (v : Srv)
  /-- R565: RTC_ALARM_SET -/
  | rtcAlarmSet (v : Srv)
  /-- R565: RTC_ALARM_GET -/
  | rtcAlarmGet (v : Srv)
  /-- R566: RTC_FLAGS_CLEAR -/
  | rtcFlagsClear (v : Srv)
  /-- R554: RTC_TIME_READ -/
  | rtcTimeRead (net : Bool) (k : Nat)
  /-- R556: RTC_SET -/
  | rtcSet (net : Bool) (v : Word)
  /-- R554: RTC_THAW -/
  | rtcThaw (net : Bool) (v : Word)
  /-- R556: RTC_COMMIT -/
  | rtcCommit
  /-- R549: RTC_SECOND_ROLLOVER -/
  | rtcSecondRollover
  /-- R552: OSC_STOP -/
  | oscStop
  /-- R554: SHADOW_STALE -/
  | shadowStale (net : Bool)
  /-- R570: FIELD_ON -/
  | fieldOn
  /-- R572: FIELD_LOSS -/
  | fieldLoss
  /-- R572: REQA -/
  | reqa
  /-- R572: WUPA -/
  | wupa
  /-- R573: ANTICOLLISION -/
  | anticollision (f : List Byte)
  /-- R573: CASCADE_SELECT -/
  | cascadeSelect (f : List Byte)
  /-- R572: HLTA -/
  | hlta
  /-- R574: RATS -/
  | rats (param : Byte)
  /-- R574: PPS -/
  | pps (pps : List Byte)
  /-- R572: S_DESELECT -/
  | sDeselect
  /-- R575: WTX_EXPIRY -/
  | wtxExpiry (ctrFail : Option Nat) (wFail : Option (Nat × Nat))
  /-- R580: SELECT -/
  | select_ (apdu : List Byte)
  /-- R576: READ_BINARY -/
  | readBinary (apdu : List Byte)
  /-- R582: GET_INFO -/
  | getInfo (apdu : List Byte)
  /-- R587: VERIFY -/
  | verify (apdu : List Byte) (w : Option Nat)
  /-- R581: READ_BLOCK -/
  | readBlock (apdu : List Byte)
  /-- R581: WRITE_BLOCK -/
  | writeBlock (apdu : List Byte) (w : Option Nat)
  /-- R588: STAGE_CRED -/
  | stageCred (apdu : List Byte) (w : Option Nat)
  /-- R590: MAILBOX -/
  | mailbox (apdu : List Byte) (ctrFail : Option Nat) (wFail : Option (Nat × Nat))
  /-- R578: PORT_BLOCK_WRITE -/
  | portBlockWrite (ok : Bool)
  /-- R591: PORTW_TAKE -/
  | portwTake
  /-- R591: PORTW_PRIO -/
  | portwPrio
  /-- R591: PORTW_RELEASE -/
  | portwRelease
  /-- R592: PORTW_READ -/
  | portwRead
  /-- R592: PORTW_WRITE -/
  | portwWrite
  /-- R592: PORTW_CMD_DONE -/
  | portwCmdDone (ok : Bool)
  /-- R598: PORT_STATE_GET -/
  | portStateGet (v : Srv)
  /-- R594: PORT_CFG_SET -/
  | portCfgSet (v : Srv)
  /-- R594: PORT_CFG_GET -/
  | portCfgGet (v : Srv)
  /-- R595: PORT_MEM_READ -/
  | portMemRead (v : Srv)
  /-- R595: PORT_MEM_WRITE -/
  | portMemWrite (v : Srv)
  /-- R596: PORT_PW_SET -/
  | portPwSet (v : Srv)
  /-- R596: PORT_PW_UNLOCK -/
  | portPwUnlock (v : Srv)
  /-- R596: PORT_PW_GET -/
  | portPwGet (v : Srv)
  /-- R597: PORT_CRED_GET -/
  | portCredGet (v : Srv)
  /-- R597: PORT_CRED_CLEAR -/
  | portCredClear (v : Srv)
  /-- R620: INTERRUPT_ENTRY -/
  | interruptEntry
  /-- R608: PAIR_WORD -/
  | pairWord (a : Short) (b : Short)
  /-- R632: ADD -/
  | add (rd : Reg) (ra : Reg) (rb : Reg)
  /-- R632: SUB -/
  | sub (rd : Reg) (ra : Reg) (rb : Reg)
  /-- R632: AND -/
  | and_ (rd : Reg) (ra : Reg) (rb : Reg)
  /-- R632: OR -/
  | or_ (rd : Reg) (ra : Reg) (rb : Reg)
  /-- R632: XOR -/
  | xor (rd : Reg) (ra : Reg) (rb : Reg)
  /-- R632: SHL -/
  | shl (rd : Reg) (ra : Reg) (rb : Reg)
  /-- R632: SHR -/
  | shr (rd : Reg) (ra : Reg) (rb : Reg)
  /-- R632: SAR -/
  | sar (rd : Reg) (ra : Reg) (rb : Reg)
  /-- R632: CMP_LT -/
  | cmpLt (rd : Reg) (ra : Reg) (rb : Reg)
  /-- R632: CMP_LO -/
  | cmpLo (rd : Reg) (ra : Reg) (rb : Reg)
  /-- R632: MUL -/
  | mul (rd : Reg) (ra : Reg) (rb : Reg)
  /-- R632: MULHS -/
  | mulhs (rd : Reg) (ra : Reg) (rb : Reg)
  /-- R632: MULHU -/
  | mulhu (rd : Reg) (ra : Reg) (rb : Reg)
  /-- R633: DIV_S -/
  | divS (rd : Reg) (ra : Reg) (rb : Reg)
  /-- R633: DIV_U -/
  | divU (rd : Reg) (ra : Reg) (rb : Reg)
  /-- R633: MOD_S -/
  | modS (rd : Reg) (ra : Reg) (rb : Reg)
  /-- R633: MOD_U -/
  | modU (rd : Reg) (ra : Reg) (rb : Reg)
  /-- R632: CY -/
  | cy (rd : Reg) (ra : Reg) (rb : Reg)
  /-- R632: BW -/
  | bw (rd : Reg) (ra : Reg) (rb : Reg)
  /-- R634: ADDI -/
  | addi (rd : Reg) (ra : Reg) (imm : BitVec 17)
  /-- R634: ANDI -/
  | andi (rd : Reg) (ra : Reg) (imm : BitVec 17)
  /-- R634: ORI -/
  | ori (rd : Reg) (ra : Reg) (imm : BitVec 17)
  /-- R634: XORI -/
  | xori (rd : Reg) (ra : Reg) (imm : BitVec 17)
  /-- R634: CMPI_LT -/
  | cmpiLt (rd : Reg) (ra : Reg) (imm : BitVec 17)
  /-- R634: CMPI_LO -/
  | cmpiLo (rd : Reg) (ra : Reg) (imm : BitVec 17)
  /-- R634: SHLI -/
  | shli (rd : Reg) (ra : Reg) (imm : BitVec 5)
  /-- R634: SHRI -/
  | shri (rd : Reg) (ra : Reg) (imm : BitVec 5)
  /-- R634: SARI -/
  | sari (rd : Reg) (ra : Reg) (imm : BitVec 5)
  /-- R634: LDHI -/
  | ldhi (rd : Reg) (imm : BitVec 21)
  /-- R636: LD_W -/
  | ldW (rd : Reg) (ra : Reg) (imm : BitVec 17)
  /-- R636: LD_HS -/
  | ldHs (rd : Reg) (ra : Reg) (imm : BitVec 17)
  /-- R636: LD_HZ -/
  | ldHz (rd : Reg) (ra : Reg) (imm : BitVec 17)
  /-- R636: LD_BS -/
  | ldBs (rd : Reg) (ra : Reg) (imm : BitVec 17)
  /-- R636: LD_BZ -/
  | ldBz (rd : Reg) (ra : Reg) (imm : BitVec 17)
  /-- R636: ST_W -/
  | stW (rd : Reg) (ra : Reg) (imm : BitVec 17)
  /-- R636: ST_H -/
  | stH (rd : Reg) (ra : Reg) (imm : BitVec 17)
  /-- R636: ST_B -/
  | stB (rd : Reg) (ra : Reg) (imm : BitVec 17)
  /-- R621: WAIT -/
  | wait_
  /-- R643: MFS -/
  | mfs (rd : Reg) (sr : BitVec 8)
  /-- R643: MTS -/
  | mts (sr : BitVec 8) (ra : Reg)
  /-- R611: REP_I -/
  | repI (c : RepCount)
  /-- R611: REP_U -/
  | repU (c : RepCount)
  /-- R640: RET -/
  | ret
  /-- R642: RFE -/
  | rfe
  /-- R642: SYSCALL -/
  | syscall
  /-- R642: BREAK -/
  | break_
  /-- R639: BR_EQ -/
  | brEq (ra : Reg) (rb : Reg) (off : BitVec 17)
  /-- R639: BR_NE -/
  | brNe (ra : Reg) (rb : Reg) (off : BitVec 17)
  /-- R639: BR_LT -/
  | brLt (ra : Reg) (rb : Reg) (off : BitVec 17)
  /-- R639: BR_GE -/
  | brGe (ra : Reg) (rb : Reg) (off : BitVec 17)
  /-- R639: BR_BL -/
  | brBl (ra : Reg) (rb : Reg) (off : BitVec 17)
  /-- R639: BR_NB -/
  | brNb (ra : Reg) (rb : Reg) (off : BitVec 17)
  /-- R639: BRI_EQ -/
  | briEq (ra : Reg) (imm : BitVec 5) (off : BitVec 17)
  /-- R639: BRI_NE -/
  | briNe (ra : Reg) (imm : BitVec 5) (off : BitVec 17)
  /-- R639: BRI_LT -/
  | briLt (ra : Reg) (imm : BitVec 5) (off : BitVec 17)
  /-- R639: BRI_GE -/
  | briGe (ra : Reg) (imm : BitVec 5) (off : BitVec 17)
  /-- R639: BRI_BL -/
  | briBl (ra : Reg) (imm : BitVec 5) (off : BitVec 17)
  /-- R639: BRI_NB -/
  | briNb (ra : Reg) (imm : BitVec 5) (off : BitVec 17)
  /-- R640: J -/
  | j (off : BitVec 25)
  /-- R640: CALL -/
  | call (off : BitVec 25)
  /-- R640: JMP_R -/
  | jmpR (ra : Reg)
  /-- R640: CALL_R -/
  | callR (ra : Reg)
  /-- R654: SE_GO -/
  | seGo (n : Nat)
  /-- R655: SE_ABORT -/
  | seAbort (n : Nat)
  /-- R655: SE_BUSCLR -/
  | seBusclr (n : Nat)
  /-- R654: SE_DATA_WRITE -/
  | seDataWrite (n : Nat) (v : Word)
  /-- R654: SE_DATA_READ -/
  | seDataRead (n : Nat)
  /-- R656: SE_CONFIG_WRITE -/
  | seConfigWrite (n : Nat) (reg : SeReg) (v : Word)
  /-- R654: SE_TRANSFER_END -/
  | seTransferEnd (n : Nat) (r : SeEnd)
  /-- R654: SE_I2C_TIMEOUT -/
  | seI2cTimeout (n : Nat)
  /-- R654: SE_UART_RX_BYTE -/
  | seUartRxByte (n : Nat) (b : Byte) (e : UartErr)
  /-- R654: SE_UART_TX_BYTE -/
  | seUartTxByte (n : Nat)
  /-- R661: ADC_START -/
  | adcStart (v : Word)
  /-- R660: ADC_SETTLED -/
  | adcSettled
  /-- R660: ADC_CONVERSION_END -/
  | adcConversionEnd (volt : Nat) (vref : Nat)
  /-- R662: ADC_DATA_READ -/
  | adcDataRead
  /-- R663: TMR_SYNC -/
  | tmrSync (v : Word)
  /-- R663: TIMER_MATCH -/
  | timerMatch (n : Nat)
  /-- R663: TIMER_WRAP -/
  | timerWrap (n : Nat)
  /-- R663: TIMER_CAPTURE -/
  | timerCapture (n : Nat) (rising : Bool) (count : Nat)
  /-- R665: WDG_START -/
  | wdgStart (v : Word)
  /-- R666: WDG_FEED -/
  | wdgFeed (v : Word)
  /-- R666: WDG_RELOAD -/
  | wdgReload
  /-- R666: WDG_WARN -/
  | wdgWarn
  /-- R666: WDT_EXPIRE -/
  | wdtExpire
  /-- R685: DEBUG_PORT_ACCESS -/
  | debugPortAccess (a : DebugAccess)
  /-- R10: REGISTER_WRITE -/
  | registerWrite (who : Who) (addr : Word) (v : Word)
  /-- R34: MTIME_RATE_HANDOVER -/
  | mtimeRateHandover
  /-- R455: NETWORK_SCHEDULED_SLEEP -/
  | networkScheduledSleep (d : Depth)
  /-- R501: ERASE_SUSPENDED -/
  | eraseSuspended (plane : Nat)
  /-- R572: PORT_FRAME_ERROR -/
  | portFrameError
  /-- R575: S_WTX_ANSWER -/
  | sWtxAnswer (wtxm : Nat)
  /-- R569: CHAINED_BLOCK -/
  | chainedBlock (pcb : Byte) (f : List Byte)
  /-- R627: ILLEGAL_ENCODING -/
  | illegalEncoding (w : Word)
  /-- R654: CTS_CHANGE -/
  | ctsChange (n : Nat) (level : Bool)
  /-- R670: VIO_LOSS -/
  | vioLoss
  /-- R670: VIO_RETURN -/
  | vioReturn
  /-- R474: VBKUP_LOSS -/
  | vbkupLoss
  deriving DecidableEq, Repr

end Sys2Proof
end

