-- ==== Sys2Proof/Decode.lean ====
section
/-! DEFINITION. Decoding over the rows of the opcode table that give bits. No row does: the table lists commands, whose operands it does not
encode, so no word spells one. -/

namespace Sys2Proof

/-- The command that a word spells by the table's bits: none, since the table gives no row bits. -/
def decodeTableWord (_nbits _w : Nat) : Option Instr := none

end Sys2Proof
end

