-- ==== Sys2Proof/Config.lean ====
section
/-! DEFINITION. The three variants and their sizes (chapter 00), and the values the spec leaves open. -/

namespace Sys2Proof

/-- The three variants of R1. -/
inductive Variant where
  | shaft | drift | face
  deriving DecidableEq, Repr

namespace Config

/-- R3: the DEVCAP word. -/
def devcap : Variant → Word
  | .shaft => 0x0A5F020E#32
  | .drift => 0x0A5E8119#32
  | .face => 0x063C0030#32

/-- R2 DEVCAP.VARIANT. -/
def variantCode : Variant → Nat
  | .shaft => 2 | .drift => 1 | .face => 0

/-- R67 NEIGHBOURS. -/
def neighbours : Variant → Nat
  | .shaft => 6144 | .drift => 2048 | .face => 256

/-- R67 ROUTE_RANGES. -/
def routeRanges : Variant → Nat
  | .shaft => 1024 | .drift => 1024 | .face => 16

/-- R67 QUEUES. -/
def queues : Variant → Nat
  | .shaft => 512 | .drift => 256 | .face => 64

/-- R67 CELLS. -/
def cells : Variant → Nat
  | .shaft => 8192 | .drift => 4096 | .face => 1024

/-- R67 FRAMES_IN_FLIGHT. -/
def framesInFlight : Variant → Nat
  | .shaft => 128 | .drift => 64 | .face => 16

/-- R67 FLASH_KIB. -/
def flashKib : Variant → Nat
  | .shaft => 65536 | .drift => 65536 | .face => 16384

/-- R1: demodulator lanes. -/
def lanes : Variant → Nat
  | .shaft => 16 | .drift => 8 | .face => 1

/-- R1: lane cost budget; 0 means no budgeting. -/
def laneBudget : Variant → Nat
  | .shaft => 64 | .drift => 32 | .face => 0

/-- R1: GPIO pins. -/
def gpio : Variant → Nat
  | .shaft => 20 | .drift => 20 | .face => 12

/-- R1: receive path B is present. -/
def pathB : Variant → Bool
  | .shaft => true | .drift => false | .face => false

/-- R1: wideband path A is present. -/
def wideband : Variant → Bool
  | .shaft => true | .drift => true | .face => false

/-- R1: SD host. -/
def sdHost : Variant → Bool
  | .shaft => true | .drift => true | .face => false

/-- R463: bits of the neighbour banks that the variant has. -/
def nbrBanks : Variant → Nat
  | .shaft => 0x3F | .drift => 0x03 | .face => 0x01

/-- R463: bits of the cell-pool banks that the variant has. -/
def poolBanks : Variant → Nat
  | .shaft => 0xFF | .drift => 0x0F | .face => 0x01

/-- R493: first array offset of plane 1. -/
def plane1 : Variant → Nat
  | .shaft => 0x2000000 | .drift => 0x2000000 | .face => 0x800000

/-- R493: blocks of the array. -/
def flashBlocks : Variant → Nat
  | .shaft => 16384 | .drift => 16384 | .face => 4096

/-- The value the spec does not state, one for each time it is asked (log 7): no proof can see it. -/
opaque free : Nat → Nat

/-- The byte of the boot ROM at an address (R19, R625): the spec gives no ROM image (log 8). -/
opaque rom : Nat → Byte

end Config
end Sys2Proof
end

