-- ==== Sys2Proof/Machine/State.lean ====
section
/-! DEFINITION. The state of the block, its faults and refusals, and the state after reset.
Each field's text gives its width, the chapter and rule that name it, and its reset value. -/

namespace Sys2Proof.Machine

/-! ### Shared small types -/

/-- One value per requester (R56, R58, R74). -/
structure PerReq (α : Type) where
  /-- application core -/ app : α
  /-- external host on the SPI host port -/ host : α
  /-- commissioning port -/ port : α
  deriving DecidableEq, Repr

/-- A channel's state (R39). -/
inductive ChanState where
  | idle | busy | done
  deriving DecidableEq, Repr

/-! ### Device identity: what production fixed -/

/-- What is fixed in silicon or written at production; no command and no reset changes it. -/
structure Dev where
  /-- enumeration; 00 R1 R2 (DEVCAP.VARIANT); fixed; reset DESIGN CHOICE Shaft (log 5) -/ variant : Variant
  /-- 64 bits as 8 octets in on-air order; 08 R250, 02 R66; fixed; reset DESIGN CHOICE 0 (log 6) -/ eui64 : List Byte
  /-- 16 bits; 00, 02 R66; fixed; reset 0x00B0 (stepping B0) -/ stepping : Nat
  /-- 32 bits; 02 R64 R66; the running network firmware; reset DESIGN CHOICE 1.0.0 (log 6) -/ fwVersion : Nat
  /-- 32 bits; 02 R66; resident loader; reset DESIGN CHOICE 1.0.0 (log 6) -/ loaderVersion : Nat
  /-- 16 bits; 02 R66, 17 R534; settings format of the running firmware; reset DESIGN CHOICE 1 (log 6) -/ settingsFormat : Nat
  /-- 32 signed bytes; 04 R132; factory compensation table of the production record; reset DESIGN CHOICE all 0 (log 6) -/ factoryComp : List Int
  deriving DecidableEq, Repr

/-! ### Clocks, calibration and mesh time (chapter 01) -/

/-- What MTIME is counting on (R33, R34, R690). -/
inductive MtimeRate where
  | reference | slow | held
  deriving DecidableEq, Repr

structure Clk where
  /-- 1 bit; 01 SYSCTL_CLKSTAT.XORDY; reset 0 -/ xordy : Bool
  /-- 1 bit; 01 SYSCTL_CLKSTAT.PLLLOCK; reset 0 -/ plllock : Bool
  /-- 1 bit; 01 R26 SYSCTL_CLKSTAT.ROOTSRC (false HFRC, true PLL0); reset 0 -/ rootsrc : Bool
  /-- 1 bit; 01 R27 SYSCTL_CLKSTAT.TCXO; reset from the option area (safe defaults 0) -/ tcxo : Bool
  /-- 1 bit; 01 R28 SYSCTL_CLKSTAT.ROOTFAIL; reset 0 -/ rootfail : Bool
  /-- 1 bit; 01 SYSCTL_CLKSTAT.LFXRDY; reset 0 -/ lfxrdy : Bool
  /-- 24 bits; 01 R30 SYSCTL_SCAL.COUNT; reset 0x16E360 -/ scalCount : Nat
  /-- 1 bit; 01 R30 SYSCTL_SCAL.VALID; reset 0 -/ scalValid : Bool
  /-- 24 bits; 01 R31: the calibration chosen at the last HIBERNATE entry or reference failure; reset 1,500,000 -/ slowCount : Nat
  /-- 56 bits; 01 R32 MTIME; reset 0 -/ mtime : Nat
  /-- 32 bits; 01 R32: MTIME's hidden fraction; reset 0 -/ frac : Nat
  /-- 24 bits; 01 R36 SYSCTL_MTIME_HI shadow of the application core; reset 0 -/ mtimeHi : Nat
  /-- enumeration; 01 R33 R34 R690: the rate MTIME counts at (MTIME_STAT.RUN is "not held"); reset held -/ rate : MtimeRate
  /-- 1 bit; 01 SYSCTL_MTIME_STAT.SYNC; reset 0 -/ sync : Bool
  /-- 1 bit; 01 SYSCTL_MTIME_STAT.SLOW; reset 0 -/ slow : Bool
  /-- 1 bit; 01 R35 SYSCTL_MTIME_STAT.GAP; reset 1 -/ gap : Bool
  /-- 1 bit; 01 R28: the reference has failed and retries are due once a second; reset false -/ refFailed : Bool
  /-- 1 bit; 01 R28: a retry is starting the failed reference; reset false -/ refTry : Bool
  deriving DecidableEq, Repr

/-! ### Mailboxes (chapter 02) -/

/-- The cause and kind of a queued event: an ordinary event, a completion event of a pending slot, or a survey record. -/
inductive EvKind where
  | ordinary
  | completion (slot : Nat)
  | survey (more : Bool)
  deriving DecidableEq, Repr

/-- One event waiting in the queue of channel 6 or 7 (R59 to R62). -/
structure Ev where
  /-- 16 bits; R44 OPCODE -/ op : Nat
  /-- R61, R77 -/ kind : EvKind
  /-- payload, the 8 bytes of MTIME first (R59) -/ payload : List Byte
  /-- R55: the event carries AUTH and a trailer, under this key (the command key in force when the command was checked) -/ auth : Option (List Byte)
  deriving DecidableEq, Repr

/-- One event channel's queue (R62). -/
structure EvQueue where
  /-- up to 64 events; R62; reset empty -/ events : List Ev
  /-- 16 bits saturating; R62: events discarded since the last one delivered; reset 0 -/ lost : Nat
  /-- 16 bits; R44: SEQUENCE of the next event; reset 0 -/ seq : Nat
  /-- 16 bits; R65: groups enabled; reset 0xFFFE -/ mask : Nat
  deriving DecidableEq, Repr

/-- A pending command: one of the 16 slots of R42. -/
structure Pend where
  /-- 4 bits; R42, R48: slot number -/ slot : Nat
  /-- 16 bits; opcode of the command -/ op : Nat
  /-- 8 bits; R61 CHANNEL (0 to 5; the commissioning port's requests report 0xFF, log 30) -/ chan : Nat
  /-- who issued it (R60) -/ req : Requester
  /-- 16 bits; R61 REQ_SEQUENCE -/ seq : Nat
  /-- R55: the command key under which the completion event's trailer is made, when the request carried AUTH -/ auth : Option (List Byte)
  /-- R62: the background work has ended and the completion event is queued -/ ended : Bool
  deriving DecidableEq, Repr

/-- A survey that is streaming (R76 to R78). -/
structure SurveyRun where
  /-- 8 bits; R76 -/ id : Nat
  /-- unit ids still to send, ascending -/ units : List Nat
  /-- 16 bits; R77 -/ records : Nat
  /-- 16 bits; R77: INDEX of the record being sent -/ index : Nat
  /-- 8 bits; R77: PART of the next part -/ part : Nat
  /-- R76 FLAGS.ALL_CONSISTENT -/ consistent : Bool
  /-- 16 bits; R76 BOUND in 10 µs -/ bound : Nat
  /-- R78: consistent capture done (or not needed); records may be sent -/ captured : Bool
  /-- MTIME of the capture of the record being sent -/ mtime : Nat
  /-- what is left of the body of the record being sent -/ rest : List Byte
  /-- bodies captured on one edge for ALL_CONSISTENT, ascending unit -/ bodies : List (Nat × List Byte)
  /-- 16 bits; status of the end record -/ status : Nat
  /-- 16 bits; DETAIL of the end record -/ detail : Nat
  /-- who asked (R60) -/ req : Requester
  deriving DecidableEq, Repr

structure Mbx where
  /-- 8 × 2 bits; 02 R39 MBX_STAT.STATE; reset all IDLE -/ chan : List ChanState
  /-- 1 bit; 02 MBX_STAT.NETRDY; reset 0 -/ netrdy : Bool
  /-- 8 bits; 02 MBX_IEN.IEN; reset 0 -/ ien : BitVec 8
  /-- 8 bits; 02 MBX_ERR.DBLATE; reset 0 -/ dblate : BitVec 8
  /-- 8 bits; 02 R40 MBX_ERR.REQWR; reset 0 -/ reqwr : BitVec 8
  /-- 8 bits; 02 R39 MBX_ERR.NOTOWN; reset 0 -/ notown : BitVec 8
  /-- 7 bits; 02 R38 MBX_OWN.OWN; reset from the option area (safe defaults 0) -/ own : BitVec 7
  /-- 1 bit; 02 R38 MBX_OWN.MIRROR; reset from the option area (safe defaults 0) -/ mirror : Bool
  /-- 3 bits; 02 R41: the channel (1 to 5) the round robin looks at first; reset DESIGN CHOICE 1 (log 16) -/ rr : Nat
  /-- up to 16 entries; 02 R42; reset empty -/ pend : List Pend
  /-- channel 6; 02 R62; reset empty -/ q6 : EvQueue
  /-- channel 7; 02 R62; reset empty -/ q7 : EvQueue
  /-- 3 × 32 bits; 02 R56 stored command counters; reset 0 (0 at manufacture) -/ counter : PerReq Nat
  /-- 3 counts; 02 R58 consecutive failures; reset 0 -/ fails : PerReq Nat
  /-- 3 counts of slow-clock periods; 02 R58 lockout remaining; reset 0 -/ lockout : PerReq Nat
  /-- 8 bits; 02 R76 SURVEY_ID of the next survey; reset DESIGN CHOICE 0 (log 17) -/ surveyId : Nat
  /-- 02 R76; reset none -/ survey : Option SurveyRun
  deriving DecidableEq, Repr

/-- The SPI host port between two transactions (R80, R82). -/
structure HostPort where
  /-- 1 bit; 02 R80 ERR; reset 0 -/ err : Bool
  /-- 1 bit; 14 R456: HOST_CS is low, a transaction is open; reset false -/ cs : Bool
  /-- bytes last sent on HOST_SDO, status byte first; 02 R80 R81; reset empty -/ sdo : List Byte
  /-- words the open transaction reads after a stalled POP; 02 R81, 11 R365; reset 0 -/ left : Nat
  deriving DecidableEq, Repr

/-! ### Modes and system group (chapters 02 and 14) -/

/-- Operating modes, R69. -/
inductive Mode where
  | shelf | watch | leaf | relay | wide | service
  deriving DecidableEq, Repr

/-- A mode change that waits for its drain (R445). -/
structure ModeDrain where
  /-- the mode asked for -/ target : Mode
  /-- its pending slot -/ slot : Nat
  deriving DecidableEq, Repr

/-- The reset a command asked for, 50 µs ahead (R68, R446); `act` is the LDR reset of an UPDATE_COMMIT with RESET_NOW (R535). -/
inductive DelayedReset where
  | sys | ldr | act
  deriving DecidableEq, Repr

/-! ### Shots (chapter 03) -/

/-- An entry of a shot (R87). -/
inductive Entry where
  | mbx (op : Nat) (payload : List Byte)
  | reg (addr mask value : Nat)
  deriving DecidableEq, Repr

/-- A shot buffer's state (R85). -/
inductive ShotState where
  | free | opened | armed | quiescing
  deriving DecidableEq, Repr

/-- One shot buffer (R84 to R110). -/
structure Shot where
  /-- 2 bits; 03 R85, SHOT_STATE; reset FREE -/ state : ShotState
  /-- 03 R86; reset none -/ owner : Option Requester
  /-- up to 256 entries; 03 R84; reset empty -/ entries : List Entry
  /-- up to 16,384; 03 R84: bytes of entry data; reset 0 -/ bytes : Nat
  /-- 3 bits; 03 R92; reset 0 -/ trigger : Nat
  /-- 03 R97; reset false -/ rxCut : Bool
  /-- 03 R104; reset false -/ persist : Bool
  /-- 16 bits; 03 R107 BOUND; reset 0 -/ bound : Nat
  /-- 64 bits; 03 R107 WHEN; reset 0 -/ whenAt : Nat
  /-- 4 bits; the pending slot of SHOT_FIRE; reset 0 -/ slot : Nat
  /-- MTIME at which the trigger fell; 03 R108; reset 0 -/ trigAt : Nat
  /-- 03 R95: the quiesce has begun; reset false -/ begun : Bool
  /-- 03 R104: the swap is done and the settings write runs; reset false -/ saving : Bool
  /-- MTIME of the swap edge; 03 R108; reset 0 -/ swapAt : Nat
  /-- µs from the trigger to the swap; 03 R108; reset 0 -/ quiesceUs : Nat
  deriving DecidableEq, Repr

structure Shots where
  /-- 4 buffers; 03 R84; reset all FREE -/ buf : List Shot
  /-- 4 bits; 03 SHOT_DONE.DONE; reset 0 -/ done : BitVec 4
  /-- 4 bits; 03 SHOT_DONE.APPLIED; reset 0 -/ applied : BitVec 4
  /-- 4 bits; 03 SHOT_IEN.IEN; reset 0 -/ ien : BitVec 4
  deriving DecidableEq, Repr

/-! ### Radio front end (chapter 04) -/

/-- Radio states, R115. -/
inductive RadioState where
  | sleep | idle | cal | locked | rx | tx | txready
  deriving DecidableEq, Repr

/-- Who asked for a transmission (R126: the submitter). -/
inductive TxWho where
  | frame (flight : Nat)
  | ack (rxid : Nat)
  | wake
  | test
  deriving DecidableEq, Repr

/-- What a transmission radiates from its first symbol on. -/
inductive Air where
  /-- nothing yet: the transmission is held -/ | silent
  /-- R159 WAVE 0: the unmodulated carrier -/ | carrier
  /-- R159 WAVE 1: 2-FSK, 50 kbit/s, deviation 25 kHz, PN9 data -/ | testFsk
  /-- R225, R226, R240: chips of 250 µs, true carrier on -/ | wake (chips : List Bool)
  /-- SUN FSK: RATE, PHYCFG with its FEC and NOWHITEN bits as sent, preamble octets, PSDU octets (R187, R188, R216, R218) -/
  | fsk (rate phycfg preamble : Nat) (psdu : List Byte)
  /-- SUN OFDM: RATE of the option, MCS, scrambler seed index, PSDU octets (R192 to R194, R216, R218) -/ | ofdm (rate mcs seed : Nat) (psdu : List Byte)
  /-- Seam: index of R198 and the symbols, each its phase in steps of π/4 (R199 to R209) -/ | seam (idx : Nat) (symbols : List Nat)
  deriving DecidableEq, Repr

/-- A transmission the radio holds or has on air (R124 to R131). -/
structure TxReq where
  /-- the submitter -/ who : TxWho
  /-- MTIME of a timed transmission; none when immediate (R125) -/ timed : Option Nat
  /-- carrier in tuning units of 48,000,000 / 2^23 Hz (R113) -/ tune : Nat
  /-- carrier as the tally compares it, in 2^-23 Hz (R332) -/ carrier : Nat
  /-- requested power in 0.5 dB; none for the default in force when it starts (R129, R134) -/ power : Option Int
  /-- antenna it leaves on, 0 A, 1 B (R136) -/ ant : Nat
  /-- predicted on-air time in µs (R338) -/ us : Nat
  /-- an acknowledgement will be awaited (R277) -/ ar : Bool
  /-- rest state of the frame's descriptor (R274 RET: 0 default, 1 SLEEP, 2 IDLE, 3 RX, 4 TXREADY) -/ ret : Nat
  /-- reservation number at the tally; none when the band is outside and allowed (R333) -/ resv : Option Nat
  /-- listens left before giving up (R345); 0 when no listen is due -/ lbt : Nat
  /-- what it radiates; the test waveform is named when it is submitted, every other when it starts (R159, R200, R216, R218, R225) -/ air : Air := .silent
  deriving DecidableEq, Repr

/-- A stored calibration (R121). -/
structure CalEnt where
  /-- VCO capacitor code; R120 -/ code : Nat
  /-- die temperature at calibration, 0.25 °C; R121 -/ temp : Int
  deriving DecidableEq, Repr

/-- Diversity settings of R153. -/
structure DivCfg where
  /-- 1 bit; R153; reset 0 (R691) -/ mode : Nat
  /-- 1 bit; R153; reset 0 (R691) -/ fixedAnt : Nat
  /-- 1 bit; R153; reset 0 (R691) -/ idleAnt : Nat
  /-- 1 bit; R153; reset 0 (R691) -/ txAnt : Nat
  /-- 5 bits; R153; reset 2 (R691) -/ hyst : Nat
  deriving DecidableEq, Repr

/-- External amplifier settings of R154. -/
structure ExtCfg where
  /-- 8 bits; R154; reset 0x70 (R691) -/ pins : Nat
  /-- 5 bits; R154; reset 2 (R691) -/ lead : Nat
  /-- 4 bits; R154; reset 1 (R691) -/ lag : Nat
  /-- 8 bits signed; R154; reset 0 (R691) -/ offA : Int
  /-- 8 bits signed; R154; reset 0 (R691) -/ offB : Int
  deriving DecidableEq, Repr

/-- The radio's working configuration (R148 to R154). -/
structure RadioCfg where
  /-- home frequency in tuning units; R114 R150; reset 868,000,000 Hz (R691) -/ home : Nat
  /-- 3 bits; R150; reset 0 SLEEP (R691) -/ ret : Nat
  /-- 8 bits signed; R151; reset 0 (R691) -/ power : Int
  /-- 2 bits; R130 R151; reset 0 (R691) -/ txport : Nat
  /-- 1 bit; R152 ORIGIN; reset 1 (R691) -/ origin : Nat
  /-- 32 signed bytes; R132 R152; reset the factory table (R691) -/ comp : List Int
  /-- R153 -/ div : DivCfg
  /-- R154 -/ ext : ExtCfg
  deriving DecidableEq, Repr

/-- The twelve counters of R158, 32 bits each, reset 0. -/
structure RadioStats where
  txFrames : Nat
  txLate : Nat
  lockFail : Nat
  calFull : Nat
  calAuto : Nat
  clampVbat : Nat
  clampPort : Nat
  divDecided : Nat
  divSwitched : Nat
  divBlocked : Nat
  divIncomplete : Nat
  refSleep : Nat
  deriving DecidableEq, Repr

/-- The last transmitted frame's record (R161). -/
structure LastTx where
  /-- 56 bits; R161; reset 0 -/ mtime : Nat
  /-- 8 bits signed -/ req : Int
  /-- 8 bits signed; R131 -/ applied : Int
  /-- 9 bits; R133 -/ paCode : Nat
  /-- 8 bits signed; R132 -/ comp : Int
  /-- 5 bits; R161 LAST_TXFLAGS -/ flags : Nat
  /-- 16 bits signed, 0.25 °C -/ temp : Int
  /-- 16 bits, mV -/ vbat : Nat
  /-- carrier in tuning units -/ tune : Nat
  deriving DecidableEq, Repr

/-- A measurement in progress: RADIO_RSSI or RADIO_CCA (R156, R157). -/
structure Measure where
  /-- its pending slot -/ slot : Nat
  /-- centre frequency in tuning units -/ tune : Nat
  /-- antenna measured; R145 R156 -/ ant : Nat
  /-- threshold in 0.5 dBm (RADIO_CCA) -/ threshold : Int
  /-- MTIME of the start -/ start : Nat
  deriving DecidableEq, Repr

/-- RADIO_TEST_TX in progress (R159). -/
structure TestTx where
  /-- its pending slot -/ slot : Nat
  /-- MTIME of its first symbol; none until radiated -/ start : Option Nat
  /-- R159 DURATION_MS -/ ms : Nat
  deriving DecidableEq, Repr

structure Radio where
  /-- 3 bits; 04 R115; reset SLEEP -/ state : RadioState
  /-- 04 R116: the state a transition in progress will enter; reset none -/ goal : Option RadioState
  /-- synthesizer frequency in tuning units; 04 R113 R161 FREQ_HZ; reset 0 -/ tune : Nat
  /-- target of a channel change or lock in progress, tuning units; 04 R116; reset 0 -/ tuneGoal : Nat
  /-- 04 R123: this lock is the second attempt; reset false -/ second : Bool
  /-- 04 R149: settings set and read back; reset R691 -/ cfg : RadioCfg
  /-- home frequency in force, tuning units; 04 R114; reset 868,000,000 Hz (R691) -/ home : Nat
  /-- 04 R153: diversity settings in force; reset R691 -/ div : DivCfg
  /-- 04 R154: amplifier settings in force; reset R691 -/ ext : ExtCfg
  /-- 1 bit; 04 R136 R137: antenna connected or selected; reset 0 (A) -/ ant : Nat
  /-- 04 R137: a frame has been received since the RADIO domain powered up; reset false -/ heard : Bool
  /-- 64 entries; 04 R121; AON; reset all missing -/ cal : Tab (Option CalEnt)
  /-- 64 bits; 04 R155: segments calibrated since POR; reset 0 -/ everCal : Nat
  /-- 04 R155: segments still to calibrate for RADIO_CAL, and how many are done; reset none -/ calJob : Option (Nat × List Nat × Nat)
  /-- 04 R122: an automatic recalibration runs; reset false -/ autoCal : Bool
  /-- 04 R122: the current segment is stale and waits for the exchange to end; reset false -/ recalWait : Bool
  /-- 16 bits signed, 0.25 °C; 04 R121; reset DESIGN CHOICE 0 (log 10) -/ temp : Int
  /-- 16 bits, mV; 04 R161; reset DESIGN CHOICE 0 (log 10) -/ vbat : Nat
  /-- 04 R127: transmission held; reset none -/ held : Option TxReq
  /-- 04 R127: transmission on air; reset none -/ onAir : Option TxReq
  /-- MTIME of the first symbol on air; 04 R124; reset 0 -/ airStart : Nat
  /-- 04 R114: a frame awaits its acknowledgement (the flight); reset none -/ awaiting : Option Nat
  /-- 04 R117 R268: an acknowledgement is owed for this received frame; reset none -/ owed : Option Nat
  /-- 04 R117: rest state named by the frame of the packet in progress; reset 0 -/ packetRet : Nat
  /-- 08 R273: rest in RX until this MTIME, on this tuning; reset none -/ pendHold : Option (Nat × Nat)
  /-- 04 R114: the home frequency waits to be applied; reset false -/ retune : Bool
  /-- 04 R137: the antenna was switched for the frame that this lane is about to synchronise to; reset none -/ switchedFor : Option Nat
  /-- 04 R156; reset none -/ rssi : Option Measure
  /-- 04 R157; reset none -/ cca : Option Measure
  /-- 10 R345: a listen before the held transmission is running or waits out its backoff; reset 0 none, 1 listening, 2 backoff -/ lbtPhase : Nat
  /-- MTIME at which the backoff after a busy listen ends; 10 R345; reset 0 -/ lbtUntil : Nat
  /-- 04 R159; reset none -/ test : Option TestTx
  /-- 12 × 32 bits; 04 R158; reset 0 -/ stats : RadioStats
  /-- 04 R131: RADIO_CLAMP may be raised; reset true -/ clampArm : Bool
  /-- 04 R161; reset 0 -/ last : LastTx
  deriving DecidableEq, Repr

/-! ### Lanes and PHY (chapters 05 and 06) -/

/-- A lane's configuration (R165, R183). -/
structure LaneCfg where
  /-- 1 bit; R165; reset 0 (R182) -/ enable : Nat
  /-- 2 bits; R165; reset 1 (R182) -/ phy : Nat
  /-- 2 bits; R165; reset 0 (R182) -/ path : Nat
  /-- 32 bits signed; R165; reset 0 (R182) -/ offset : Int
  /-- 32 bits; R165; reset 100,000 (R182) -/ chan : Nat
  /-- 32 bits; R165; reset 50,000 (R182) -/ rate : Nat
  /-- 32 bits; R165 R188 R214; reset 0 (R182) -/ phycfg : Nat
  deriving DecidableEq, Repr

/-- The frame a lane is receiving (R173 FRAME). -/
structure LaneFrame where
  /-- 56 bits; R177 -/ stamp : Nat
  /-- 1 bit; path or antenna, R136 R139 -/ path : Nat
  /-- 04 R137: the antenna was switched for it -/ switched : Bool
  /-- PSDU octets its header announced; none before the header; R189 R194 R204 -/ len : Option Nat
  /-- R218: PHY details of the header an acknowledgement repeats: FSK 4-FSK, SFD set, coded, whitened; OFDM MCS -/ coded : Bool
  /-- R215 FLAGS bit 2 -/ white : Bool
  /-- R194: MCS of the Rate field -/ mcs : Nat
  /-- R212: pilot correlation failures in a row -/ weak : Nat
  /-- R213: the equaliser was reset in this frame -/ eqReset : Bool
  deriving DecidableEq, Repr

/-- A quality record, R215. -/
structure Quality where
  /-- 56 bits; R215 -/ stamp : Nat
  /-- 32 bits; R215 -/ fcs : Nat
  /-- 8 bits; R215 -/ lane : Nat
  /-- 8 bits; R215 -/ phy : Nat
  /-- 8 bits; R215 -/ mode : Nat
  /-- 8 bits; R215 -/ flags : Nat
  /-- 16 bits signed; R215 -/ rssi : Int
  /-- 16 bits signed; R215 -/ snr : Int
  /-- 32 bits signed; R215 -/ freqOff : Int
  /-- 16 bits signed; R215 -/ slope : Int
  /-- 16 bits signed; R215 -/ eqEnergy : Int
  /-- 16 bits; R215 -/ trackErr : Nat
  /-- 16 bits; R215 -/ length : Nat
  deriving DecidableEq, Repr

/-- A lane's counters: R185 and R223, 32 bits each, reset 0. -/
structure LaneStats where
  sof : Nat
  rxOk : Nat
  fcsFail : Nat
  hdrFail : Nat
  blanked : Nat
  cut : Nat
  dupDropped : Nat
  noCell : Nat
  pathB : Nat
  modesw : Nat
  fcs2 : Nat
  badRate : Nat
  seamVer : Nat
  trackLost : Nat
  eqResets : Nat
  deriving DecidableEq, Repr

structure Lane where
  /-- 05 R165: configuration in force; reset R182 -/ cfg : LaneCfg
  /-- 05 R176: a configuration that waits for the end of the frame; reset none -/ next : Option LaneCfg
  /-- 05 R173: the frame in reception; reset none -/ frame : Option LaneFrame
  /-- 15 × 32 bits; 05 R185, 06 R223; reset 0 -/ stats : LaneStats
  /-- up to 7 records, newest first; 06 R215; reset empty -/ quality : List Quality
  deriving DecidableEq, Repr

/-- One receive path's gain control (R164, R184). -/
structure PathAgc where
  /-- 8 bits, dB; 05 R184 A_GAIN; reset free value of the hardware, DESIGN CHOICE 0 (log 10) -/ gain : Int
  /-- 32 bits; 05 R164 R184; reset 0 -/ clip : Nat
  /-- 32 bits; 05 R164 R184; reset 0 -/ forced : Nat
  deriving DecidableEq, Repr

/-- A transmit profile (R216, R221). -/
structure Profile where
  /-- 2 bits; R221; reset profile 0 SUN FSK, others 0 (R217) -/ phy : Nat
  /-- 3 bits; R221; reset 0 -/ mcs : Nat
  /-- 16 bits; R221; reset profile 0 8, others 0 -/ preamble : Nat
  /-- 32 bits; R221; reset profile 0 50,000, others 0 -/ rate : Nat
  /-- 32 bits; R221; reset 0 -/ phycfg : Nat
  deriving DecidableEq, Repr

structure Lanes where
  /-- 16 lanes (those of the variant are used); 05 R173; reset R182 -/ lane : List Lane
  /-- 05 R164; reset 0 -/ agcA : PathAgc
  /-- 05 R164; reset 0 -/ agcB : PathAgc
  /-- up to 32 frames, newest first: FCS, stamp and MTIME of delivery; 05 R178; reset empty -/ delivered : List (Nat × Nat × Nat)
  /-- 16 profiles; 06 R216; reset R217 -/ profile : List Profile
  /-- 2 bits; 06 R194: scrambler seed counter; reset DESIGN CHOICE 0 (log 15) -/ seed : Nat
  deriving DecidableEq, Repr

/-! ### Canary (chapter 07) -/

/-- The canary's configuration (R245). -/
structure CanaryCfg where
  /-- 1 bit; R245; reset 0 (R243) -/ enable : Nat
  /-- 2 bits; R228 R245; reset DESIGN CHOICE 0 (log 11) -/ active : Nat
  /-- 4 bits; R245; reset DESIGN CHOICE 0 (log 11) -/ matchBits : Nat
  /-- 5 bits; R232 R245; reset DESIGN CHOICE 0 (log 11) -/ threshold : Nat
  /-- 4 × 32 bits; R228; reset DESIGN CHOICE 0 (log 11) -/ slots : List Nat
  /-- 128 bits; R234 R245; reset DESIGN CHOICE 0 (log 11) -/ groups : Nat
  deriving DecidableEq, Repr

/-- What the canary is doing while it runs (R230 LISTEN, SEQUENCE, BLANKED, SENDING). -/
inductive CanaryPhase where
  | listen | sequence | blanked | sending
  deriving DecidableEq, Repr

/-- The twelve counters of R247, 32 bits each, reset 0; AON. -/
structure CanaryStats where
  preambleSeen : Nat
  matchUnicast : Nat
  matchAllcall : Nat
  matchGroup : Nat
  falseWake : Nat
  decodeFail : Nat
  addrMiss : Nat
  repeatSeen : Nat
  blanked : Nat
  cut : Nat
  sent : Nat
  sendRefused : Nat
  deriving DecidableEq, Repr

/-- A wake sequence send: CANARY_SEND or the wake of a resynchronisation attempt (R239 to R246, R317). -/
structure WakeSend where
  /-- pending slot of CANARY_SEND; none for a resynchronisation wake -/ slot : Option Nat
  /-- the neighbour of a resynchronisation wake -/ resync : Option Nat
  /-- 25 bits; R246 -/ address : Nat
  /-- 7 bits; R246 -/ group : Nat
  /-- 1 to 8; R240 -/ rep : Nat
  /-- FREQ_HZ; R246 -/ hz : Nat
  /-- R239 R246 POWER in 0.5 dB; none for the default -/ power : Option Int
  /-- R239 R246 ANT: 0 TX_ANT, 1 A, 2 B -/ ant : Nat
  /-- R246 WHEN; 0 at once -/ whenAt : Nat
  /-- it has been handed to the radio (R127) -/ submitted : Bool
  /-- MTIME of the first chip; none until radiated -/ start : Option Nat
  deriving DecidableEq, Repr

structure Canary where
  /-- 07 R245; AON; reset ENABLE 0 -/ cfg : CanaryCfg
  /-- 07 R242: a configuration that waits for the sequence to end; reset none -/ next : Option CanaryCfg
  /-- 07 R230; reset LISTEN (OFF while ENABLE is 0) -/ phase : CanaryPhase
  /-- 12 × 32 bits; 07 R247; AON; reset 0 -/ stats : CanaryStats
  /-- 64 bits; 07 R248 MATCH_MTIME; reset 0 -/ mMtime : Nat
  /-- 25 bits; 07 R248; reset 0 -/ mAddress : Nat
  /-- 7 bits; 07 R248; reset 0 -/ mGroup : Nat
  /-- 2 bits; 07 R248 MATCH_KIND; reset 0 -/ mKind : Nat
  /-- 2 bits; 07 R248; reset 0 -/ mSlot : Nat
  /-- 07 R237: ADDRESS, GROUP, CRC and end MTIME of the last matched sequence or repeat; reset none -/ repeatOf : Option (Nat × Nat × Nat × Nat)
  /-- 07 R236: a CANARY_MATCH event is due once the network core runs; reset false -/ eventDue : Bool
  /-- 07 R239; reset none -/ send : Option WakeSend
  deriving DecidableEq, Repr

/-! ### Link controller (chapter 08) -/

/-- A neighbour entry's state (R262, R263). -/
inductive NbrState where
  | free | active | resync | lost
  deriving DecidableEq, Repr

/-- One 64-byte neighbour entry (R262); every field at reset as R263 gives for FREE. -/
structure Nbr where
  /-- 25 bits; R262 SHORT; reset 0x1FFFFFE -/ short : Nat
  /-- 64 bits as 8 octets in on-air order; R262 EUI64; reset 0 -/ eui64 : List Byte
  /-- R262 STATE; reset FREE -/ state : NbrState
  /-- 8 bits; R262 FLAGS; reset 0 -/ flags : BitVec 8
  /-- 8 bits; R262 LQ; reset 0 -/ lq : Nat
  /-- 4 bits; R262 PROFILE; reset 0 -/ profile : Nat
  /-- 8 bits; R262 TX_KEY_SLOT; reset 0xFF -/ txKey : Nat
  /-- 8 bits; R262 RX_KEY_SLOT; reset 0xFF -/ rxKey : Nat
  /-- 8 bits; R262 RX_KEY_PREV; reset 0xFF -/ rxKeyPrev : Nat
  /-- 4 bits; R262 MISS[3:0]; reset 0 -/ miss : Nat
  /-- 4 bits; R262 MISS[7:4]; reset 0 -/ fails : Nat
  /-- 12 bits; R262 TX_SEQ; reset 0 -/ txSeq : Nat
  /-- 4 × 12 bits, newest first; R262 R271 DUP_WIN and DUP_COUNT (its length is DUP_COUNT); reset empty -/ dupWin : List Nat
  /-- 9 bits; R262 QUEUE; reset 0 -/ queue : Nat
  /-- 16 bits; R262 R272 RX_BITMAP; reset 0 -/ bitmap : BitVec 16
  /-- 32 bits; R262 RX_HWM; reset 0 -/ hwm : Nat
  /-- 32 bits; R262 RX_HWM_PREV; reset 0 -/ hwmPrev : Nat
  /-- 24 bits signed; R262 R307 DRIFT_PPB; reset 0 -/ drift : Int
  /-- 1 bit; R262 RXSTAT.HWM_VALID; reset 0 -/ hwmValid : Bool
  /-- 1 bit; R262 RXSTAT.PREV_VALID; reset 0 -/ prevValid : Bool
  /-- 32 bits; R262 RDV_PERIOD; reset 0 -/ rdvPeriod : Nat
  /-- 32 bits; R262 RDV_OFFSET; reset 0 -/ rdvOffset : Nat
  /-- 27 bits; R262 LAST_ACK; reset 0 -/ lastAck : Nat
  /-- 16 bits; R262; reset 0 -/ rxOk : Nat
  /-- 16 bits; R262; reset 0 -/ txOk : Nat
  /-- 16 bits; R262; reset 0 -/ txFail : Nat
  /-- 16 bits; R262; reset 0 -/ retries : Nat
  deriving DecidableEq, Repr

/-- A route range, or the parent route (R280, R291); reset all 0. -/
structure Route where
  /-- 1 bit; R291 VALID; reset 0 -/ valid : Nat
  /-- 5 bits; R280 SIZE_LOG2; reset 0 -/ size : Nat
  /-- 6 bits; R280 HOP_LIMIT; reset 0 -/ hopLimit : Nat
  /-- 25 bits; R280 BASE; reset 0 -/ base : Nat
  /-- 16 bits; R280 NEXT_HOP; reset 0 -/ nextHop : Nat
  deriving DecidableEq, Repr

/-- The link configuration (R288). -/
structure LinkCfg where
  /-- 25 bits; R288; reset 0x1FFFFFE -/ ownShort : Nat
  /-- 4 bits; R288; reset 0 -/ net : Nat
  /-- 4 bits; R288; reset 3 -/ maxRetries : Nat
  /-- 1 bit; R288 FLAGS; reset 0 -/ joinOpen : Nat
  /-- 4 bits; R288; reset 0 -/ bcastProfile : Nat
  /-- 16 bits; R288; reset 2,000 -/ boBaseUs : Nat
  /-- 16 bits; R288; reset 1,000 -/ boMaxMs : Nat
  /-- 16 bits; R288; reset 0 -/ rxQueue : Nat
  /-- 16 bits; R288; reset 1 -/ unroutedQueue : Nat
  /-- 8 bits; R288; reset 0xFF -/ bcastKey : Nat
  /-- 2 bits; R288; reset 0 -/ micLen : Nat
  /-- 16 bits; R288; reset 20 -/ pendHoldMs : Nat
  /-- 8 × 32 bits; R288 GROUPS; reset 0 -/ groups : List Nat
  deriving DecidableEq, Repr

/-- What a frame in flight carries and who gets its outcome. -/
inductive FlightKind where
  /-- taken from a TX queue (R274, R276), for NOTIFY of R297 -/ | packet (queue : Nat) (notify : Bool)
  /-- a TIME_BEACON of TIMING_BEACON with its pending slot (R326) -/ | beacon (slot : Nat)
  /-- a keep-alive TIME_BEACON (R316) -/ | keepalive
  /-- a TIME_BEACON of a resynchronisation attempt (R317) -/ | resyncBeacon
  /-- JOIN_REQ (R284) -/ | joinReq
  /-- JOIN_REPLY with its pending slot (R286) -/ | joinReply (slot : Nat)
  deriving DecidableEq, Repr

/-- Where a frame in flight stands (R276). -/
inductive FlightPhase where
  /-- originated by the network core and not yet taken (R367, R383) -/ | origin
  /-- waits for securing: HALT or a frame-counter reservation (R418, R427) -/ | securing
  /-- ready to be handed to the radio, since this MTIME (R383) -/ | ready (since : Nat)
  /-- placed in a rendezvous, first symbol at this MTIME (R304, R311) -/ | window (at_ : Nat)
  /-- handed to the radio, held or on air (R127) -/ | radio
  /-- awaiting its acknowledgement (R277) -/ | waitAck
  /-- waiting out the backoff, which ends at this MTIME (R278) -/ | backoff (until_ : Nat)
  /-- refused by the tally; offered again when it fits (R278, R342); when it first waited -/ | refused (since : Nat)
  /-- held for a neighbour in RESYNC (R263) -/ | resync
  deriving DecidableEq, Repr

/-- A frame in flight (R276). -/
structure Flight where
  /-- model's own number of the flight -/ id : Nat
  /-- R276 -/ kind : FlightKind
  /-- R276 -/ phase : FlightPhase
  /-- next hop entry; none for a multicast frame or a frame to an address without an entry -/ nbr : Option Nat
  /-- cells kept until the outcome (R360) -/ cells : List Nat
  /-- link header of R253 up to the mesh header (FC with PEND clear) -/ head : List Byte
  /-- payload in clear (R274) -/ body : List Byte
  /-- R275 slot securing the frame; none when unsecured -/ keySlot : Option Nat
  /-- 32 bits; R417 COUNTER drawn; none until secured -/ counter : Option Nat
  /-- R423: the key its slot held when it was secured -/ key : List Byte
  /-- PSDU as first transmitted (R101, R275); empty until built -/ psdu : List Byte
  /-- 12 bits; R275 -/ seq : Nat
  /-- R275 -/ ar : Bool
  /-- R275 TIMED -/ timed : Bool
  /-- R274 RET -/ ret : Nat
  /-- R216: transmit profile -/ profile : Nat
  /-- carrier in tuning units -/ tune : Nat
  /-- attempts begun (R297 ATTEMPTS) -/ attempts : Nat
  /-- R382: first transmission begun -/ begun : Bool
  /-- R311: it goes into the windows of its next hop -/ windowed : Bool
  /-- rendezvous number it is placed in (R311) -/ rdv : Option Nat
  /-- flow it was released from (R397) -/ flow : Option Nat
  deriving DecidableEq, Repr

/-- How far a delivered frame has come (R267 to R271). -/
inductive RxPhase where
  /-- delivered by its lane, not yet examined -/ | fresh
  /-- passed steps 3 to 9, MIC pending -/ | micPending
  /-- its last step is done; kept while an acknowledgement is due -/ | closed
  deriving DecidableEq, Repr

/-- The acknowledgement of a received frame (R268, R269). -/
inductive AckPhase where
  | none | due | committed
  deriving DecidableEq, Repr

/-- A frame delivered by a lane (R178, R267). -/
structure RxFrame where
  /-- model's own number of the frame -/ id : Nat
  /-- delivering lane -/ lane : Nat
  /-- PSDU octets, FCS included (R253) -/ psdu : List Byte
  /-- R215 -/ quality : Quality
  /-- R367: cells holding it -/ cells : List Nat
  /-- R267 -/ phase : RxPhase
  /-- R268 -/ ack : AckPhase
  /-- source entry (step 6) -/ nbr : Option Nat
  /-- MIC result when known before D (R269) -/ mic : Option Bool
  /-- R271: a duplicate, acknowledged again -/ dup : Bool
  /-- R268: long form, PEND, and TCORR -/ long : Bool
  pend : Bool
  tcorr : Int
  /-- R218: coded and whitening of the frame, and its MCS, for the acknowledgement -/ mcs : Nat
  /-- R304 R315: c_k of the own window its SFD fell in -/ window : Option Nat
  deriving DecidableEq, Repr

/-- The 26 counters of R295, 32 bits each, reset 0. -/
structure LinkStats where
  rxDelivered : Nat
  rxForwarded : Nat
  txOk : Nat
  txRetry : Nat
  txFail : Nat
  txLate : Nat
  ackSent : Nat
  ackCollide : Nat
  dupRx : Nat
  micFail : Nat
  micLateFail : Nat
  replay : Nat
  keyBad : Nat
  unsecured : Nat
  noNbr : Nat
  badFrame : Nat
  otherNet : Nat
  notMine : Nat
  hopsExpired : Nat
  noRoute : Nat
  nhDown : Nat
  fwdOff : Nat
  fwdQfull : Nat
  rxQfull : Nat
  keyExhausted : Nat
  badDesc : Nat
  deriving DecidableEq, Repr

/-- A running join (R284, R293). -/
structure Join where
  /-- its pending slot -/ slot : Nat
  /-- 32 bits; R293 -/ token : Nat
  /-- repetitions still to send -/ left : Nat
  /-- R293 INTERVAL_MS -/ intervalMs : Nat
  /-- MTIME at which the next repetition is due -/ nextAt : Nat
  /-- MTIME at which TIMEOUT_S expires; R284 -/ endAt : Nat
  /-- 8 bits; R293 ROLE -/ role : Nat
  /-- R293 DATA -/ data : List Byte
  deriving DecidableEq, Repr

/-- Counts of the next LINK_DROP (R297), 16 bits each, reset 0. -/
structure DropAcc where
  hopsExpired : Nat
  noRoute : Nat
  nhDown : Nat
  fwdOff : Nat
  fwdQfull : Nat
  rxQfull : Nat
  lastFinalDst : Nat
  deriving DecidableEq, Repr

/-- A packet: a chain of cells (R357). -/
structure Packet where
  /-- 1 to 33 cell indices; R357 -/ cells : List Nat
  /-- 8 to 2,112 bytes; R357 -/ bytes : List Byte
  /-- R371: a cell holds an uncorrectable error -/ ue : Bool
  deriving DecidableEq, Repr

/-- A packet the scheduler has released and the link controller has not yet taken (R360, R382). -/
structure Released where
  /-- flow it came from -/ flow : Nat
  /-- TX queue it came from -/ queue : Nat
  /-- R387: its next hop has FLAGS.RDV -/ rdv : Bool
  packet : Packet
  deriving DecidableEq, Repr

structure Link where
  /-- 08 R288; reset its defaults -/ cfg : LinkCfg
  /-- 6,144, 2,048 or 256 entries of 64 bytes; 08 R262; reset all FREE -/ nbr : Tab Nbr
  /-- 1,024 or 16 ranges; 08 R280; reset all 0 -/ route : Tab Route
  /-- 08 R280; reset all 0 -/ parent : Route
  /-- 12 bits; 08 R275 R296 BCAST_SEQ; reset DESIGN CHOICE 0 (log 13) -/ bcastSeq : Nat
  /-- packets released and not yet taken, oldest first; 12 R382; reset empty -/ released : List Released
  /-- up to FRAMES_IN_FLIGHT; 08 R276; reset empty -/ flight : List Flight
  /-- delivered frames being examined; 08 R267; reset empty -/ rx : List RxFrame
  /-- the model's own number of the next flight or received frame; reset 0 -/ nextId : Nat
  /-- 26 × 32 bits; 08 R295; reset 0 -/ stats : LinkStats
  /-- 08 R284; reset none -/ join : Option Join
  /-- EUI-64, TOKEN and MTIME of JOIN_REQs reported in the last 10 s; 08 R285; reset empty -/ joinSeen : List (List Byte × Nat × Nat)
  /-- 08 R297; reset 0 -/ drop : DropAcc
  /-- MTIME of the last LINK_DROP; 08 R297; reset none -/ dropEvent : Option Nat
  /-- SETs that wait for the end of a frame exchange (opcode, payload); 08 R287; reset empty -/ deferred : List (Nat × List Byte)
  deriving DecidableEq, Repr

/-! ### Timing (chapter 09) -/

/-- A sync record (R303). -/
structure SyncRec where
  /-- 56 bits; R303; reset 0 -/ mtime : Nat
  /-- 1 bit; R303; reset 0 -/ valid : Bool
  /-- 1 bit; R303; reset 0 -/ driftValid : Bool
  /-- 32 bits signed; R303; reset 0 -/ toff : Int
  /-- 32 bits; R303; reset 0 -/ stepAt : Nat
  deriving DecidableEq, Repr

/-- The timing configuration (R322). -/
structure TimingCfg where
  /-- 24 bits, ms; R298; reset 0 -/ ownPeriod : Nat
  /-- 4 bits; R298; reset 0 -/ ownChseq : Nat
  /-- 32 bits; R298; reset 0 -/ ownOffset : Nat
  /-- 16 bits; R322; reset 150 -/ baseUs : Nat
  /-- 16 bits; R322; reset 100 -/ bound : Nat
  /-- 32 bits; R322; reset 50,000 -/ guardCapUs : Nat
  /-- 3 bits ROOT, KEEPALIVE, AUTOTRIM; R322; reset 0b110 -/ flags : BitVec 8
  /-- 8 bits; R322; reset 2 -/ resyncRepeat : Nat
  /-- 16 bits; R322; reset 100 -/ resyncDelayMs : Nat
  /-- 16 bits; R322; reset 500 -/ resyncListenMs : Nat
  /-- 16 bits; R322; reset 60 -/ resyncIntervalS : Nat
  /-- 32 bits; R322; reset DESIGN CHOICE 0, own ACTIVE slot (log 14) -/ resyncWakeHz : Nat
  /-- 32 bits signed; R309 R322; reset 0 -/ trimPpb : Int
  /-- YEAR, MONTH, DAY, HOUR, MINUTE, SECOND; R320; reset 2000-01-01 00:00:00 -/ epoch : List Nat
  deriving DecidableEq, Repr

/-- What a calendar event is for (R310). -/
inductive CalKind where
  | ownWindow (k : Nat)
  | transmit (flight : Nat)
  | keepalive (nbr : Nat)
  | resyncStep (nbr : Nat)
  | resyncListen
  deriving DecidableEq, Repr

/-- A calendar event (R310). -/
structure CalEv where
  /-- exact MTIME; R310 -/ at_ : Nat
  /-- R310 -/ kind : CalKind
  /-- true on the wheel, false on the overflow list; R310 -/ wheel : Bool
  deriving DecidableEq, Repr

/-- An own listen window that is open (R314). -/
structure OwnWindow where
  /-- c_k; R299 -/ ck : Nat
  /-- its frequency in tuning units; R299 -/ tune : Nat
  /-- guard in µs; R313 -/ guardUs : Nat
  /-- R315: a frame of the time source has fallen in it -/ kept : Bool
  deriving DecidableEq, Repr

/-- A resynchronisation attempt (R317). -/
structure Resync where
  /-- neighbour -/ nbr : Nat
  /-- pending slot of TIMING_RESYNC; none when the timing unit began it -/ slot : Option Nat
  /-- 1: the wake is due or being sent; 2: beacons; 0: waits for the next attempt -/ stage : Nat
  /-- beacons sent -/ beacons : Nat
  /-- MTIME at which its next step is due -/ due : Nat
  deriving DecidableEq, Repr

/-- The twelve counters of R328, 32 bits each, reset 0. -/
structure TimingStats where
  winOpened : Nat
  winKept : Nat
  winMissed : Nat
  winSkipped : Nat
  rdvKept : Nat
  rdvMissed : Nat
  rdvDeferred : Nat
  steps : Nat
  resyncStarted : Nat
  resyncOk : Nat
  resyncFailed : Nat
  lost : Nat
  deriving DecidableEq, Repr

structure Timing where
  /-- 09 R322; reset its defaults -/ cfg : TimingCfg
  /-- channel sequences 1 to 15, each 1 to 16 frequencies in Hz; 09 R299 R323; reset DESIGN CHOICE one home frequency each, 868,000,000 Hz (log 12) -/ chseq : Tab (List Nat)
  /-- sequences that were changed: number, old frequencies, first MTIME the new ones govern; 09 R323; reset empty -/ chseqOld : List (Nat × List Nat × Nat)
  /-- 16 bytes per neighbour; 09 R303; reset 0 -/ sync : Tab SyncRec
  /-- 64 bits signed; 09 R303 STEP_SUM; reset 0 -/ stepSum : Int
  /-- steps that wait for the end of the exchange, with their source (0xFFFF TIMING_MTIME_SET); 09 R308; reset empty -/ pendingStep : List (Int × Nat)
  /-- up to NEIGHBOURS + 16 overflow events and the wheel; 09 R310; reset empty -/ calendar : List CalEv
  /-- 09 R314; reset none -/ window : Option OwnWindow
  /-- first rendezvous number of the schedule in force not yet examined; 09 R311; reset 0 -/ nextK : Nat
  /-- 09 R317; reset empty -/ resync : List Resync
  /-- 09 R318: end MTIME and tuning of a resynchronisation listen; reset none -/ listen : Option (Nat × Nat)
  /-- 12 × 32 bits; 09 R328; reset 0 -/ stats : TimingStats
  deriving DecidableEq, Repr

/-! ### Tally (chapter 10) -/

/-- A band entry's configuration (R331, R344, R349). -/
structure BandCfg where
  /-- 1 bit; R331; reset 0 -/ enable : Nat
  /-- 1 bit; R331; reset 0 -/ lbt : Nat
  /-- 32 bits; R331; reset 410,000,000 (R333) -/ lower : Nat
  /-- 32 bits; R331; reset 410,000,000 (R333) -/ upper : Nat
  /-- 20 bits; R331; reset 1 (R333) -/ limitPpm : Nat
  /-- 20 bits; R331; reset 0 (R333) -/ reservePpm : Nat
  /-- 22 bits; R331; reset 0 (R333) -/ maxTxMs : Nat
  /-- 21 bits; R344; reset 200,000 (R333) -/ lbtBw : Nat
  /-- 16 bits signed; R344; reset −170 (R333) -/ lbtThreshold : Int
  /-- 16 bits; R344; reset 160 (R333) -/ lbtListenUs : Nat
  /-- 16 bits; R344; reset 0 (R333) -/ boMinMs : Nat
  /-- 16 bits; R344; reset 0 (R333) -/ boMaxMs : Nat
  /-- 4 bits; R344; reset 1 (R333) -/ lbtTries : Nat
  deriving DecidableEq, Repr

/-- One band entry. -/
structure Band where
  /-- R331; AON -/ cfg : BandCfg
  /-- 60 × 32 bits, by bucket index; R335 TOTAL; AON; reset 0 -/ total : List Nat
  /-- 60 × 32 bits; R335 ACK; AON; reset 0 -/ ack : List Nat
  /-- 32 bits; R352; reset 0 -/ refused : Nat
  /-- 32 bits; R352; reset 0 -/ ackDenied : Nat
  /-- 32 bits; R352; reset 0 -/ lbtBusy : Nat
  /-- 32 bits; R352; reset 0 -/ lbtGiveup : Nat
  deriving DecidableEq, Repr

/-- An accepted prediction not yet ended (R339). -/
structure Resv where
  /-- model's own number -/ id : Nat
  /-- band that accepted it -/ band : Nat
  /-- predicted µs; R338 -/ us : Nat
  /-- an acknowledgement -/ ack : Bool
  /-- bucket of its first symbol, once radiated; R339 -/ bucket : Option Nat
  deriving DecidableEq, Repr

structure Tally where
  /-- 16 entries; 10 R331; AON; reset R333 -/ band : List Band
  /-- 1 bit; 10 R333 OUTSIDE; AON; reset 0 -/ outside : Nat
  /-- 6 bits; 10 R335 current bucket; AON; reset 0 -/ cur : Nat
  /-- 21 bits; 10 R335: slow-clock periods into the current bucket; AON; reset 0 -/ clock : Nat
  /-- 10 R339; reset empty -/ resv : List Resv
  /-- model's own number of the next reservation; reset 0 -/ nextId : Nat
  /-- 1 bit; 10 R334: the working configuration has been rebuilt since the reset; reset false -/ ready : Bool
  /-- 32 bits; 10 R352; reset 0 -/ outsideRefused : Nat
  /-- 32 bits; 10 R352; reset 0 -/ outsideSent : Nat
  /-- 32 bits; 10 R352; reset 0 -/ cutShort : Nat
  /-- 16 bits; 10 R354 BANDS of the next TALLY_REFUSE; reset 0 -/ refBands : Nat
  /-- 8 bits; 10 R354 LAST_BAND; reset 0xFF -/ refLast : Nat
  /-- 32 bits; 10 R354 LAST_T_US; reset 0 -/ refUs : Nat
  /-- MTIME of the last TALLY_REFUSE; 10 R354; reset none -/ refEvent : Option Nat
  deriving DecidableEq, Repr

/-! ### Cell pool and queues (chapter 11) -/

/-- One queue (R360). -/
structure Queue where
  /-- 1 bit; R360; reset 0 -/ kind : Nat
  /-- 13 bits; R360; reset 512 -/ limit : Nat
  /-- 16 bits; R360; reset 100 -/ stall : Nat
  /-- packets, head first; R357; reset empty -/ packets : List Packet
  /-- 1 bit; R371 QM_STATUS.BROKEN; reset 0 -/ broken : Bool
  /-- 1 bit; R362 OVERRUN; reset 0 -/ overrun : Bool
  /-- 1 bit; R365 STALL_EXPIRED; reset 0 -/ stallExpired : Bool
  /-- 1 bit; R365 STALL_ABORTED; reset 0 -/ stallAborted : Bool
  /-- 1 bit; R365 STALL_INTR; reset 0 -/ stallIntr : Bool
  /-- 1 bit; R364 KIND_ERR; reset 0 -/ kindErr : Bool
  /-- 1 bit; R363 BADPUSH; reset 0 -/ badPush : Bool
  /-- 13 bits; R376 HIGH_WATER; reset 0 -/ highWater : Nat
  /-- landing buffer of the application core, WADDR and CAP; R364; reset unset -/ landApp : Option (Nat × Nat)
  /-- landing buffer of the host port; R364; reset unset -/ landHost : Option (Nat × Nat)
  deriving DecidableEq, Repr

/-- A master of the queue ports. -/
inductive Master where
  | app | host
  deriving DecidableEq, Repr

/-- A stalled POP read (R365). -/
structure Stall where
  /-- who is stalled -/ master : Master
  /-- on which queue -/ queue : Nat
  /-- MTIME of the start of the read -/ start : Nat
  /-- destination register of the application core's load (0 to 31); none for a read whose value no register takes -/ rd : Option Nat
  deriving DecidableEq, Repr

/-- The nine counters of R379, 32 bits each, reset 0. -/
structure QmStats where
  pushOk : Nat
  pushRefused : Nat
  pushBad : Nat
  popOk : Nat
  popEmpty : Nat
  popToobig : Nat
  ueDropped : Nat
  lostWake : Nat
  flushed : Nat
  deriving DecidableEq, Repr

structure Qm where
  /-- 512, 256 or 64 queues; 11 R360; reset its defaults -/ queue : Tab Queue
  /-- cells in use, rising; 11 R356 R359; reset empty -/ used : List Nat
  /-- 13 bits; 11 R375 RESERVE; reset 0 -/ reserve : Nat
  /-- 14 bits; 11 R378 FREE_MIN as the most cells in use since the last CLEAR; reset 0 -/ usedMax : Nat
  /-- 16 bits; 11 R369; reset 0 -/ ceCount : Nat
  /-- 16 bits; 11 R370; reset 0 -/ ueCount : Nat
  /-- 32 bits; 11 R378 LAST_ERR; reset 0xFFFFFFFF -/ lastErr : Nat
  /-- 32 bits; 11 R364 QM_POP RESULT of the application core's last read; reset 0x80000000 -/ resultApp : Nat
  /-- 32 bits; 11 R364 QM_POP RESULT of the host port's last read; reset 0x80000000 -/ resultHost : Nat
  /-- MTIME of the last QM_ECC event; 11 R370; reset none -/ eccEvent : Option Nat
  /-- stalled readers in the order their stalls began; 11 R365 R366; reset empty -/ stalls : List Stall
  /-- 9 × 32 bits; 11 R379; reset 0 -/ stats : QmStats
  deriving DecidableEq, Repr

/-! ### Scheduler and shapers (chapter 12) -/

/-- A flow's configuration (R384). -/
structure FlowCfg where
  /-- 1 bit; R384; reset 0 -/ enable : Nat
  /-- 1 bit; R384; reset 0 -/ strict : Nat
  /-- 16 bits; R384; reset 1 -/ weight : Nat
  /-- 16 bits; R384; reset 0xFFFF -/ queue : Nat
  /-- 8 bits; R384; reset 0xFF -/ shaper : Nat
  deriving DecidableEq, Repr

/-- One flow (R384 to R402). -/
structure Flow where
  /-- R384 -/ cfg : FlowCfg
  /-- 3 bits; R385; reset 2 DISABLED -/ block : Nat
  /-- 40 bits; R388 F_LAST; reset 0 -/ fLast : Nat
  /-- 40 bits; R389: f of the stamped head; reset none -/ stamp : Option Nat
  /-- MTIME on the wheel; R394; reset none -/ eligible : Option Nat
  /-- 3 bits; R402 REFUSE_REASON; reset 0 -/ refReason : Nat
  /-- 8 bits; R402 REFUSE_BAND; reset 0xFF -/ refBand : Nat
  /-- 32 bits; R402 REFUSE_T_US; reset 0 -/ refUs : Nat
  /-- 56 bits; R402 REFUSE_MTIME; reset 0 -/ refMtime : Nat
  /-- 32 bits; R402 RELEASED; reset 0 -/ released : Nat
  /-- 32 bits; R402 RELEASED_BYTES; reset 0 -/ releasedBytes : Nat
  deriving DecidableEq, Repr

/-- A shaper's configuration (R391). -/
structure ShaperCfg where
  /-- 1 bit; R391; reset 0 -/ enable : Nat
  /-- 16 bits; R391; reset 0 -/ rate : Nat
  /-- 20 bits; R391; reset 2,112 -/ burst : Nat
  deriving DecidableEq, Repr

/-- One shaper (R391 to R393). -/
structure Shaper where
  /-- in force; R391 -/ cfg : ShaperCfg
  /-- waits for its refill edge; R393; reset none -/ next : Option ShaperCfg
  /-- signed; R391 TOKENS; reset BURST (R399) -/ tokens : Int
  /-- 16 bits; R403 ACTIVE_RATE; reset 0 -/ activeRate : Nat
  deriving DecidableEq, Repr

/-- The ten counters of R405, 32 bits each, reset 0. -/
structure SchedStats where
  relOrigin : Nat
  relStrict : Nat
  relWfq : Nat
  relRdv : Nat
  holdShaper : Nat
  holdTally : Nat
  holdNever : Nat
  holdNbr : Nat
  refusedInflight : Nat
  vtClamp : Nat
  deriving DecidableEq, Repr

structure Sched where
  /-- 256 flows; 12 R384; reset its defaults -/ flow : Tab Flow
  /-- 128 shapers; 12 R391; reset its defaults -/ shaper : Tab Shaper
  /-- 40 bits; 12 R388 V; reset 0 -/ v : Nat
  /-- MTIME of the last refill edge; 12 R391 R404; reset 0 -/ lastRefill : Nat
  /-- 10 × 32 bits; 12 R405; reset 0 -/ stats : SchedStats
  /-- 16 bits; 12 R406 COUNT; reset 0 -/ blkCount : Nat
  /-- 16 bits; 12 R406 LAST_FLOW; reset 0 -/ blkFlow : Nat
  /-- 8 bits; 12 R406 LAST_BAND; reset 0xFF -/ blkBand : Nat
  /-- 3 bits; 12 R406 REFUSE_REASON; reset 0 -/ blkReason : Nat
  /-- MTIME of the last SCHED_BLOCKED; 12 R406; reset none -/ blkEvent : Option Nat
  deriving DecidableEq, Repr

/-! ### Cipher engine and key store (chapter 13) -/

/-- One key slot's working copy (R408, R409). -/
structure KeySlot where
  /-- 2 bits; R409 TYPE; reset 0 -/ type : Nat
  /-- 2 bits; R409 STATE (0 EMPTY, 1 ACTIVE, 2 SUSPENDED, 3 FUSED); reset 0 -/ state : Nat
  /-- 8 bits; R409 ORIGIN; reset 0 -/ origin : Nat
  /-- 8 bits; R409 R410 ALLOWED; reset 0 -/ allowed : BitVec 8
  /-- 8 bits; R409 R410 USAGE; reset 0 -/ usage : BitVec 8
  /-- up to 256 bits of key material; R408; reset empty -/ key : List Byte
  deriving DecidableEq, Repr

/-- One slot's backing record in flash (R413, R416, R418, R429, R430). -/
structure KeyRecord where
  /-- the slot as stored -/ slot : KeySlot
  /-- 32 bits; R418 FC_RESERVED -/ fcReserved : Nat
  /-- R430: no record of the slot passes its authentication -/ damaged : Bool
  deriving DecidableEq, Repr

/-- One slot's private counter file entry in AON (R417 to R419). -/
structure KeyCounter where
  /-- 32 bits; R417 FC; reset FC_RESERVED of the record -/ fc : Nat
  /-- 32 bits; R418 FC_RESERVED -/ fcReserved : Nat
  /-- 1 bit; R432 FLAGS.EXHAUSTED; reset 0 -/ exhausted : Bool
  /-- 1 bit; R419 R432: KEY_LOW raised; reset 0 -/ low : Bool
  /-- R418: a reservation write runs or is owed; reset false -/ writing : Bool
  /-- R418: CIPHER_FAULT raised since the last write that succeeded; reset false -/ faulted : Bool
  deriving DecidableEq, Repr

/-- The application operation in progress (R437, R439). -/
inductive CipherJob where
  /-- pending slot, the key its slot held when the operation began (R423), the request -/ | run (slot : Nat) (key : List Byte) (req : List Byte)
  | hash (slot : Nat) (flash : Bool) (addr len : Nat)
  | verify (slot : Nat) (req : List Byte)
  deriving DecidableEq, Repr

/-- The entropy source (R425, R440). -/
inductive SourceState where
  | running | restarting | fault
  deriving DecidableEq, Repr

/-- The ten counters of R440, 32 bits each, reset 0. -/
structure CipherStats where
  secured : Nat
  checked : Nat
  unwrapFail : Nat
  appOps : Nat
  appTagFail : Nat
  sigInvalid : Nat
  healthFail : Nat
  reseeds : Nat
  haltDrop : Nat
  reserveWrites : Nat
  deriving DecidableEq, Repr

structure Cipher where
  /-- 64 slots; 13 R408; reset loaded from the records -/ slot : Tab KeySlot
  /-- 64 counters; 13 R417; AON; reset FC_RESERVED -/ ctr : Tab KeyCounter
  /-- key store backing region of flash; 13 R413 R430; reset the production keys of slots 0 to 2, DESIGN CHOICE 0 material (log 18) -/ backing : Tab KeyRecord
  /-- 1 bit; 13 R427 R440 ENGINE; reset RUN -/ halt : Bool
  /-- 2 bits; 13 R425; reset running -/ source : SourceState
  /-- consecutive failed restarts; 13 R425; reset 0 -/ restarts : Nat
  /-- 32 bits; 13 R426 R427: mask DRBG requests since its last reseed; reset 0 -/ maskReq : Nat
  /-- 32 bits; 13 R426 R427: general DRBG requests since its last reseed; reset 0 -/ genReq : Nat
  /-- 56 bits; 13 R440 RESEED_MTIME; reset 0 -/ reseedAt : Nat
  /-- 13 R437 R439; reset none -/ job : Option CipherJob
  /-- 10 × 32 bits; 13 R440; reset 0 -/ stats : CipherStats
  deriving DecidableEq, Repr

/-! ### Power (chapter 14) -/

/-- The power settings of R470. -/
structure PwrCfg where
  /-- 4 bits; R470; reset 0 -/ netRetain : Nat
  /-- 6 bits; R470; reset 0 -/ nbrRetain : Nat
  /-- 8 bits; R470; reset 0 -/ poolRetain : Nat
  /-- 3 bits; R470; reset 5 -/ shelfExit : Nat
  /-- 3 bits; R448 R470; reset 1 -/ shelfWake : BitVec 3
  /-- 1 bit; R470; reset 1 -/ shelfRtc : Nat
  /-- 1 bit; R470 MATCH_TO_LEAF; reset 0 -/ watchFlags : Nat
  /-- 16 bits; R445 R470; reset 2,000 -/ drainMs : Nat
  /-- 10 bits; R453 R470; reset 0x0BF -/ hostWake : BitVec 10
  deriving DecidableEq, Repr

/-- Who started a sleep entry (R452, R453, R455). -/
inductive SleepWho where
  | app | host | net
  deriving DecidableEq, Repr

/-- Where the power controller stands (R450, R456, R458). -/
inductive PwrPhase where
  /-- RUN or DOZE: no entry in progress -/ | awake
  /-- preparation of R456 running, the entry not yet committed -/ | preparing
  /-- committed under R457, the state not yet reached -/ | committed
  /-- NAP or HIBERNATE reached -/ | asleep
  deriving DecidableEq, Repr

structure Pwr where
  /-- 3 bits; 14 R444 PWR_MODE.MODE; AON; reset SERVICE (start-up with the default START_MODE 5) -/ mode : Mode
  /-- 14 R444 R446 NEXT_MODE; AON; reset not set -/ nextMode : Option Mode
  /-- 14 R445 PWR_MODE.DRAINING and the change that drains; reset none -/ drain : Option ModeDrain
  /-- 14 R445: a change into or out of SERVICE waits for its reset; reset false -/ changing : Bool
  /-- 6 bits; 14 PWR_MODE.ALLOWED, 02 R70; reset from the option area (0x3F) -/ allowed : BitVec 6
  /-- 14 R470; AON; reset its defaults -/ cfg : PwrCfg
  /-- 14 R456 R458; reset awake -/ phase : PwrPhase
  /-- 2 bits; depth of the entry in progress or of the state entered; 14 R456; reset NONE -/ seeking : Depth
  /-- who started the entry; 14 R455; reset network core -/ who : SleepWho
  /-- an application-side request (R459 R460 KIND); 14; reset false -/ counted : Bool
  /-- 2 bits; 14 PWR_SLEEP.DEPTH; reset 0 -/ sleepDepth : Depth
  /-- 2 bits; 14 PWR_STAT.APP_DEPTH R451; reset NONE -/ appDepth : Depth
  /-- 2 bits; 14 PWR_STAT.HOST_DEPTH R453; reset NONE -/ hostDepth : Depth
  /-- 14 R453: depth asked by PWR_SLEEP of the host, waiting for the acknowledgement on this channel; reset none -/ hostWait : Option (Nat × Depth)
  /-- 2 bits; 14 PWR_STAT.RESULT; reset 0 -/ result : Nat
  /-- 2 bits; 14 PWR_STAT.RESULT_DEPTH; reset 0 -/ resultDepth : Depth
  /-- 1 bit; 14 PWR_STAT.HOSTPART; reset from the option area (0) -/ hostPart : Bool
  /-- 10 bits; 14 R461 PWR_WAKEEN; AON; reset 0x001 -/ wakeEn : BitVec 10
  /-- 14 R448: PWR_WAKEEN saved at a SHELF entry; reset none -/ wakeEnSaved : Option (BitVec 10)
  /-- 10 bits; 14 R461 PWR_WAKELATCH; AON; reset 0 -/ latch : BitVec 10
  /-- 10 bits; 14 PWR_WAKEAPP; AON; reset 0x0BF -/ wakeApp : BitVec 10
  /-- 8 bits; 14 PWR_RETAIN.APP; AON; reset 0 -/ retainApp : BitVec 8
  /-- 4 bits; 14 R463 PWR_RETAIN.NET: the selection with the firmware's additions; AON; reset 0 -/ retainNet : BitVec 4
  /-- 56 bits; 14 R462 PWR_WAKEAT; AON; reset 0 -/ wakeAt : Nat
  /-- 24 bits; 14 R462 PWR_WAKEAT_HI as last written; AON; reset 0 -/ wakeAtHi : Nat
  /-- 1 bit; 14 R462 PWR_WAKEAT_HI.ARMED; AON; reset 0 -/ armed : Bool
  /-- 14 R460: MTIME and RTC seconds at the first wake latch since the commit; reset none -/ latchAt : Option (Nat × Nat)
  /-- 56 bits; 14 R461 the network core's MTIME compare; reset none -/ netTimer : Option Nat
  /-- 16 bits; 14 R459 PWR_ACCT.REFUSE; AON; reset 0 -/ refuse : Nat
  /-- 16 bits; 14 R459 PWR_ACCT.ABORT; AON; reset 0 -/ abort : Nat
  /-- 8 bits; 14 PWR_REFUSER.ID; AON; reset 0 -/ refId : Nat
  /-- 2 bits; 14 PWR_REFUSER.DEPTH; AON; reset 0 -/ refDepth : Depth
  /-- 1 bit; 14 PWR_REFUSER.ABORTED; AON; reset 0 -/ refAborted : Bool
  /-- 1 bit; 14 PWR_REFUSER.HOST; AON; reset 0 -/ refHost : Bool
  /-- 8 bits; 14 R460 PWR_LW.SOURCE; AON; reset 0 -/ lwSource : Nat
  /-- 2 bits; 14 R460 PWR_LW.DEPTH; AON; reset 0 -/ lwDepth : Nat
  /-- 2 bits; 14 R460 PWR_LW.KIND; AON; reset 0 -/ lwKind : Nat
  /-- 56 bits; 14 R460 PWR_LW_MTIME; AON; reset 0 -/ lwMtime : Nat
  /-- 32 bits; 14 R460 PWR_LW_RTC; AON; reset 0xFFFFFFFF -/ lwRtc : Nat
  deriving DecidableEq, Repr

/-- The PADS configuration registers that are shadowed while the latch holds (R465, R468). -/
structure PadRegs where
  /-- 20 bits; R468 PADS_DIR; reset 0 -/ dir : BitVec 20
  /-- 20 bits; R468 PADS_OUT; reset 0 -/ out : BitVec 20
  /-- 40 bits; R468 PADS_PULL0, PADS_PULL1; reset 0 -/ pull : BitVec 40
  /-- 40 bits; R468 PADS_FUNC0, PADS_FUNC1; reset 0 -/ func : BitVec 40
  deriving DecidableEq, Repr

structure Pads where
  /-- what the pads follow; 14 R465 R468; AON; reset 0 -/ live : PadRegs
  /-- the shadow, and whether LATCHED is 1; 14 R465; AON; reset LATCHED 0 -/ shadow : Option PadRegs
  /-- 20 bits; 14 R468 PADS_WAKEEN; AON; reset 0 -/ wakeEn : BitVec 20
  /-- 20 bits; 14 R468 PADS_WAKEPOL; AON; reset 0 -/ wakePol : BitVec 20
  /-- 20 bits; 14 R468 PADS_WAKEFLAG; AON; reset 0 -/ wakeFlag : BitVec 20
  /-- 20 bits; levels driven from outside on the pins, 14 R468 PADS_IN; reset DESIGN CHOICE 0 (log 10) -/ level : BitVec 20
  /-- 20 bits; pins that something outside drives (R646); reset DESIGN CHOICE 0 (log 10) -/ driven : BitVec 20
  deriving DecidableEq, Repr

/-! ### Resets, start-up and options (chapter 15) -/

/-- Reset kinds of R473, in the code order of R479. -/
inductive ResetKind where
  | por | bor | pin | wdt | nwdt | sys | core | wake | ldr
  deriving DecidableEq, Repr

/-- Where start-up stands (R480). -/
inductive Stage where
  /-- a reset is asserted, or VBAT lies between the thresholds of R481 -/ | held
  /-- step 3: the reference is starting -/ | reference
  /-- step 3: PLL0 is locking -/ | pll
  /-- steps 4 to 6 done, the application core not yet released by step 7 -/ | ready
  /-- start-up has ended -/ | up
  /-- R533: the loader serves the mailboxes in SERVICE -/ | loader
  deriving DecidableEq, Repr

/-- One 4 KiB option block, bytes not listed being 0 (R484). -/
structure OptBlock where
  /-- 4,092 bytes 0x000 to 0xFFB -/ bytes : Tab Byte
  /-- the CRC bytes match (R485) -/ crcOk : Bool
  deriving DecidableEq, Repr

structure Boot where
  /-- 15 R480; reset step 3, the reference starting -/ stage : Stage
  /-- 15 R473: kind of the start-up in progress or last run; reset POR -/ kind : ResetKind
  /-- 4 bits; 15 SYSCTL_RSTCAUSE.APP; reset 1 (POR) -/ causeApp : Nat
  /-- 4 bits; 15 SYSCTL_RSTCAUSE.NET; reset 1 (POR) -/ causeNet : Nat
  /-- 1 bit; 15 R477 SYSCTL_RSTCAUSE.SIMUL; reset 0 -/ simul : Bool
  /-- 9 bits; 15 R479 SYSCTL_RSTCAUSE.HIST; AON; reset 0x001 -/ hist : BitVec 9
  /-- 2 bits; 15 SYSCTL_BOOTSTAT.OPTCOPY; reset 1 (from option load) -/ optCopy : Nat
  /-- 1 bit; 15 SYSCTL_BOOTSTAT.REPAIRED; reset 0 -/ repaired : Bool
  /-- 1 bit; 15 SYSCTL_BOOTSTAT.MERGED; reset 0 -/ merged : Bool
  /-- 1 bit; 15 SYSCTL_BOOTSTAT.IMGFULL; reset 0 -/ imgFull : Bool
  /-- 1 bit; 15 SYSCTL_BOOTSTAT.MIGRATED; reset 0 -/ migrated : Bool
  /-- 1 bit; 15 SYSCTL_BOOTSTAT.SETDEF; reset 0 -/ setDef : Bool
  /-- 1 bit; 15 SYSCTL_BOOTSTAT.FORCED; reset 0 -/ forced : Bool
  /-- 15 R474: BOR asserted; reset false -/ bor : Bool
  /-- 15 R475: NRST is low; reset false -/ nrst : Bool
  /-- 15 R474: held in backup retention; reset false -/ backup : Bool
  /-- 15 R474: AON state is lost; reset false -/ aonLost : Bool
  /-- 23 R670: VIO is present; reset DESIGN CHOICE true (log 10) -/ vio : Bool
  /-- 15 R476: the application core restarts 10 µs after a CORE cause; reset false -/ coreRestart : Bool
  /-- 15 R476: the application core has been released since the last start-up; reset false -/ released : Bool
  /-- 17 R536: the LDR reset is marked as activation; reset false -/ activation : Bool
  /-- 02 R68, 14 R444: the reset due 50 µs after a command; reset none -/ delayed : Option DelayedReset
  /-- 4 KiB; 15 R486: the option block in force; reset the Default column of R484, MAGIC and FORMAT set (signers, log 19) -/ opt : OptBlock
  /-- 4 KiB; 15 R484: option copy 1 in flash; reset the production block -/ copy1 : OptBlock
  /-- 4 KiB; 15 R484: option copy 2 in flash; reset the production block -/ copy2 : OptBlock
  /-- 4 KiB; 02 R73: the base block left by the last OPTION_WRITE or MODE_LOCK; reset none -/ optBase : Option OptBlock
  /-- 2 bits; 02 R71: debug open (0 closed, 1 application core, 2 both); reset 0 -/ debug : Nat
  deriving DecidableEq, Repr

/-! ### Flash (chapter 16) -/

/-- Whose program or erase it is (R496, R503, R508 ORIGIN). -/
inductive FMaster where
  | app | net | loader | cipher
  deriving DecidableEq, Repr

/-- A program or erase accepted by the controller (R503, R504). -/
structure FOp where
  /-- who gave it -/ master : FMaster
  /-- true for an erase -/ erase : Bool
  /-- array offset: of the data, or of the block -/ addr : Nat
  /-- bytes to program, 16 to 256; for FLASHC the source is read when the program starts (R504) -/ data : List Byte
  /-- FLASHC only: word index in shared RAM and length, R512 FLASHC_SRC -/ src : Option (Nat × Nat)
  /-- bytes programmed so far (R501: a read is served between units) -/ done : Nat
  deriving DecidableEq, Repr

/-- What a plane is doing (R501). -/
inductive Plane where
  | idle
  | programming (op : FOp)
  | erasing (op : FOp) (resumed : Nat)
  | suspended (op : FOp)
  deriving DecidableEq, Repr

/-- An entry of the erase journal with its completion mark (R508). -/
structure JEntry where
  /-- 32 bits; R508 -/ seq : Nat
  /-- 16 bits; R508 -/ block : Nat
  /-- 24 bits; R508 -/ ecnt : Nat
  /-- 8 bits; R508 ORIGIN with bit 7 carried -/ origin : Nat
  /-- R508: its mark is present -/ mark : Bool
  deriving DecidableEq, Repr

/-- A mailbox FLASH_PROGRAM or FLASH_ERASE in progress (R515). -/
structure FJob where
  /-- its pending slot -/ slot : Nat
  /-- true for FLASH_ERASE -/ erase : Bool
  /-- R515 VERIFY -/ verify : Bool
  /-- array offset, or first block -/ addr : Nat
  /-- blocks in all -/ count : Nat
  /-- blocks erased so far -/ done : Nat
  /-- FLASH_PROGRAM DATA -/ data : List Byte
  deriving DecidableEq, Repr

structure Flash where
  /-- 64 or 16 MiB; 16 R493: bytes programmed, unlisted bytes being erased (0xFF); reset as at manufacture, DESIGN CHOICE erased (log 20) -/ array : Tab Byte
  /-- program units (offset / 16) not erased; 16 R494; reset none -/ written : Tab Bool
  /-- 24 bits per block; 16 R507 erase counters; reset 0 -/ ecnt : Tab Nat
  /-- ERASE_INCOMPLETE blocks; 16 R510; reset empty -/ incomplete : List Nat
  /-- units holding a single-bit (1) or double-bit (2) error; 16 R499, the array's own state; reset none -/ ecc : Tab Nat
  /-- active journal block, false A; 16 R508; reset A -/ jActive : Bool
  /-- slots used in the active journal block, oldest first; 16 R508; reset empty -/ journal : List JEntry
  /-- 32 bits; 16 R508 SEQ of the newest entry; reset 0 -/ jSeq : Nat
  /-- 16 R501; reset idle -/ p0 : Plane
  /-- 16 R501; reset idle -/ p1 : Plane
  /-- accepted commands that wait for their plane, oldest first; 16 R504; reset empty -/ waiting : List FOp
  /-- 1 bit; 16 FLASHC_CTL.AUTOSUS; reset 1 -/ autosus : Bool
  /-- 1 bit; 16 FLASHC_CTL.ERRFAULT; reset 0 -/ errfault : Bool
  /-- 1 bit; 16 FLASHC_CTL.IEN; reset 0 -/ ien : Bool
  /-- 26 bits; 16 FLASHC_ADDR; reset 0 -/ addr : Nat
  /-- 13 bits; 16 FLASHC_SRC.WADDR; reset 0 -/ waddr : Nat
  /-- 9 bits; 16 FLASHC_SRC.LEN; reset 0 -/ len : Nat
  /-- 1 bit; 16 FLASHC_STAT.BUSY; reset 0 -/ busy : Bool
  /-- 1 bit; 16 FLASHC_STAT.DONE; reset 0 -/ done : Bool
  /-- 4 bits; 16 FLASHC_STAT.ERR; reset 0 -/ err : Nat
  /-- 16 bits; 16 FLASHC_ECCCNT.CE; reset 0 -/ ce : Nat
  /-- 16 bits; 16 FLASHC_ECCCNT.UE; reset 0 -/ ue : Nat
  /-- 26 bits; 16 FLASHC_ECCADDR.ADDR; reset 0x3FFFFFF -/ eccAddr : Nat
  /-- 3 bits CE, UE, UNREL; 16 FLASHC_ECCADDR; reset 0 -/ eccKind : BitVec 3
  /-- MTIME of the last FLASH_ECC event; 16 R499; reset none -/ eccEvent : Option Nat
  /-- 2 bits; 16 FLASHC_RDSTAT.LAST; reset 0 -/ rdLast : Nat
  /-- 1 bit; 16 FLASHC_RDSTAT.STKUE; reset 0 -/ stkUe : Bool
  /-- 1 bit; 16 FLASHC_RDSTAT.STKUNREL; reset 0 -/ stkUnrel : Bool
  /-- 14 bits; 16 FLASHC_BSEL; reset 0 -/ bsel : Nat
  /-- 24 bits; 16 FLASHC_BSTAT.ECNT; reset 0 -/ bstatEcnt : Nat
  /-- 3 bits; 16 FLASHC_BSTAT.STATE; reset 0 -/ bstatState : Nat
  /-- 1 bit; 16 FLASHC_BSTAT.READY; reset 0 -/ bstatReady : Bool
  /-- 16 R512: a query is running; reset false -/ query : Bool
  /-- 1 bit; 16 R498 FLASHC_LOCK.LOCKAPP; reset 0 -/ lockApp : Bool
  /-- blocks whose FLASH_WEAR has been raised; 16 R507; reset empty -/ worn : List Nat
  /-- 16 R515; reset empty -/ jobs : List FJob
  /-- 32 bits; 16 R518; reset 0 -/ programs : Nat
  /-- 32 bits; 16 R518; reset 0 -/ programBytes : Nat
  /-- 32 bits; 16 R518; reset 0 -/ erases : Nat
  /-- 32 bits; 16 R518; reset 0 -/ suspends : Nat
  /-- 32 bits; 16 R518; reset 0 -/ refused : Nat
  /-- 32 bits; 16 R518; reset 0 -/ unrelReads : Nat
  /-- 32 bits; 16 R518; reset 0 -/ rotations : Nat
  deriving DecidableEq, Repr

/-! ### Settings blocks and firmware update (chapter 17) -/

/-- The working configuration as a settings block holds it (R538: the body's layout is the firmware's own). -/
structure Settings where
  radio : RadioCfg
  lanes : List LaneCfg
  profiles : List Profile
  canary : CanaryCfg
  link : LinkCfg
  nbrs : Tab Nbr
  routes : Tab Route
  parent : Route
  timing : TimingCfg
  chseq : Tab (List Nat)
  bands : List BandCfg
  outside : Nat
  queues : Tab (Nat × Nat × Nat)
  reserve : Nat
  flows : Tab FlowCfg
  shapers : Tab ShaperCfg
  pwr : PwrCfg
  deriving DecidableEq, Repr

/-- One settings block (R538). -/
structure SettingsBlock where
  /-- 32 bits; R538 -/ gen : Nat
  /-- 16 bits; R538 -/ format : Nat
  /-- R538 -/ body : Settings
  deriving DecidableEq, Repr

/-- An image header's fields the device keeps using (R520). -/
structure ImgHead where
  /-- 8 bits; R520 -/ type : Nat
  /-- 32 bits; R520 -/ version : Nat
  /-- 16 bits; R520 -/ settingsFormat : Nat
  /-- 32 bytes: SHA-256 of SIGNER_PUB; R522 -/ signer : List Byte
  /-- 256 bytes of the header as it stands; R521 R529 -/ bytes : List Byte
  deriving DecidableEq, Repr

/-- Staging states, R524. -/
inductive StageState where
  | empty | receiving | verified | committed | scheduled | installing | invalid
  deriving DecidableEq, Repr

/-- A PENDING update command in progress (R542). -/
inductive UpdJob where
  | begin (slot : Nat)
  | check (slot : Nat)
  deriving DecidableEq, Repr

structure Upd where
  /-- 3 bits; 17 R524; non-volatile; reset EMPTY -/ state : StageState
  /-- 17 R525; non-volatile; reset none -/ owner : Option Requester
  /-- 32 bits; 17 R542 SIZE; reset 0 -/ size : Nat
  /-- 16-byte units of the file programmed; 17 R526 R542; reset none -/ units : Tab Bool
  /-- header of the staged file once verified; 17 R520 R544; reset none -/ head : Option ImgHead
  /-- 64 bits, YEAR MONTH DAY HOUR MINUTE SECOND; 17 R543 WHEN; reset none -/ whenAt : Option (List Nat)
  /-- 8 bits; 17 R543 RETURN_MODE; reset 0xFF -/ returnMode : Nat
  /-- 8 bits; 17 R544 LAST_RESULT; reset 0 -/ lastResult : Nat
  /-- source of the installation in progress: true an SD card; 17 R530; reset false -/ fromCard : Bool
  /-- IMAGE_TYPE whose region is incomplete; 17 R533; reset none -/ broken : Option Nat
  /-- 17 R542; reset none -/ job : Option UpdJob
  /-- header of the installed network firmware; 17 R482 R521; reset the production image (log 6) -/ netfw : Option ImgHead
  /-- 17 R544 SD; reset none -/ card : SdCard
  /-- settings area A; 17 R538; reset none -/ setA : Option SettingsBlock
  /-- settings area B; 17 R538; reset none -/ setB : Option SettingsBlock
  /-- UPDATE_STATUS events due after SYS_READY (STATUS, LAST_RESULT, STATE, VERSION); 17 R545; reset empty -/ due : List (Nat × Nat × Nat × Nat)
  deriving DecidableEq, Repr

/-! ### Calendar clock (chapter 18) -/

/-- The eight counters of R549, in the bit order of RTC_SET. -/
structure RtcTime where
  /-- 15 bits; R561 RTC_SUBSEC; reset 0 -/ subsec : Nat
  /-- 6 bits; R561 RTC_SEC; reset 0 -/ sec : Nat
  /-- 6 bits; R561 RTC_MIN; reset 0 -/ min : Nat
  /-- 5 bits; R561 RTC_HOUR; reset 0 -/ hour : Nat
  /-- 3 bits; R561 RTC_WDAY; reset 0 -/ wday : Nat
  /-- 5 bits; R561 RTC_DAY; reset 1 -/ day : Nat
  /-- 4 bits; R561 RTC_MON; reset 1 -/ mon : Nat
  /-- 12 bits; R561 RTC_YEAR; reset 2000 -/ year : Nat
  deriving DecidableEq, Repr

/-- One core's own view of the RTC (R554, R556). -/
structure RtcCore where
  /-- freeze shadow; R554; reset the reset time -/ shadow : RtcTime
  /-- 1 bit; R561 RTC_STAT.FRZ; reset 0 -/ frz : Bool
  /-- 1 bit; R561 RTC_STAT.STALE; reset 0 -/ stale : Bool
  /-- slow-clock ticks since the capture; R554; reset 0 -/ age : Nat
  /-- staging fields; R556; reset the reset time -/ stage : RtcTime
  /-- 8 bits; FIELDS of the commit pending, 0 when WPEND is 0; R556; reset 0 -/ fields : BitVec 8
  /-- 1 bit; R561 RTC_STAT.WERR; reset 0 -/ werr : Bool
  /-- 1 bit; R561 RTC_STAT.WLOST; reset 0 -/ wlost : Bool
  deriving DecidableEq, Repr

/-- One alarm (R559, R561). -/
structure Alarm where
  /-- SEC, MIN, HOUR, DAY, MON, YEAR; R561; reset 0 -/ vals : List Nat
  /-- 6 bits SEC, MIN, HOUR, DAY, MON, YEAR; R561 MASK_T, MASK_D; reset 0 -/ mask : BitVec 6
  /-- 1 bit; R561 EN; reset 0 -/ en : Bool
  deriving DecidableEq, Repr

structure Rtc where
  /-- 18 R549; AON; reset 2000-01-01 00:00:00 -/ now : RtcTime
  /-- 18 R554 R556; application core; reset 0 -/ app : RtcCore
  /-- 18 R554 R556; network core; reset 0 -/ net : RtcCore
  /-- 1 bit; 18 R552 OSF; AON; reset 1 -/ osf : Bool
  /-- 1 bit; 18 R551 OVF; AON; reset 0 -/ ovf : Bool
  /-- 1 bit; 18 R547 BKSW; AON; reset 0 -/ bksw : Bool
  /-- 2 bits; 18 R559 ALF; AON; reset 0 -/ alf : BitVec 2
  /-- 1 bit and the time; 18 R560 ACT: the activation match armed (YEAR MONTH DAY HOUR MINUTE SECOND); AON; reset none -/ act : Option (List Nat)
  /-- 1 bit; 18 R548 ACTHELD; AON; reset 0 -/ actHeld : Bool
  /-- 1 bit; 18 R553 RUN; AON; reset 0 -/ run : Bool
  /-- 32 bits; 18 R547 RTC_BKSTAMP; AON; reset 0xFFFFFFFF -/ bkstamp : Nat
  /-- 18 R561; AON; reset 0 -/ alm0 : Alarm
  /-- 18 R561; AON; reset 0 -/ alm1 : Alarm
  /-- events due once the network core runs: RTC_ALERT reasons and RTC_ALARMs with their SECONDS; 18 R568; reset RTC_ALERT 1 (OSF of POR) -/ due : List (Bool × Nat × Nat)
  /-- 18 R552: RTC_ALERT 1 has been raised since OSF was last cleared; reset true -/ osfTold : Bool
  deriving DecidableEq, Repr

/-! ### Commissioning port (chapter 19) -/

/-- Field-side states, R572. -/
inductive FState where
  | off | idle | ready1 | ready2 | active | protocol | halt
  deriving DecidableEq, Repr

/-- What is selected in the session (R576, R580). -/
inductive PSel where
  | none | ndef (file : Nat) | commissioning
  deriving DecidableEq, Repr

/-- One password slot (R586). -/
structure PwSlot where
  /-- 128 bits; R586; reset all zero (UNSET) -/ pw : List Byte
  /-- 4 bits; R586 LIMIT; reset 5 -/ limit : Nat
  /-- 4 bits; R586 REMAINING; reset 5 -/ remaining : Nat
  deriving DecidableEq, Repr

/-- Who holds the port memory lock (R591). -/
inductive Lock where
  | free | app | net | field
  deriving DecidableEq, Repr

/-- A journaled block write (R578). -/
structure PJournal where
  /-- 8 bits -/ block : Nat
  /-- 32 bytes -/ bytes : List Byte
  /-- stage 1 complete -/ complete : Bool
  deriving DecidableEq, Repr

/-- A PORT_MEM_WRITE or other writing command that waits for the lock or runs (R593, R595). -/
structure PortJob where
  /-- its pending slot -/ slot : Nat
  /-- first block -/ block : Nat
  /-- blocks still to write -/ blocks : List (List Byte)
  /-- R595 WRITTEN -/ written : Nat
  deriving DecidableEq, Repr

structure Port where
  /-- 3 bits; 19 R572; reset OFF -/ fstate : FState
  /-- 19 R572: it last left HALT through WUPA; reset false -/ fromHalt : Bool
  /-- 1 bit; 19 R592 FIELD; reset 0 -/ field : Bool
  /-- 56 bits as 7 bytes; 19 R571 UID; fixed; reset 0x6D then DESIGN CHOICE 0 (log 6) -/ uid : List Byte
  /-- 19 R574: rate reader to port, 106 or 212; reset 106 -/ rateIn : Nat
  /-- 19 R574: rate port to reader; reset 106 -/ rateOut : Nat
  /-- 16 to 256; 19 R569 FSD of RATS; reset 256 -/ fsd : Nat
  /-- 4 bits; 19 R569 CID; reset 0 -/ cid : Nat
  /-- last answer sent on the field; 19; reset empty -/ answer : List Byte
  /-- 19 R580; reset none -/ sel : PSel
  /-- 2 bits; 19 R580 R584: the slot the session is authenticated under; reset none -/ auth : Option Nat
  /-- 19 R569: command chained so far; reset empty -/ chainIn : List Byte
  /-- 19 R569: what is left of a chained response; reset empty -/ chainOut : List Byte
  /-- 19 R575: an APDU waits for the lock or its response, with the extensions sent; reset none -/ wait : Option (List Byte × Nat)
  /-- 6 bits; 19 R575: WTXM in use for the extension running; reset 0 -/ wtxm : Nat
  /-- 19 R590: the response of a MAILBOX command, once the firmware has given it; reset none -/ mbxResp : Option (List Byte)
  /-- 19 R590: a MAILBOX message waits to be served by the firmware; reset none -/ mbxReq : Option (List Byte)
  /-- 7,936 bytes of blocks 8 to 255 by address; 19 R577; non-volatile; reset 0 -/ mem : Tab Byte
  /-- 19 R578; non-volatile; reset none -/ journal : Option PJournal
  /-- 4 slots; 19 R586; non-volatile; reset UNSET -/ pw : List PwSlot
  /-- 1 bit; 19 R594 PORT_GRANT; non-volatile; reset 1 -/ grantCfg : Nat
  /-- 6 bits; 19 R594 PORT_WTXM; non-volatile; reset 10 -/ wtxmCfg : Nat
  /-- 2 bits; 19 R594 FLAGS; non-volatile; reset 0 -/ flags : BitVec 2
  /-- 24 bytes; 19 R576: the identity payload as last written; reset its value for the reset identity -/ identity : List Byte
  /-- 19 R591; reset free -/ lock : Lock
  /-- 19 R591: PRIO pending; reset false -/ prio : Bool
  /-- 1 bit; 19 R592 PORTW_GRANT.APP; reset 0 -/ grant : Bool
  /-- 8 bits; 19 R592 PORTW_BLOCK; reset 0 -/ block : Nat
  /-- 19 R592 PORTW_STAT.BUSY: the operation that runs (true a write); reset none -/ cmd : Option Bool
  /-- 1 bit; 19 R592 DONE; reset 0 -/ done : Bool
  /-- 3 bits; 19 R592 ERR; reset 0 -/ err : Nat
  /-- 1 bit; 19 R592 FIELDEVT; reset 0 -/ fieldEvt : Bool
  /-- 1 bit; 19 R592 LOCKEVT; reset 0 -/ lockEvt : Bool
  /-- 3 bits; 19 R592 PORTW_IEN; reset 0 -/ ien : BitVec 3
  /-- 8 × 32 bits; 19 R592 PORTW_BUF; reset 0 -/ buf : List Nat
  /-- 32 bits; 19 R598 SESSIONS; reset 0 -/ sessions : Nat
  /-- 32 bits; 19 R598 BLOCK_WRITES; reset 0 -/ blockWrites : Nat
  /-- 32 bits; 19 R598 VERIFY_FAIL; reset 0 -/ verifyFail : Nat
  /-- 32 bits; 19 R598 WTX_SENT; reset 0 -/ wtxSent : Nat
  /-- 32 bits; 19 R598 WTX_GIVEUP; reset 0 -/ wtxGiveup : Nat
  /-- 32 bits; 19 R598 TEARS; reset 0 -/ tears : Nat
  /-- slots whose PORT_PW_LOCKED is due; 19 R587; reset empty -/ lockedDue : List Nat
  /-- 19 R595; reset none -/ job : Option PortJob
  deriving DecidableEq, Repr

/-! ### The application core (chapters 20 and 21) -/

/-- What the application core is doing (R452, R476, R619, R621, R625). -/
inductive RunState where
  /-- held in reset -/ | held
  /-- in the boot ROM, before the hand-over of R626 -/ | rom
  | running
  /-- wait: its clock is gated until an enabled source pends -/ | waiting
  /-- stalled in a write of PWR_SLEEP -/ | stalledSleep
  /-- stalled in a POP read -/ | stalledPop
  /-- halted by the debugger -/ | halted
  deriving DecidableEq, Repr

/-- An entry of the hardware return stack (R614): the return address and, for an entry of exception kind, ST. -/
structure HwEntry where
  ret : BitVec 32
  st : Option (BitVec 32)
  deriving DecidableEq, Repr

/-- An MPU region (R603, R606). -/
structure MpuRegion where
  /-- 1 bit; R603 EN; reset 0 -/ en : Bool
  /-- 5 bits; R603 SIZE; reset 0 -/ size : Nat
  /-- 24 bits; R603 BASE; reset 0 -/ base : BitVec 24
  /-- 6 bits; R603 PERM; reset 0 -/ perm : BitVec 6
  deriving DecidableEq, Repr

structure Core where
  /-- 20 R625 R621; reset held -/ run : RunState
  /-- 15 × 32 bits u0 to u14; 20 R601; reset 0 -/ u : List (BitVec 32)
  /-- 32 bits; 20 R601 PC; reset 0 -/ pc : BitVec 32
  /-- 32 bits; 20 R603 SPT; reset 0 -/ spt : BitVec 32
  /-- 32 bits; 20 R603 SPM; reset 0 -/ spm : BitVec 32
  /-- 1 bit; 20 R603 ST.IE; reset 0 -/ ie : Bool
  /-- 1 bit; 20 R603 ST.MACH; reset 1 -/ mach : Bool
  /-- 1 bit; 20 R603 ST.SPLIT; reset 1 -/ split : Bool
  /-- 1 bit; 20 R603 ST.RACT; reset 0 -/ ract : Bool
  /-- 1 bit; 20 R603 ST.RUNI; reset 0 -/ runi : Bool
  /-- 4 bits; 20 R603 ST.ILVL; reset 0 -/ ilvl : BitVec 4
  /-- 9 bits; 20 R603 RPC; reset 0 -/ rpc : Nat
  /-- 24 bits; 20 R603 VBASE [31:8]; reset DESIGN CHOICE 0 until the boot ROM sets it (log 21) -/ vbase : BitVec 24
  /-- 32 bits; 20 R603 FADDR; reset 0 -/ faddr : BitVec 32
  /-- 8 bits; 20 R603 FCAUSE; reset 0 -/ fcause : BitVec 8
  /-- up to 64 entries, top first; 20 R614 HSP; reset empty -/ hw : List HwEntry
  /-- 32 bits; 20 R603 CYC; reset 0 -/ cyc : BitVec 32
  /-- 64 bits; 20 R603 IEN0, IEN1; reset 0 -/ ien : BitVec 64
  /-- 8 bits; 20 R618 ISET, IPEND1 [7:0]; reset 0 -/ swi : BitVec 8
  /-- 64 priorities of 3 bits; 20 R603 IPRI; reset 0 -/ ipri : List (BitVec 3)
  /-- 8 regions; 20 R603 MPU_LO, MPU_HI; reset 0 -/ mpu : List MpuRegion
  /-- 2 bits EN, MENF; 20 R603 MPU_CTL; reset 0 -/ mpuCtl : BitVec 2
  /-- register and value of the load whose destination is not yet written; 20 R610; reset none -/ pendLoad : Option (Nat × BitVec 32)
  /-- 21 R642: a debugger holds the debug port open: it has been served since the core's reset (log 41); reset false -/ debugHalt : Bool
  /-- 32 bits; 23 R685: what the debug port last answered (log 41); reset 0 -/ debugRead : BitVec 32
  deriving DecidableEq, Repr

/-! ### Sensor I/O (chapter 22) -/

/-- What a serial engine is in the middle of (R654, R655). -/
inductive SePhase where
  | idle | transfer | busclr
  deriving DecidableEq, Repr

/-- A serial engine (R658). -/
structure Se where
  /-- 14 bits; R658 SEn_CTL; reset 0 -/ ctl : BitVec 14
  /-- 16 bits; R658 SEn_DIV; reset 0 -/ div : BitVec 16
  /-- 24 bits; R658 SEn_XFER; reset 0 -/ xfer : BitVec 24
  /-- up to 32 bytes; R654; reset empty -/ tx : List Byte
  /-- up to 32 bytes; R654; reset empty -/ rx : List Byte
  /-- 1 bit; R658 SEn_STAT.DONE; reset 0 -/ done : Bool
  /-- 3 bits; R658 ERR; reset 0 -/ err : Nat
  /-- 1 bit; R658 TXOVF; reset 0 -/ txovf : Bool
  /-- 1 bit; R656 WIGN; reset 0 -/ wign : Bool
  /-- 3 bits; R658 SEn_IEN; reset 0 -/ ien : BitVec 3
  /-- R654 R658 BUSY (not idle); reset idle -/ phase : SePhase
  /-- R654: CS is held low after a transfer with NOSTOP; reset false -/ csHeld : Bool
  /-- R654: level of the CTS input; reset DESIGN CHOICE 0, R646's level with no pin (log 10) -/ cts : Bool
  /-- 8 bits; R654: bytes of the write phase, or of an SPI transfer, still to come; reset 0 -/ wleft : Nat
  /-- 8 bits; R654: bytes of the read phase still to come; reset 0 -/ rleft : Nat
  deriving DecidableEq, Repr

/-- A result of the ADC (R662 ADC_DATA). -/
structure AdcResult where
  code : Nat
  ch : Nat
  noPin : Bool
  deriving DecidableEq, Repr

structure Adc where
  /-- 10 bits; 22 R662 ADC_CTL; reset 0 -/ ctl : BitVec 10
  /-- 27 bits; 22 R662 ADC_SEQ; reset 0 -/ seq : BitVec 27
  /-- up to 16 results; 22 R661; reset empty -/ fifo : List AdcResult
  /-- 1 bit; 22 R662 DONE; reset 0 -/ done : Bool
  /-- 1 bit; 22 R662 OVR; reset 0 -/ ovr : Bool
  /-- 1 bit; 22 R662 TRIGLOST; reset 0 -/ trigLost : Bool
  /-- 3 bits; 22 R662 ADC_IEN; reset 0 -/ ien : BitVec 3
  /-- 22 R661: slot being converted; reset none -/ slot : Option Nat
  /-- 22 R660: settled since EN rose; reset false -/ settled : Bool
  /-- 12 bits; 22 R662 ADC_TCAL.CODE25; reset from the production record, DESIGN CHOICE 0 (log 6) -/ code25 : Nat
  /-- 12 bits; 22 R662 ADC_TCAL.SLOPE; reset from the production record, DESIGN CHOICE 0 (log 6) -/ slope : Nat
  deriving DecidableEq, Repr

/-- A timer (R664). -/
structure Tmr where
  /-- 15 bits; R664 TMRn_CTL; reset 0 -/ ctl : BitVec 15
  /-- 32 bits; R664 TMRn_CNT; reset 0 -/ cnt : BitVec 32
  /-- 32 bits; R664 TMRn_TOP; reset 0xFFFFFFFF -/ top : BitVec 32
  /-- 32 bits; R664 TMRn_CMP; reset 0 -/ cmp : BitVec 32
  /-- R663 PWM: TOP and CMP that take effect at the next wrap; reset none -/ topNext : Option (BitVec 32)
  /-- R663 PWM; reset none -/ cmpNext : Option (BitVec 32)
  /-- 32 bits; R664 TMRn_CAP; reset 0 -/ cap : BitVec 32
  /-- 4 bits MATCH, WRAP, CAPT, CAPOVR; R664 TMRn_STAT; reset 0 -/ stat : BitVec 4
  /-- 4 bits; R664 TMRn_IEN; reset 0 -/ ien : BitVec 4
  /-- R663: the compare output, true active; reset false -/ out : Bool
  deriving DecidableEq, Repr

structure Wdg where
  /-- 1 bit; 22 R667 WDG_CTL.EN; reset 0 -/ en : Bool
  /-- 1 bit; 22 R667 WARNEN; reset 0 -/ warnEn : Bool
  /-- 1 bit; 22 R667 LOCK; reset 0 -/ lock : Bool
  /-- 24 bits; 22 R667 WDG_LOAD; reset 0x020000 -/ load : Nat
  /-- 24 bits; 22 R667 WDG_CNT; reset 0 -/ cnt : Nat
  /-- 22 R666: a reload waits for the next slow-clock edge; reset false -/ feeding : Bool
  /-- 22 R666: the watchdog has expired and its reset is due; reset false -/ expired : Bool
  /-- 1 bit; 22 R667 WDG_STAT.WARN; reset 0 -/ warn : Bool
  deriving DecidableEq, Repr

/-! ### The whole machine -/

/-- The block's state: everything the spec gives it, and the queue of commands that wait. -/
structure State where
  dev : Dev
  clk : Clk
  mbx : Mbx
  hostp : HostPort
  shots : Shots
  radio : Radio
  lanes : Lanes
  canary : Canary
  link : Link
  timing : Timing
  tally : Tally
  qm : Qm
  sched : Sched
  cipher : Cipher
  pwr : Pwr
  pads : Pads
  boot : Boot
  flash : Flash
  upd : Upd
  rtc : Rtc
  port : Port
  core : Core
  /-- 22 R652 SE0; reset R658 -/ se0 : Se
  /-- 22 R652 SE1; reset R658 -/ se1 : Se
  adc : Adc
  /-- TMR0 to TMR3; 22 R664; reset R664 -/ tmr : List Tmr
  wdg : Wdg
  /-- app RAM, shared RAM and AON RAM by bus address (R19), unlisted bytes being 0; 14 R464 zero fill; reset nothing listed -/ mem : List Host.Cell
  /-- the model's own counter of free values asked so far (log 7); reset DESIGN CHOICE 0 -/ freeCtr : Nat
  /-- the commands that wait, first in first out; reset empty -/ pending : List Instr
  deriving DecidableEq, Repr

/-- The ways a step can fault. No command of this block faults: an illegal access is answered as the spec says (R20, R82). -/
inductive Fault where
  /-- raised by nothing: kept so that the type is not empty; safe -/
  | none
  deriving DecidableEq, Repr

/-- The ways a command can be refused. -/
inductive Refusal where
  /-- the dispatch refuses a row that has no meaning yet; safe -/
  | notModelled (mnemonic : String)
  deriving DecidableEq, Repr

/-! ### The state after reset -/

/-- 256 bytes of a header the spec does not give (log 6). -/
def imgHeadReset : ImgHead :=
  { type := 1, version := 0x01000000, settingsFormat := 1, signer := List.replicate 32 0x01#8, bytes := List.replicate 256 0x00#8 }

def Dev.reset : Dev :=
  { variant := .shaft, eui64 := List.replicate 8 0x00#8, stepping := 0x00B0, fwVersion := 0x01000000,
    loaderVersion := 0x01000000, settingsFormat := 1, factoryComp := List.replicate 32 0 }

def Clk.reset : Clk :=
  { xordy := false, plllock := false, rootsrc := false, tcxo := false, rootfail := false, lfxrdy := false,
    scalCount := 1500000, scalValid := false, slowCount := 1500000, mtime := 0, frac := 0, mtimeHi := 0,
    rate := .held, sync := false, slow := false, gap := true, refFailed := false, refTry := false }

def EvQueue.reset : EvQueue := { events := [], lost := 0, seq := 0, mask := 0xFFFE }

def Mbx.reset : Mbx :=
  { chan := List.replicate 8 .idle, netrdy := false, ien := 0, dblate := 0, reqwr := 0, notown := 0, own := 0, mirror := false,
    rr := 1, pend := [], q6 := .reset, q7 := .reset,
    counter := ⟨0, 0, 0⟩, fails := ⟨0, 0, 0⟩, lockout := ⟨0, 0, 0⟩, surveyId := 0, survey := none }

def HostPort.reset : HostPort := { err := false, cs := false, sdo := [], left := 0 }

def Shot.reset : Shot :=
  { state := .free, owner := none, entries := [], bytes := 0, trigger := 0, rxCut := false, persist := false, bound := 0,
    whenAt := 0, slot := 0, trigAt := 0, begun := false, saving := false, swapAt := 0, quiesceUs := 0 }

def Shots.reset : Shots := { buf := List.replicate 4 .reset, done := 0, applied := 0, ien := 0 }

/-- 868,000,000 Hz in tuning units of 48,000,000 / 2^23 Hz, to the nearest (R113, R691). -/
def tune868 : Nat := 151693994

def DivCfg.reset : DivCfg := { mode := 0, fixedAnt := 0, idleAnt := 0, txAnt := 0, hyst := 2 }
def ExtCfg.reset : ExtCfg := { pins := 0x70, lead := 2, lag := 1, offA := 0, offB := 0 }

def RadioCfg.reset : RadioCfg :=
  { home := tune868, ret := 0, power := 0, txport := 0, origin := 1, comp := List.replicate 32 0, div := .reset, ext := .reset }

def RadioStats.zero : RadioStats :=
  { txFrames := 0, txLate := 0, lockFail := 0, calFull := 0, calAuto := 0, clampVbat := 0, clampPort := 0, divDecided := 0,
    divSwitched := 0, divBlocked := 0, divIncomplete := 0, refSleep := 0 }

def LastTx.reset : LastTx :=
  { mtime := 0, req := 0, applied := 0, paCode := 0, comp := 0, flags := 0, temp := 0, vbat := 0, tune := 0 }

def Radio.reset : Radio :=
  { state := .sleep, goal := none, tune := 0, tuneGoal := 0, second := false, cfg := .reset, home := tune868, div := .reset,
    ext := .reset, ant := 0, heard := false, cal := [], everCal := 0, calJob := none, autoCal := false, recalWait := false,
    temp := 0, vbat := 0, held := none, onAir := none, airStart := 0, awaiting := none, owed := none, packetRet := 0,
    pendHold := none, retune := false, switchedFor := none, rssi := none, cca := none, lbtPhase := 0, lbtUntil := 0, test := none,
    stats := .zero, clampArm := true, last := .reset }

def LaneCfg.reset : LaneCfg := { enable := 0, phy := 1, path := 0, offset := 0, chan := 100000, rate := 50000, phycfg := 0 }

def LaneStats.zero : LaneStats :=
  { sof := 0, rxOk := 0, fcsFail := 0, hdrFail := 0, blanked := 0, cut := 0, dupDropped := 0, noCell := 0, pathB := 0,
    modesw := 0, fcs2 := 0, badRate := 0, seamVer := 0, trackLost := 0, eqResets := 0 }

def Lane.reset : Lane := { cfg := .reset, next := none, frame := none, stats := .zero, quality := [] }
def PathAgc.reset : PathAgc := { gain := 0, clip := 0, forced := 0 }
def Profile.reset : Profile := { phy := 0, mcs := 0, preamble := 0, rate := 0, phycfg := 0 }
/-- Profile 0 at reset (R217). -/
def Profile.reset0 : Profile := { phy := 1, mcs := 0, preamble := 8, rate := 50000, phycfg := 0 }

def Lanes.reset : Lanes :=
  { lane := List.replicate 16 .reset, agcA := .reset, agcB := .reset, delivered := [],
    profile := .reset0 :: List.replicate 15 .reset, seed := 0 }

def CanaryCfg.reset : CanaryCfg := { enable := 0, active := 0, matchBits := 0, threshold := 0, slots := List.replicate 4 0, groups := 0 }

def CanaryStats.zero : CanaryStats :=
  { preambleSeen := 0, matchUnicast := 0, matchAllcall := 0, matchGroup := 0, falseWake := 0, decodeFail := 0, addrMiss := 0,
    repeatSeen := 0, blanked := 0, cut := 0, sent := 0, sendRefused := 0 }

def Canary.reset : Canary :=
  { cfg := .reset, next := none, phase := .listen, stats := .zero, mMtime := 0, mAddress := 0, mGroup := 0, mKind := 0,
    mSlot := 0, repeatOf := none, eventDue := false, send := none }

/-- R263: a FREE entry. -/
def Nbr.blank : Nbr :=
  { short := 0x1FFFFFE, eui64 := List.replicate 8 0x00#8, state := .free, flags := 0, lq := 0, profile := 0, txKey := 0xFF,
    rxKey := 0xFF, rxKeyPrev := 0xFF, miss := 0, fails := 0, txSeq := 0, dupWin := [], queue := 0, bitmap := 0, hwm := 0,
    hwmPrev := 0, drift := 0, hwmValid := false, prevValid := false, rdvPeriod := 0, rdvOffset := 0, lastAck := 0, rxOk := 0,
    txOk := 0, txFail := 0, retries := 0 }

def Route.blank : Route := { valid := 0, size := 0, hopLimit := 0, base := 0, nextHop := 0 }

def LinkCfg.reset : LinkCfg :=
  { ownShort := 0x1FFFFFE, net := 0, maxRetries := 3, joinOpen := 0, bcastProfile := 0, boBaseUs := 2000, boMaxMs := 1000,
    rxQueue := 0, unroutedQueue := 1, bcastKey := 0xFF, micLen := 0, pendHoldMs := 20, groups := List.replicate 8 0 }

def LinkStats.zero : LinkStats :=
  { rxDelivered := 0, rxForwarded := 0, txOk := 0, txRetry := 0, txFail := 0, txLate := 0, ackSent := 0, ackCollide := 0,
    dupRx := 0, micFail := 0, micLateFail := 0, replay := 0, keyBad := 0, unsecured := 0, noNbr := 0, badFrame := 0,
    otherNet := 0, notMine := 0, hopsExpired := 0, noRoute := 0, nhDown := 0, fwdOff := 0, fwdQfull := 0, rxQfull := 0,
    keyExhausted := 0, badDesc := 0 }

def DropAcc.zero : DropAcc :=
  { hopsExpired := 0, noRoute := 0, nhDown := 0, fwdOff := 0, fwdQfull := 0, rxQfull := 0, lastFinalDst := 0 }

def Link.reset : Link :=
  { cfg := .reset, nbr := [], route := [], parent := .blank, bcastSeq := 0, released := [], flight := [], rx := [], nextId := 0, stats := .zero,
    join := none, joinSeen := [], drop := .zero, dropEvent := none, deferred := [] }

def SyncRec.zero : SyncRec := { mtime := 0, valid := false, driftValid := false, toff := 0, stepAt := 0 }

def TimingCfg.reset : TimingCfg :=
  { ownPeriod := 0, ownChseq := 0, ownOffset := 0, baseUs := 150, bound := 100, guardCapUs := 50000, flags := 0x06,
    resyncRepeat := 2, resyncDelayMs := 100, resyncListenMs := 500, resyncIntervalS := 60, resyncWakeHz := 0, trimPpb := 0,
    epoch := [2000, 1, 1, 0, 0, 0] }

def TimingStats.zero : TimingStats :=
  { winOpened := 0, winKept := 0, winMissed := 0, winSkipped := 0, rdvKept := 0, rdvMissed := 0, rdvDeferred := 0, steps := 0,
    resyncStarted := 0, resyncOk := 0, resyncFailed := 0, lost := 0 }

/-- One frequency, the reset home frequency: a channel sequence at reset (log 12). -/
def chseqReset : List Nat := [868000000]

def Timing.reset : Timing :=
  { cfg := .reset, chseq := [], chseqOld := [], sync := [], stepSum := 0, pendingStep := [], calendar := [], window := none, nextK := 0,
    resync := [], listen := none, stats := .zero }

def BandCfg.reset : BandCfg :=
  { enable := 0, lbt := 0, lower := 410000000, upper := 410000000, limitPpm := 1, reservePpm := 0, maxTxMs := 0, lbtBw := 200000,
    lbtThreshold := -170, lbtListenUs := 160, boMinMs := 0, boMaxMs := 0, lbtTries := 1 }

def Band.reset : Band :=
  { cfg := .reset, total := List.replicate 60 0, ack := List.replicate 60 0, refused := 0, ackDenied := 0, lbtBusy := 0, lbtGiveup := 0 }

def Tally.reset : Tally :=
  { band := List.replicate 16 .reset, outside := 0, cur := 0, clock := 0, resv := [], nextId := 0, ready := false,
    outsideRefused := 0, outsideSent := 0, cutShort := 0, refBands := 0, refLast := 0xFF, refUs := 0, refEvent := none }

def Queue.reset : Queue :=
  { kind := 0, limit := 512, stall := 100, packets := [], broken := false, overrun := false, stallExpired := false,
    stallAborted := false, stallIntr := false, kindErr := false, badPush := false, highWater := 0, landApp := none, landHost := none }

def QmStats.zero : QmStats :=
  { pushOk := 0, pushRefused := 0, pushBad := 0, popOk := 0, popEmpty := 0, popToobig := 0, ueDropped := 0, lostWake := 0, flushed := 0 }

def Qm.reset : Qm :=
  { queue := [], used := [], reserve := 0, usedMax := 0, ceCount := 0, ueCount := 0, lastErr := 0xFFFFFFFF, resultApp := 0x80000000, resultHost := 0x80000000, eccEvent := none, stalls := [], stats := .zero }

def FlowCfg.reset : FlowCfg := { enable := 0, strict := 0, weight := 1, queue := 0xFFFF, shaper := 0xFF }

def Flow.reset : Flow :=
  { cfg := .reset, block := 2, fLast := 0, stamp := none, eligible := none, refReason := 0, refBand := 0xFF, refUs := 0,
    refMtime := 0, released := 0, releasedBytes := 0 }

def ShaperCfg.reset : ShaperCfg := { enable := 0, rate := 0, burst := 2112 }
def Shaper.reset : Shaper := { cfg := .reset, next := none, tokens := 2112, activeRate := 0 }

def SchedStats.zero : SchedStats :=
  { relOrigin := 0, relStrict := 0, relWfq := 0, relRdv := 0, holdShaper := 0, holdTally := 0, holdNever := 0, holdNbr := 0,
    refusedInflight := 0, vtClamp := 0 }

def Sched.reset : Sched :=
  { flow := [], shaper := [], v := 0, lastRefill := 0, stats := .zero, blkCount := 0, blkFlow := 0, blkBand := 0xFF, blkReason := 0, blkEvent := none }

def KeySlot.empty : KeySlot := { type := 0, state := 0, origin := 0, allowed := 0, usage := 0, key := [] }
def KeyRecord.empty : KeyRecord := { slot := .empty, fcReserved := 0, damaged := false }
def KeyCounter.zero : KeyCounter := { fc := 0, fcReserved := 0, exhausted := false, low := false, writing := false, faulted := false }

def CipherStats.zero : CipherStats :=
  { secured := 0, checked := 0, unwrapFail := 0, appOps := 0, appTagFail := 0, sigInvalid := 0, healthFail := 0, reseeds := 0,
    haltDrop := 0, reserveWrites := 0 }

/-- The three production keys of R408; their material is unique to each device and not in the spec (log 18). -/
def prodKeys : Tab KeyRecord :=
  [(0, { slot := { type := 2, state := 3, origin := 1, allowed := 0, usage := 0, key := List.replicate 32 0x00#8 }, fcReserved := 0, damaged := false }),
   (1, { slot := { type := 1, state := 1, origin := 1, allowed := 0x40, usage := 0x40, key := List.replicate 16 0x00#8 }, fcReserved := 0, damaged := false }),
   (2, { slot := { type := 1, state := 1, origin := 1, allowed := 0x04, usage := 0x04, key := List.replicate 16 0x00#8 }, fcReserved := 0, damaged := false })]

def Cipher.reset : Cipher :=
  { slot := [], ctr := [], backing := prodKeys, halt := false, source := .running, restarts := 0,
    maskReq := 0, genReq := 0, reseedAt := 0, job := none, stats := .zero }

def PwrCfg.reset : PwrCfg :=
  { netRetain := 0, nbrRetain := 0, poolRetain := 0, shelfExit := 5, shelfWake := 1, shelfRtc := 1, watchFlags := 0,
    drainMs := 2000, hostWake := 0x0BF }

def Pwr.reset : Pwr :=
  { mode := .service, nextMode := none, drain := none, changing := false, allowed := 0x3F, cfg := .reset, phase := .awake,
    seeking := .none, who := .net, counted := false, sleepDepth := .none, appDepth := .none, hostDepth := .none,
    hostWait := none, result := 0, resultDepth := .none, hostPart := false, wakeEn := 0x001, wakeEnSaved := none, latch := 0,
    wakeApp := 0x0BF, retainApp := 0, retainNet := 0, wakeAt := 0, wakeAtHi := 0, armed := false, latchAt := none, netTimer := none, refuse := 0,
    abort := 0, refId := 0, refDepth := .none, refAborted := false, refHost := false, lwSource := 0, lwDepth := 0, lwKind := 0,
    lwMtime := 0, lwRtc := 0xFFFFFFFF }

def PadRegs.reset : PadRegs := { dir := 0, out := 0, pull := 0, func := 0 }
def Pads.reset : Pads := { live := .reset, shadow := none, wakeEn := 0, wakePol := 0, wakeFlag := 0, level := 0, driven := 0 }

/-- The Default column of R484 without signers: the safe defaults of R490. -/
def OptBlock.safe : OptBlock :=
  { bytes := [(0x000, 0x36#8), (0x001, 0x4D#8), (0x002, 0x50#8), (0x003, 0x4F#8), (0x004, 0x01#8), (0x00B, 0x01#8),
              (0x00C, 0x3F#8), (0x00D, 0x05#8), (0x011, 0x04#8)], crcOk := true }

/-- The production block: the defaults of R484 with the signer of the network firmware in SIGNER0 (log 19). -/
def OptBlock.production : OptBlock :=
  { bytes := OptBlock.safe.bytes ++ (List.range 32).map (fun i => (0x020 + i, 0x01#8)), crcOk := true }

def Boot.reset : Boot :=
  { stage := .reference, kind := .por, causeApp := 1, causeNet := 1, simul := false, hist := 1, optCopy := 1, repaired := false,
    merged := false, imgFull := false, migrated := false, setDef := false, forced := false, bor := false, nrst := false,
    backup := false, aonLost := false, vio := true, coreRestart := false, released := false, activation := false,
    delayed := none, opt := .production, copy1 := .production, copy2 := .production, optBase := none, debug := 0 }

def Flash.reset : Flash :=
  { array := [], written := [], ecnt := [], incomplete := [], ecc := [], jActive := false, journal := [], jSeq := 0, p0 := .idle,
    p1 := .idle, waiting := [], autosus := true, errfault := false, ien := false, addr := 0, waddr := 0, len := 0, busy := false,
    done := false, err := 0, ce := 0, ue := 0, eccAddr := 0x3FFFFFF, eccKind := 0, eccEvent := none, rdLast := 0, stkUe := false,
    stkUnrel := false, bsel := 0, bstatEcnt := 0, bstatState := 0, bstatReady := false, query := false, lockApp := false,
    worn := [], jobs := [], programs := 0, programBytes := 0, erases := 0, suspends := 0, refused := 0, unrelReads := 0, rotations := 0 }

def Upd.reset : Upd :=
  { state := .empty, owner := none, size := 0, units := [], head := none, whenAt := none, returnMode := 0xFF, lastResult := 0,
    fromCard := false, broken := none, job := none, netfw := some imgHeadReset, card := .none, setA := none, setB := none, due := [] }

def RtcTime.reset : RtcTime := { subsec := 0, sec := 0, min := 0, hour := 0, wday := 0, day := 1, mon := 1, year := 2000 }
def RtcCore.reset : RtcCore :=
  { shadow := .reset, frz := false, stale := false, age := 0, stage := .reset, fields := 0, werr := false, wlost := false }
def Alarm.reset : Alarm := { vals := List.replicate 6 0, mask := 0, en := false }
def Rtc.reset : Rtc :=
  { now := .reset, app := .reset, net := .reset, osf := true, ovf := false, bksw := false, alf := 0, act := none, actHeld := false,
    run := false, bkstamp := 0xFFFFFFFF, alm0 := .reset, alm1 := .reset, due := [(false, 1, 0)], osfTold := true }

def PwSlot.reset : PwSlot := { pw := List.replicate 16 0x00#8, limit := 5, remaining := 5 }

/-- 0x6D and six bytes the spec leaves to production (R571, log 6). -/
def uidReset : List Byte := 0x6D#8 :: List.replicate 6 0x00#8

def Port.reset : Port :=
  { fstate := .off, fromHalt := false, field := false, uid := uidReset, rateIn := 106, rateOut := 106, fsd := 256, cid := 0,
    answer := [], sel := .none, auth := none, chainIn := [], chainOut := [], wait := none, wtxm := 0, mbxResp := none, mbxReq := none,
    mem := [], journal := none, pw := List.replicate 4 .reset, grantCfg := 1, wtxmCfg := 10, flags := 0,
    identity := [0x01#8, 0x02#8, 0xB0#8, 0x00#8] ++ List.replicate 8 0x00#8 ++ [0x00#8, 0x00#8, 0x00#8, 0x01#8] ++ uidReset ++ [0x05#8],
    lock := .free, prio := false, grant := false, block := 0, cmd := none, done := false, err := 0, fieldEvt := false,
    lockEvt := false, ien := 0, buf := List.replicate 8 0, sessions := 0, blockWrites := 0, verifyFail := 0, wtxSent := 0,
    wtxGiveup := 0, tears := 0, lockedDue := [], job := none }

def MpuRegion.reset : MpuRegion := { en := false, size := 0, base := 0, perm := 0 }

def Core.reset : Core :=
  { run := .held, u := List.replicate 15 0, pc := 0, spt := 0, spm := 0, ie := false, mach := true, split := true, ract := false,
    runi := false, ilvl := 0, rpc := 0, vbase := 0, faddr := 0, fcause := 0, hw := [], cyc := 0, ien := 0, swi := 0,
    ipri := List.replicate 64 0, mpu := List.replicate 8 .reset, mpuCtl := 0, pendLoad := none, debugHalt := false, debugRead := 0 }

def Se.reset : Se :=
  { ctl := 0, div := 0, xfer := 0, tx := [], rx := [], done := false, err := 0, txovf := false, wign := false, ien := 0,
    phase := .idle, csHeld := false, cts := false, wleft := 0, rleft := 0 }

def Adc.reset : Adc :=
  { ctl := 0, seq := 0, fifo := [], done := false, ovr := false, trigLost := false, ien := 0, slot := none, settled := false,
    code25 := 0, slope := 0 }

def Tmr.reset : Tmr :=
  { ctl := 0, cnt := 0, top := 0xFFFFFFFF, cmp := 0, topNext := none, cmpNext := none, cap := 0, stat := 0, ien := 0, out := false }

def Wdg.reset : Wdg :=
  { en := false, warnEn := false, lock := false, load := 0x20000, cnt := 0, feeding := false, expired := false, warn := false }

/-- The block right after a power-on reset: AON is at its reset values, the option block is loaded and the RAMs are
zero-filled (steps 1 and 2 of R480), and step 3 waits for the reference (log 3). -/
def State.reset : State :=
  { dev := .reset, clk := .reset, mbx := .reset, hostp := .reset, shots := .reset, radio := .reset, lanes := .reset,
    canary := .reset, link := .reset, timing := .reset, tally := .reset, qm := .reset, sched := .reset, cipher := .reset,
    pwr := .reset, pads := .reset, boot := .reset, flash := .reset, upd := .reset, rtc := .reset, port := .reset, core := .reset,
    se0 := .reset, se1 := .reset, adc := .reset, tmr := List.replicate 4 .reset, wdg := .reset, mem := [], freeCtr := 0, pending := [] }

end Sys2Proof.Machine
end

