-- ==== Sys2Proof/Machine/Ops.lean ====
section
/-! DEFINITION. The shared operations: tables, byte order, memory, free values, command results, events and pending slots. -/

namespace Sys2Proof.Machine

/-! ### Tables with a default -/

/-- The value a table holds at a key; `d` where it lists none. -/
def tget {α : Type} (d : α) (k : Nat) : Tab α → α
  | [] => d
  | (i, v) :: r => if k < i then d else if k = i then v else tget d k r

/-- The table with `v` at key `k`, in the canonical form: keys rising, no pair holding `d`. -/
def tset {α : Type} [DecidableEq α] (d : α) (k : Nat) (v : α) : Tab α → Tab α
  | [] => if v = d then [] else [(k, v)]
  | (i, w) :: r =>
    if k < i then (if v = d then (i, w) :: r else (k, v) :: (i, w) :: r)
    else if k = i then (if v = d then r else (k, v) :: r)
    else (i, w) :: tset d k v r

/-- The canonical form of a table. -/
def Tab.wf {α : Type} [DecidableEq α] (d : α) : Tab α → Bool
  | [] => true
  | (i, v) :: r => decide (v ≠ d) && r.all (fun c => decide (i < c.1)) && Tab.wf d r

/-- The canonical form of the RAMs: addresses rising, no byte listed that reads as an unlisted one (R464: zero). -/
def Memory.wf (m : Tab Byte) : Bool := Tab.wf 0 m

/-- A function applied to every entry a table lists, in the canonical form. -/
def tmap {α : Type} [DecidableEq α] (d : α) (f : α → α) (t : Tab α) : Tab α := (t.map (fun c => (c.1, f c.2))).filter (fun c => decide (c.2 ≠ d))

/-- The pairs of a table whose keys `p` keeps. -/
def tkeep {α : Type} (p : Nat → Bool) (t : Tab α) : Tab α := t.filter (fun c => p c.1)

/-! ### Numbers and octets, least significant first (R9) -/

/-- A number in `k` octets. -/
def le : Nat → Nat → List Byte
  | 0, _ => []
  | k + 1, n => BitVec.ofNat 8 n :: le k (n / 256)

/-- A signed number in `k` octets, two's complement. -/
def lei (k : Nat) (i : Int) : List Byte := le k (i % (256 ^ k : Nat)).toNat

/-- A number in `k` octets, most significant first. -/
def be (k n : Nat) : List Byte := (le k n).reverse

/-- The number octets spell, least significant first. -/
def unle : List Byte → Nat
  | [] => 0
  | b :: r => b.toNat + 256 * unle r

/-- The number octets spell, most significant first. -/
def unbe (l : List Byte) : Nat := unle l.reverse

/-- `k` octets from offset `o`, zeros beyond the end. -/
def slice (p : List Byte) (o k : Nat) : List Byte :=
  let t := (p.drop o).take k
  t ++ List.replicate (k - t.length) 0

def u8 (p : List Byte) (o : Nat) : Nat := (p.getD o 0).toNat
def u16 (p : List Byte) (o : Nat) : Nat := unle (slice p o 2)
def u32 (p : List Byte) (o : Nat) : Nat := unle (slice p o 4)
def u64 (p : List Byte) (o : Nat) : Nat := unle (slice p o 8)

/-- The signed number that `n` spells in `w` bits. -/
def signed (w n : Nat) : Int := if n < 2 ^ (w - 1) then (n : Int) else (n : Int) - (2 ^ w : Nat)

def i8 (p : List Byte) (o : Nat) : Int := signed 8 (u8 p o)
def i16 (p : List Byte) (o : Nat) : Int := signed 16 (u16 p o)
def i32 (p : List Byte) (o : Nat) : Int := signed 32 (u32 p o)

/-- Bits `[lo+len-1:lo]` of `n`. -/
def bits (n lo len : Nat) : Nat := n / 2 ^ lo % 2 ^ len

/-- `n` held at the ceiling `m` (saturating counters). -/
def sat (m n : Nat) : Nat := if n ≤ m then n else m

/-- A 32-bit counter one higher, saturating (R295). -/
def inc32 (n : Nat) : Nat := sat 0xFFFFFFFF (n + 1)
def inc16 (n : Nat) : Nat := sat 0xFFFF (n + 1)

/-- `n` divided by `d`, rounded up. -/
def cdiv (n d : Nat) : Nat := (n + d - 1) / d

/-- `n` divided by `d`, to the nearest, a half going up. -/
def rdiv (n d : Nat) : Nat := (2 * n + d) / (2 * d)

def b2n (b : Bool) : Nat := if b then 1 else 0

/-- `k` octets from offset `o` are zero. -/
def zeros (p : List Byte) (o k : Nat) : Bool := (slice p o k).all (· == 0)

/-- The offset of the first octet from `o`, of `k`, that is not zero. -/
def firstNonZero (p : List Byte) (o : Nat) : Nat → Option Nat
  | 0 => none
  | k + 1 => if p.getD o 0 = 0 then firstNonZero p (o + 1) k else some o

/-- The first offset whose check fails. -/
def firstBad : List (Bool × Nat) → Option Nat
  | [] => none
  | (ok, o) :: r => if ok then firstBad r else some o

/-- The entry of a list, `d` beyond its end. -/
def at_ {α : Type} (d : α) (l : List α) (i : Nat) : α := l.getD i d

/-- The bit `n` of a bit vector, as a flag. -/
def bit {w : Nat} (v : BitVec w) (n : Nat) : Bool := v.getLsbD n

/-- A bit vector with bit `n` set, or cleared. -/
def setBit {w : Nat} (v : BitVec w) (n : Nat) (b : Bool) : BitVec w :=
  if b then v ||| BitVec.ofNat w (2 ^ n) else v &&& ~~~BitVec.ofNat w (2 ^ n)

/-! ### Mesh time comparisons (R32) -/

/-- MTIME's modulus. -/
def mtMod : Nat := 2 ^ 56

/-- `t` is later than `m`, modulo the wrap. -/
def mtLater (t m : Nat) : Bool :=
  let d := (t + mtMod - m % mtMod) % mtMod
  decide (1 ≤ d) && decide (d < 2 ^ 55)

/-- MTIME `m` has reached `t`. -/
def mtReached (t m : Nat) : Bool := !mtLater t m

/-- MTIME `m` moved by a signed number of ticks. -/
def mtAdd (m : Nat) (d : Int) : Nat := (((m : Int) + d) % (mtMod : Nat)).toNat

/-- Microseconds in ticks of 2^-24 s, to the nearest. -/
def usTicks (us : Nat) : Nat := rdiv (us * 2 ^ 24) 1000000

/-- Ticks in whole microseconds. -/
def ticksUs (t : Nat) : Nat := t * 1000000 / 2 ^ 24

/-! ### Frequencies (R113): tuning units of 48,000,000 / 2^23 Hz -/

/-- R113: a frequency in Hz the synthesizer covers. -/
def freqOk (hz : Nat) : Bool := decide (410000000 ≤ hz ∧ hz ≤ 480000000) || decide (750000000 ≤ hz ∧ hz ≤ 960000000)
/-- The step nearest a frequency in Hz, the higher one at a half: one unit in the lower band, two in the upper band. -/
def hzTune (hz : Nat) : Nat := if hz < 600000000 then rdiv (hz * 2 ^ 23) 48000000 else 2 * rdiv (hz * 2 ^ 22) 48000000
/-- A tuning in Hz, to the nearest. -/
def tuneHz (t : Nat) : Nat := rdiv (t * 48000000) (2 ^ 23)
/-- A tuning in units of 2^-23 Hz, exactly. -/
def tuneExact (t : Nat) : Nat := t * 48000000

/-! ### Memory (R19): app RAM, shared RAM and AON RAM -/

/-- One byte of RAM; a byte nothing has written since its zero fill is 0 (R464). -/
def rdMem (s : State) (a : Nat) : Byte := tget 0 a s.mem

/-- `n` bytes of RAM from `a`. -/
def rdBytes (s : State) (a : Nat) : Nat → List Byte
  | 0 => []
  | n + 1 => rdMem s a :: rdBytes s (a + 1) n

def wrTab (t : Tab Byte) (a : Nat) : List Byte → Tab Byte
  | [] => t
  | b :: r => wrTab (tset 0 a b t) (a + 1) r

/-- Bytes written to RAM from `a` up. -/
def wrBytes (s : State) (a : Nat) (l : List Byte) : State := { s with mem := wrTab s.mem a l }

/-- First byte of shared RAM (R19). -/
def sharedBase : Nat := 0x20100000
/-- Request buffer of channel `n` (R37). -/
def reqBuf (n : Nat) : Nat := sharedBase + 0x200 * n
/-- Response buffer of channel `n` (R37). -/
def rspBuf (n : Nat) : Nat := sharedBase + 0x100 + 0x200 * n

/-! ### Free values -/

/-- A value the spec leaves open, and the state that has asked for it (log 7). -/
def fresh (s : State) : Nat × State := (Config.free s.freeCtr, { s with freeCtr := s.freeCtr + 1 })

/-- `k` octets the spec leaves open. -/
def freshBytes : Nat → State → List Byte × State
  | 0, s => ([], s)
  | k + 1, s =>
    let r := freshBytes k { s with freeCtr := s.freeCtr + 1 }
    (BitVec.ofNat 8 (Config.free s.freeCtr) :: r.1, r.2)

/-! ### What a command answers (R44, R48) -/

/-- The outcome of a command's step 8 (R53): state, STATUS, DETAIL and response payload. -/
structure Res where
  s : State
  st : Nat
  det : Nat
  body : List Byte
  deriving DecidableEq, Repr

def stPENDING : Nat := 0x0001
def stUNKNOWN : Nat := 0x0101
def stLENGTH : Nat := 0x0102
def stPARAM : Nat := 0x0103
def stABSENT : Nat := 0x0104
def stBUSY : Nat := 0x0105
def stMODE : Nat := 0x0106
def stAUTH : Nat := 0x0201
def stSTALE : Nat := 0x0202
def stLOCKED : Nat := 0x0203
def stBUDGET : Nat := 0x0301
def stQFULL : Nat := 0x0302
def stTXLATE : Nat := 0x0303
def stMISFIRE : Nat := 0x0401
def stQUIESCE : Nat := 0x0402
def stKEYEXH : Nat := 0x0501
def stFLASH : Nat := 0x0502
def stTIME : Nat := 0x0503
/-- Not a status: the command has brought a reset on, and no response is written (R537). -/
def noAnswer : Nat := 0x10000

def okR (s : State) (body : List Byte) : Res := ⟨s, 0, 0, body⟩
def errR (s : State) (st det : Nat) : Res := ⟨s, st, det, []⟩
/-- BAD_PARAM with the offset of the first offending field. -/
def badR (s : State) (off : Nat) : Res := ⟨s, stPARAM, off, []⟩
def busyR (s : State) (unit : Nat) : Res := ⟨s, stBUSY, unit, []⟩
def modeCode : Mode → Nat
  | .shelf => 0 | .watch => 1 | .leaf => 2 | .relay => 3 | .wide => 4 | .service => 5
def codeMode : Nat → Mode
  | 0 => .shelf | 1 => .watch | 2 => .leaf | 3 => .relay | 4 => .wide | _ => .service
def modeR (s : State) : Res := ⟨s, stMODE, modeCode s.pwr.mode, []⟩

/-- The parameter checks in offset order, then the command (R53 step 8). -/
def guardR (s : State) (checks : List (Bool × Nat)) (go : Unit → Res) : Res :=
  match firstBad checks with
  | some o => badR s o
  | none => go ()

/-- What a command is told about its request (R38, R53, R55, R61). -/
structure Ctx where
  op : Nat
  req : Requester
  chan : Nat
  seq : Nat
  auth : Option (List Byte)
  wFail : Option (Nat × Nat)
  /-- the payload is an entry of a shot: nothing is written to flash and OPTS must be 0 (R104, R287) -/ shot : Bool
  deriving DecidableEq, Repr

/-- R287: the OPTS byte at an offset: bit 0 PERSIST, and 0 within a shot. -/
def Ctx.optsOk (c : Ctx) (p : List Byte) (o : Nat) : Bool × Nat := (decide (u8 p o < (if c.shot then 1 else 2)), o)

/-- The block whose write fails, when the command's `k`-th own flash write does. -/
def Ctx.failAt (c : Ctx) (k : Nat) : Option Nat :=
  match c.wFail with
  | some (i, b) => if i = k then some b else none
  | none => none

def pget {α : Type} (p : PerReq α) : Requester → α
  | .app => p.app | .host => p.host | .port => p.port

def pset {α : Type} (p : PerReq α) (r : Requester) (v : α) : PerReq α :=
  match r with
  | .app => { p with app := v }
  | .host => { p with host := v }
  | .port => { p with port := v }

/-! ### Events (R59 to R65) -/

/-- R38: channel 7 is active. -/
def ch7Active (s : State) : Bool := s.mbx.mirror && !bit s.mbx.own 6

/-- R60: the event channel (false 6, true 7) of a requester's completion events and survey records. -/
def evChan7 (s : State) (r : Requester) : Bool :=
  match r with
  | .host => !bit s.mbx.own 6 && ch7Active s
  | _ => false

def evq (s : State) (seven : Bool) : EvQueue := if seven then s.mbx.q7 else s.mbx.q6

def setEvq (s : State) (seven : Bool) (q : EvQueue) : State :=
  if seven then { s with mbx := { s.mbx with q7 := q } } else { s with mbx := { s.mbx with q6 := q } }

/-- R62: pending slots whose completion events will go to this channel and have not entered a queue. -/
def evReserved (s : State) (seven : Bool) : Nat :=
  (s.mbx.pend.filter (fun p => !p.ended && (evChan7 s p.req == seven))).length

/-- R62: an event arrives at a queue, or is discarded and counted. -/
def enqueue (seven : Bool) (e : Ev) (s : State) : State :=
  let q := evq s seven
  let room := match e.kind with
    | .completion _ => decide (q.events.length < 64)
    | _ => decide (q.events.length + 1 + evReserved s seven ≤ 64)
  if room then setEvq s seven { q with events := q.events ++ [e] }
  else setEvq s seven { q with lost := inc16 q.lost }

/-- R60, R65: an event that is neither a completion event nor a survey record, `op` being its OPCODE, arisen at MTIME `t`. -/
def raiseAt (t op : Nat) (payload : List Byte) (s : State) : State :=
  let e : Ev := { op := op, kind := .ordinary, payload := le 8 t ++ payload, auth := none }
  let g := bits op 8 7
  let on (q : EvQueue) : Bool := g == 1 || q.mask.testBit g
  let s1 := if on s.mbx.q6 then enqueue false e s else s
  if ch7Active s1 && on s1.mbx.q7 then enqueue true e s1 else s1

/-- An event that arises now. -/
def raise (op : Nat) (payload : List Byte) (s : State) : State := raiseAt s.clk.mtime op payload s

/-- An event raised at most once per second may be raised again (R297, R354, R370, R406, R499). -/
def secondPast (last : Option Nat) (s : State) : Bool :=
  match last with
  | some t => !mtLater (mtAdd t (2 ^ 24 : Nat)) s.clk.mtime
  | none => true

/-! ### Pending commands (R41, R42, R61) -/

/-- The lowest free pending slot. -/
def freeSlot (s : State) : Option Nat :=
  (List.range 16).find? (fun n => s.mbx.pend.all (fun p => p.slot != n))

/-- R42: the command answers PENDING in a free slot, or BUSY with DETAIL 0xFF. -/
def pendR (c : Ctx) (s : State) (go : Nat → State) : Res :=
  match freeSlot s with
  | none => busyR s 0xFF
  | some n =>
    let t := go n
    ⟨{ t with mbx := { t.mbx with pend := t.mbx.pend ++
        [{ slot := n, op := c.op, chan := c.chan, req := c.req, seq := c.seq, auth := c.auth, ended := false }] } },
      stPENDING, n, []⟩

/-- R61, R62: the background work of a pending slot ends and its completion event enters its queue. -/
def complete (slot st det : Nat) (result : List Byte) (s : State) : State :=
  match s.mbx.pend.find? (fun p => p.slot == slot && !p.ended) with
  | none => s
  | some p =>
    let e : Ev := { op := 0x8000 + p.op, kind := .completion slot,
                    payload := le 8 s.clk.mtime ++ le 1 p.chan ++ le 1 0 ++ le 2 p.seq ++ le 2 st ++ le 2 det ++ result, auth := p.auth }
    let s1 := { s with mbx := { s.mbx with pend := s.mbx.pend.map (fun x => if x.slot == slot then { x with ended := true } else x) } }
    enqueue (evChan7 s1 p.req) e s1

/-- R41: background work of a pending command of this unit is still running. -/
def unitPending (s : State) (unit : Nat) : Bool :=
  s.mbx.pend.any (fun p => !p.ended && bits p.op 8 8 == unit)

/-- R12: reserved octets of a request that must be zero, as checks. -/
def rsv (p : List Byte) (o k : Nat) : Bool × Nat := (zeros p o k, (firstNonZero p o k).getD o)

/-! ### Who can make an access (R16, R20, R79, R450) -/

/-- Start-up has come far enough for the mailboxes and the host port: step 6 of R480 is done. -/
def started (s : State) : Bool := s.boot.stage == .ready || s.boot.stage == .up || s.boot.stage == .loader

/-- The network core and what runs beside it are clocked: RUN or DOZE, and the firmware has started (R450, R480). -/
def netRuns (s : State) : Bool := (s.boot.stage == .ready || s.boot.stage == .up) && (s.pwr.phase == .awake || s.pwr.phase == .preparing)

/-- A master can make a register access: the core executes instructions; the host port answers in RUN, DOZE and NAP (R454). -/
def mayAccess (s : State) : Who → Bool
  | .app => s.core.run == .running || s.core.run == .rom
  | .host => started s && !(s.pwr.seeking == .hibernate && (s.pwr.phase == .committed || s.pwr.phase == .asleep))

/-! ### State updates by part -/

def updRadio (f : Radio → Radio) (s : State) : State := { s with radio := f s.radio }
def updLanes (f : Lanes → Lanes) (s : State) : State := { s with lanes := f s.lanes }
def updLink (f : Link → Link) (s : State) : State := { s with link := f s.link }
def updTiming (f : Timing → Timing) (s : State) : State := { s with timing := f s.timing }
def updTally (f : Tally → Tally) (s : State) : State := { s with tally := f s.tally }
def updQm (f : Qm → Qm) (s : State) : State := { s with qm := f s.qm }
def updSched (f : Sched → Sched) (s : State) : State := { s with sched := f s.sched }
def updCipher (f : Cipher → Cipher) (s : State) : State := { s with cipher := f s.cipher }
def updPwr (f : Pwr → Pwr) (s : State) : State := { s with pwr := f s.pwr }
def updFlash (f : Flash → Flash) (s : State) : State := { s with flash := f s.flash }
def updUpd (f : Upd → Upd) (s : State) : State := { s with upd := f s.upd }
def updRtc (f : Rtc → Rtc) (s : State) : State := { s with rtc := f s.rtc }
def updPort (f : Port → Port) (s : State) : State := { s with port := f s.port }
def updCore (f : Core → Core) (s : State) : State := { s with core := f s.core }
def updCanary (f : Canary → Canary) (s : State) : State := { s with canary := f s.canary }
def updMbx (f : Mbx → Mbx) (s : State) : State := { s with mbx := f s.mbx }
def updBoot (f : Boot → Boot) (s : State) : State := { s with boot := f s.boot }
def updClk (f : Clk → Clk) (s : State) : State := { s with clk := f s.clk }

/-- What a command of the block answers. -/
abbrev Out := Host.Outcome State Fault Refusal

end Sys2Proof.Machine
end

