-- ==== Sys2Proof/Machine/Dates.lean ====
section
/-! DEFINITION. Dates: their validity, and seconds since 2000-01-01 00:00:00 (R320, R549, R550). -/

namespace Sys2Proof.Machine

def isLeap (y : Nat) : Bool := y % 4 == 0 && (y % 100 != 0 || y % 400 == 0)

def daysIn (y m : Nat) : Nat :=
  match m with
  | 2 => if isLeap y then 29 else 28
  | 4 => 30 | 6 => 30 | 9 => 30 | 11 => 30
  | _ => 31

/-- YEAR, MONTH, DAY, HOUR, MINUTE, SECOND is a date and time of 2000 to 2199. -/
def dateOk (d : List Nat) : Bool :=
  let g (i : Nat) : Nat := at_ 0 d i
  decide (2000 ≤ g 0 ∧ g 0 ≤ 2199) && decide (1 ≤ g 1 ∧ g 1 ≤ 12) && decide (1 ≤ g 2 ∧ g 2 ≤ daysIn (g 0) (g 1)) && decide (g 3 < 24) && decide (g 4 < 60) &&
    decide (g 5 < 60)

/-- Days from 2000-01-01 to the first of a year. -/
def yearDays (y : Nat) : Nat :=
  let n := y - 2000
  365 * n + (n + 3) / 4 - (if 100 < n then 1 else 0)

/-- Days of the year before the first of a month. -/
def monthDays (y m : Nat) : Nat := ((List.range (m - 1)).map (fun i => daysIn y (i + 1))).foldl (· + ·) 0

/-- Seconds since 2000-01-01 00:00:00. -/
def dateSeconds (d : List Nat) : Nat :=
  let g (i : Nat) : Nat := at_ 0 d i
  (yearDays (g 0) + monthDays (g 0) (g 1) + g 2 - 1) * 86400 + g 3 * 3600 + g 4 * 60 + g 5

/-- The last second of 2199. -/
def lastSecond : Nat := yearDays 2200 * 86400 - 1

/-- The month and the day of a day of the year. -/
def monthOf (y : Nat) : Nat → Nat → Nat → Nat × Nat
  | 0, m, d => (m, d)
  | k + 1, m, d => if d < daysIn y m then (m, d) else monthOf y k (m + 1) (d - daysIn y m)

/-- The date and time a number of seconds after 2000-01-01 00:00:00. -/
def secondsDate (n : Nat) : List Nat :=
  let days := n / 86400
  let y0 := 2000 + days / 366
  let y := if yearDays (y0 + 1) ≤ days then y0 + 1 else y0
  let r := monthOf y 12 1 (days - yearDays y)
  [y, r.1, r.2 + 1, n / 3600 % 24, n / 60 % 60, n % 60]

/-- R322: the date and time in the EPOCH layout. -/
def dateBytes (d : List Nat) : List Byte :=
  le 2 (at_ 0 d 0) ++ le 1 (at_ 0 d 1) ++ le 1 (at_ 0 d 2) ++ le 1 (at_ 0 d 3) ++ le 1 (at_ 0 d 4) ++ le 1 (at_ 0 d 5) ++ le 1 0

/-- The date that the EPOCH layout spells at an offset. -/
def dateOf (p : List Byte) (o : Nat) : List Nat := [u16 p o, u8 p (o + 2), u8 p (o + 3), u8 p (o + 4), u8 p (o + 5), u8 p (o + 6)]

/-- The date part of the calendar clock's counters. -/
def RtcTime.date (t : RtcTime) : List Nat := [t.year, t.mon, t.day, t.hour, t.min, t.sec]

/-- R550: RTC time as seconds, held at 0xFFFFFFFE; 0xFFFFFFFF while OSF is set. -/
def rtcSeconds (s : State) : Nat := if s.rtc.osf then 0xFFFFFFFF else sat 0xFFFFFFFE (dateSeconds s.rtc.now.date)

/-! ### Wake latches (R448, R460, R461) -/

/-- R229, PWR_WAKEEN.CANARY: the canary is enabled in a mode that runs it. -/
def canaryOn (s : State) : Bool :=
  s.canary.cfg.enable == 1 && (match s.pwr.mode with | .watch => true | .leaf => true | .relay => true | .wide => true | _ => false)

/-- R448, R461: a wake source is enabled: as PWR_WAKEEN says, and in SHELF as R448 says of PIN, FIELD and the alarms. -/
def wakeEnabled (s : State) (n : Nat) : Bool :=
  if s.pwr.mode = .shelf then
    match n with
    | 0 => true
    | 1 => bit s.pwr.cfg.shelfWake 1 && s.pwr.cfg.shelfRtc == 1
    | 2 => bit s.pwr.cfg.shelfWake 2 && s.pwr.cfg.shelfRtc == 1
    | 4 => bit s.pwr.cfg.shelfWake 0
    | _ => bit s.pwr.wakeEn n
  else if n = 3 then canaryOn s
  else bit s.pwr.wakeEn n

def depthCode : Depth → Nat
  | .none => 0 | .doze => 1 | .nap => 2 | .hibernate => 3

/-- The deeper of two depths. -/
def deeper (a b : Depth) : Depth := if depthCode a < depthCode b then b else a
def shallower (a b : Depth) : Depth := if depthCode a < depthCode b then a else b

/-- The core goes on after a stall; a boot ROM that slept repeats its checks (R626). -/
def Core.resume (c : Core) : Core := { c with run := if c.pc = 0 then .rom else .running }

/-- R591, R592, R625: step 7 of R480: the application core starts in boot ROM and the port grant takes its setting. -/
def releaseCore (s : State) : State :=
  { s with core := { s.core with run := .rom, pc := 0 }, boot := { s.boot with released := true, coreRestart := false }, pwr := { s.pwr with appDepth := .none },
           port := { s.port with grant := s.port.grantCfg == 1 } }

/-- R452: a pending PWR_SLEEP write completes with a RESULT. -/
def endAppSleep (result : Nat) (s : State) : State :=
  if s.core.run == .stalledSleep then
    updCore Core.resume (updPwr (fun p => { p with appDepth := .none, result := result, resultDepth := if result = 1 then deeper p.resultDepth .doze else p.resultDepth }) s)
  else s

/-- R461: what a set latch wakes while the network core is clocked. -/
def deliverWake (s : State) : State :=
  let app : Bool := s.pwr.latch &&& s.pwr.wakeApp != 0
  let s1 := if app then endAppSleep 1 s else s
  let s2 := if app && s.boot.stage == .up && !s.boot.released && !s.boot.coreRestart && s.upd.broken != some 2 then releaseCore s1 else s1
  if s.pwr.latch &&& s.pwr.cfg.hostWake != 0 then updPwr (fun p => { p with hostDepth := .none }) s2 else s2

/-- R460, R461: a source sets its wake latch n (wake id 0x10 + n) while its enable is 1, and its wake is delivered. The instant of the first
latch after a commit is kept for the last-wake record. -/
def latchSet (n : Nat) (s : State) : State :=
  if !wakeEnabled s n then s
  else
    let down : Bool := s.pwr.phase == .committed || s.pwr.phase == .asleep
    let s1 := updPwr (fun p => { p with latch := setBit p.latch n true,
                                        latchAt := if p.latchAt.isNone && down then some (s.clk.mtime, rtcSeconds s) else p.latchAt }) s
    if s.pwr.phase == .awake then deliverWake s1 else s1

/-- R462: the armed APPTIMER compare is met; while its enable is 0 it stays armed. -/
def appTimer (s : State) : State :=
  if s.pwr.armed && mtReached s.pwr.wakeAt s.clk.mtime && wakeEnabled s 7 then updPwr (fun p => { p with armed := false }) (latchSet 7 s) else s

end Sys2Proof.Machine
end

