-- ==== Sys2Proof/Machine/Crypto.lean ====
section
/-! DEFINITION. The algorithms the spec names by their published standards (R52, R197, R258, R412, R415, R420, R437, R439, R508):
CRCs, AES, CMAC, CCM*, GCM, key wrap, SHA-256 and ECDSA P-256 verification. -/

namespace Sys2Proof.Machine

/-! ### Cyclic redundancy checks -/

/-- One bit of a reflected CRC: least significant bit first. -/
def crcBit (poly c : Nat) : Nat := if c % 2 = 1 then c / 2 ^^^ poly else c / 2

/-- One octet of a reflected CRC. -/
def crcOctet (poly c : Nat) (b : Byte) : Nat := Nat.repeat (crcBit poly) 8 (c ^^^ b.toNat)

/-- R197: the 32-bit FCS over the octets. -/
def crc32 (l : List Byte) : Nat := l.foldl (crcOctet 0xEDB88320) 0xFFFFFFFF ^^^ 0xFFFFFFFF

/-- One bit of the loop of R203, which R227 shares. -/
def crc8Bit (c : Nat) (h : Bool) : Nat :=
  let fb := (c.testBit 7) != h
  let d := c * 2 % 256
  if fb then d ^^^ 0x07 else d

/-- R203, R227: the check over bits in transmit order, from a starting register. -/
def crc8 (start : Nat) (bs : List Bool) : Nat := bs.foldl crc8Bit start

/-- The bits of `n`, `k` of them, least significant first. -/
def bitsLsb : Nat → Nat → List Bool
  | 0, _ => []
  | k + 1, n => n.testBit 0 :: bitsLsb k (n / 2)

/-- The bits of `n`, `k` of them, most significant first. -/
def bitsMsb (k n : Nat) : List Bool := (bitsLsb k n).reverse

/-- R206: one output of the PN9 sequence. -/
def pn9Bit (r : Nat) : Bool := r.testBit 8 != r.testBit 4
def pn9Next (r : Nat) : Nat := (r * 2 + b2n (pn9Bit r)) % 512

/-- Eight outputs of the sequence, the first in bit 0, and the register after them. -/
def pn9Octet : Nat → Nat → Nat × Nat
  | 0, r => (0, r)
  | k + 1, r =>
    let q := pn9Octet k (pn9Next r)
    (b2n (pn9Bit r) + 2 * q.1, q.2)

/-- R206: PSDU octets scrambled, or descrambled, from a register. -/
def pn9 (r : Nat) : List Byte → List Byte
  | [] => []
  | b :: l => let q := pn9Octet 8 r; (b ^^^ BitVec.ofNat 8 q.1) :: pn9 q.2 l

/-! ### AES (FIPS 197) -/

/-- The S-box, entry `i` in bits [8i+7:8i]. -/
def sboxN : Nat := 0x16bb54b00f2d99416842e6bf0d89a18cdf2855cee9871e9b948ed9691198f8e19e1dc186b95735610ef6034866b53e708a8bbd4b1f74dde8c6b4a61c2e2578ba08ae7a65eaf4566ca94ed58d6d37c8e779e4959162acd3c25c2406490a3a32e0db0b5ede14b8ee4688902a22dc4f816073195d643d7ea7c41744975fec130ccdd2f3ff1021dab6bcf5389d928f40a351a89f3c507f02f94585334d43fbaaefd0cf584c4a39becb6a5bb1fc20ed00d153842fe329b3d63b52a05a6e1b1a2c830975b227ebe28012079a059618c323c7041531d871f1e5a534ccf73f362693fdb7c072a49cafa2d4adf04759fa7dc982ca76abd7fe2b670130c56f6bf27b777c63
/-- The inverse S-box. -/
def isboxN : Nat := 0x7d0c2155631469e126d677ba7e042b17619953833cbbebc8b0f52aae4d3be0a0ef9cc9939f7ae52d0d4ab519a97f51605fec8027591012b131c7078833a8dd1ff45acd78fec0db9a2079d2c64b3e56fc1bbe18aa0e62b76f89c5291d711af1476edf751ce837f9e28535ade72274ac9673e6b4f0cecff297eadc674f4111913a6b8a130103bdafc1020f3fca8f1e2cd00645b3b80558e4f70ad3bc8c00abd890849d8da75746155edab9edfd5048706c92b6655dcc5ca4d41698688664f6f87225d18b6d49a25b76b224d92866a12e084ec3fa420b954cee3d23c2a632947b54cbe9dec444438e3487ff2f9b8239e37cfbd7f3819ea340bf38a53630d56a0952

def subByte (b : Byte) : Byte := BitVec.ofNat 8 (sboxN >>> (8 * b.toNat))
def isubByte (b : Byte) : Byte := BitVec.ofNat 8 (isboxN >>> (8 * b.toNat))

def xorB (a b : List Byte) : List Byte := a.zipWith (· ^^^ ·) b

/-- Multiplication by x in the AES field. -/
def xtime (b : Byte) : Byte := if b.getLsbD 7 then (b <<< 1) ^^^ 0x1B#8 else b <<< 1

/-- Multiplication in the AES field by a factor of at most four bits. -/
def gmul (k : Nat) (b : Byte) : Byte :=
  let b2 := xtime b; let b4 := xtime b2; let b8 := xtime b4
  (if k.testBit 0 then b else 0) ^^^ (if k.testBit 1 then b2 else 0) ^^^ (if k.testBit 2 then b4 else 0) ^^^ (if k.testBit 3 then b8 else 0)

def mixCol (m : List Nat) (c : List Byte) : List Byte :=
  let g (r : Nat) : Byte := (List.range 4).foldl (fun a j => a ^^^ gmul (m.getD ((j + 4 - r) % 4) 0) (c.getD j 0)) 0
  [g 0, g 1, g 2, g 3]

def mixCols (m : List Nat) (st : List Byte) : List Byte :=
  (List.range 4).flatMap (fun c => mixCol m (slice st (4 * c) 4))

def pick (idx : List Nat) (st : List Byte) : List Byte := idx.map (fun i => st.getD i 0)
def shiftRowsIdx : List Nat := [0, 5, 10, 15, 4, 9, 14, 3, 8, 13, 2, 7, 12, 1, 6, 11]
def ishiftRowsIdx : List Nat := [0, 13, 10, 7, 4, 1, 14, 11, 8, 5, 2, 15, 12, 9, 6, 3]

/-- Key expansion: words still to make, their index, the round constant and the words so far, newest first. -/
def aesExpand (nk : Nat) : Nat → Nat → Byte → List (List Byte) → List (List Byte)
  | 0, _, _, ws => ws.reverse
  | k + 1, i, rc, ws =>
    let prev := ws.headD []
    let back := ws.getD (nk - 1) []
    let t := if i % nk = 0 then xorB ((pick [1, 2, 3, 0] prev).map subByte) [rc, 0, 0, 0]
             else if 6 < nk && i % nk == 4 then prev.map subByte else prev
    aesExpand nk k (i + 1) (if i % nk = 0 then xtime rc else rc) (xorB back t :: ws)

/-- The round keys of a 16- or 32-octet key. -/
def aesKeys (key : List Byte) : List (List Byte) :=
  let nk := key.length / 4
  let total := 4 * (nk + 7)
  let w0 := ((List.range nk).map (fun i => slice key (4 * i) 4)).reverse
  let ws := aesExpand nk (total - nk) nk 1 w0
  (List.range (nk + 7)).map (fun r => (ws.drop (4 * r)).take 4 |>.flatten)

def aesRounds (st : List Byte) : List (List Byte) → List Byte
  | [] => st
  | [k] => xorB (pick shiftRowsIdx (st.map subByte)) k
  | k :: r => aesRounds (xorB (mixCols [2, 3, 1, 1] (pick shiftRowsIdx (st.map subByte))) k) r

/-- One block encrypted under round keys. -/
def aesBlock (ks : List (List Byte)) (b : List Byte) : List Byte := aesRounds (xorB b (ks.headD [])) ks.tail

def aesInvRounds (st : List Byte) : List (List Byte) → List Byte
  | [] => st
  | [k] => xorB ((pick ishiftRowsIdx st).map isubByte) k
  | k :: r => aesInvRounds (mixCols [14, 11, 13, 9] (xorB ((pick ishiftRowsIdx st).map isubByte) k)) r

/-- One block decrypted under round keys. -/
def aesInvBlock (ks : List (List Byte)) (b : List Byte) : List Byte :=
  let rs := ks.reverse
  aesInvRounds (xorB b (rs.headD [])) rs.tail

/-! ### CMAC (SP 800-38B) -/

/-- The blocks of a string, the last one possibly short; `n` bounds their number. -/
def blocks16 : Nat → List Byte → List (List Byte)
  | 0, _ => []
  | _ + 1, [] => []
  | n + 1, l => l.take 16 :: blocks16 n (l.drop 16)

def blocksOf (l : List Byte) : List (List Byte) := blocks16 (l.length / 16 + 1) l

def pad16 (b : List Byte) : List Byte := b ++ List.replicate (16 - b.length) 0

/-- Doubling in the field of CMAC. -/
def dbl (b : List Byte) : List Byte :=
  let n := unbe b
  be 16 (if n.testBit 127 then (n * 2 % 2 ^ 128) ^^^ 0x87 else n * 2)

def cbcMac (ks : List (List Byte)) (st : List Byte) : List (List Byte) → List Byte
  | [] => st
  | b :: r => cbcMac ks (aesBlock ks (xorB st b)) r

def zero16 : List Byte := List.replicate 16 0

/-- The 16-octet CMAC of a message under a key. -/
def cmac (key msg : List Byte) : List Byte :=
  let ks := aesKeys key
  let k1 := dbl (aesBlock ks zero16)
  let bs := blocksOf msg
  let last := bs.getLastD []
  let fin := if last.length = 16 then xorB last k1 else xorB (pad16 (last ++ [0x80#8])) (dbl k1)
  cbcMac ks zero16 (bs.dropLast ++ [fin])

/-! ### Counter mode, CCM* (IEEE Std 802.15.4) and GCM (SP 800-38D) -/

/-- The key stream of counter blocks `mk c`, `mk (c+1)`, … over the blocks of a text. -/
def ctrMode (ks : List (List Byte)) (mk : Nat → List Byte) (c : Nat) : List (List Byte) → List Byte
  | [] => []
  | b :: r => xorB b (aesBlock ks (mk c)) ++ ctrMode ks mk (c + 1) r

/-- CCM* with a 13-octet nonce: counter block `i`. -/
def ccmCtr (nonce : List Byte) (i : Nat) : List Byte := 0x01#8 :: nonce ++ be 2 i

/-- The CBC-MAC of CCM* over authenticated data and text, with a tag of `t` octets. -/
def ccmMac (ks : List (List Byte)) (nonce aad text : List Byte) (t : Nat) : List Byte :=
  let flags := (if aad = [] then 0 else 64) + 8 * ((t - 2) / 2) + 1
  let b0 := BitVec.ofNat 8 flags :: nonce ++ be 2 text.length
  let a := if aad = [] then [] else (blocksOf (be 2 aad.length ++ aad)).map pad16
  cbcMac ks zero16 (b0 :: a ++ (blocksOf text).map pad16)

/-- CCM* encryption: ciphertext and tag. -/
def ccmEncrypt (key nonce aad text : List Byte) (t : Nat) : List Byte × List Byte :=
  let ks := aesKeys key
  let tag := xorB (ccmMac ks nonce aad text t) (aesBlock ks (ccmCtr nonce 0))
  (ctrMode ks (ccmCtr nonce) 1 (blocksOf text), tag.take t)

/-- CCM* decryption: the plaintext, and whether the tag verifies. -/
def ccmDecrypt (key nonce aad ct tag : List Byte) : List Byte × Bool :=
  let ks := aesKeys key
  let text := ctrMode ks (ccmCtr nonce) 1 (blocksOf ct)
  let want := xorB (ccmMac ks nonce aad text tag.length) (aesBlock ks (ccmCtr nonce 0))
  (text, want.take tag.length == tag)

/-- One step of the GHASH product: the running product, and the second factor shifted. -/
def ghStep (x : Nat) : Nat → Nat → Nat → Nat
  | 0, z, _ => z
  | k + 1, z, v =>
    ghStep x k (if x.testBit k then z ^^^ v else z) (if v % 2 = 1 then v / 2 ^^^ 0xE1000000000000000000000000000000 else v / 2)

/-- The product in the field of GHASH, most significant bit first. -/
def ghMul (x y : Nat) : Nat := ghStep x 128 0 y

def ghash (h : Nat) (l : List Byte) : Nat :=
  (blocksOf l).foldl (fun a b => ghMul (a ^^^ unbe (pad16 b)) h) 0

def padTo16 (l : List Byte) : List Byte := l ++ List.replicate ((16 - l.length % 16) % 16) 0

/-- The GCM tag of a ciphertext under a 96-bit nonce. -/
def gcmTag (ks : List (List Byte)) (nonce aad ct : List Byte) : List Byte :=
  let h := unbe (aesBlock ks zero16)
  let s := ghash h (padTo16 aad ++ padTo16 ct ++ be 8 (8 * aad.length) ++ be 8 (8 * ct.length))
  xorB (be 16 s) (aesBlock ks (nonce ++ be 4 1))

def gcmEncrypt (key nonce aad text : List Byte) (t : Nat) : List Byte × List Byte :=
  let ks := aesKeys key
  let ct := ctrMode ks (fun i => nonce ++ be 4 i) 2 (blocksOf text)
  (ct, (gcmTag ks nonce aad ct).take t)

def gcmDecrypt (key nonce aad ct tag : List Byte) : List Byte × Bool :=
  let ks := aesKeys key
  (ctrMode ks (fun i => nonce ++ be 4 i) 2 (blocksOf ct), (gcmTag ks nonce aad ct).take tag.length == tag)

/-! ### Key unwrap (RFC 3394) and derivation (SP 800-108, R415) -/

/-- One unwrap step for the counter value `t`: `A` and the registers, register `i` counted from 0. -/
def unwrapStep (ks : List (List Byte)) (n t : Nat) (a : List Byte) (r : List (List Byte)) : List Byte × List (List Byte) :=
  let i := (t - 1) % n
  let b := aesInvBlock ks (xorB a (be 8 t) ++ r.getD i [])
  (b.take 8, r.set i (b.drop 8))

def unwrapLoop (ks : List (List Byte)) (n : Nat) : Nat → List Byte → List (List Byte) → List Byte × List (List Byte)
  | 0, a, r => (a, r)
  | t + 1, a, r => let q := unwrapStep ks n (t + 1) a r; unwrapLoop ks n t q.1 q.2

/-- The plaintext of a wrapped key, when its integrity check passes (R412). -/
def keyUnwrap (kek w : List Byte) : Option (List Byte) :=
  let n := w.length / 8 - 1
  let q := unwrapLoop (aesKeys kek) n (6 * n) (w.take 8) ((List.range n).map (fun i => slice w (8 * (i + 1)) 8))
  if q.1 = List.replicate 8 0xA6#8 then some q.2.flatten else none

/-- R415 DERIVED: the key of a label and type under the root key. -/
def deriveKey (root label : List Byte) (type : Nat) : List Byte :=
  let l := if type = 2 then 256 else 128
  let block (i : Nat) : List Byte := cmac root (be 1 i ++ label ++ [0x00#8] ++ be 1 type ++ be 2 l)
  if type = 2 then block 1 ++ block 2 else block 1

/-- R409 KCV: the first 3 octets of the encryption of 16 zero octets. -/
def kcv (key : List Byte) : List Byte := (aesBlock (aesKeys key) zero16).take 3

/-! ### SHA-256 (FIPS 180-4) -/

/-- Round constants, constant `i` in bits [32i+31:32i]. -/
def shaKN : Nat := 0xc67178f2bef9a3f7a4506ceb90befffa8cc7020884c8781478a5636f748f82ee682e6ff35b9cca4f4ed8aa4a391c0cb334b0bcb52748774c1e376c0819a4c116106aa070f40e3585d6990624d192e819c76c51a3c24b8b70a81a664ba2bfe8a192722c8581c2c92e766a0abb650a735453380d134d2c6dfc2e1b213827b70a851429296706ca6351d5a79147c6e00bf3bf597fc7b00327c8a831c66d983e515276f988da5cb0a9dc4a7484aa2de92c6f240ca1cc0fc19dc6efbe4786e49b69c1c19bf1749bdc06a780deb1fe72be5d74550c7dc3243185be12835b01d807aa98ab1c5ed5923f82a459f111f13956c25be9b5dba5b5c0fbcf71374491428a2f98
def shaK (i : Nat) : Word := BitVec.ofNat 32 (shaKN >>> (32 * i))
def shaInit : List Word := [0x6A09E667#32, 0xBB67AE85#32, 0x3C6EF372#32, 0xA54FF53A#32, 0x510E527F#32, 0x9B05688C#32, 0x1F83D9AB#32, 0x5BE0CD19#32]

def rotr (x : Word) (n : Nat) : Word := x.rotateRight n
def shaS0 (x : Word) : Word := rotr x 7 ^^^ rotr x 18 ^^^ (x >>> 3)
def shaS1 (x : Word) : Word := rotr x 17 ^^^ rotr x 19 ^^^ (x >>> 10)

/-- Rounds still to run, the round number, the working variables, and the next 16 words of the schedule. -/
def shaRounds : Nat → Nat → List Word → List Word → List Word
  | 0, _, v, _ => v
  | k + 1, i, v, w =>
    match v with
    | [a, b, c, d, e, f, g, h] =>
      let w0 := w.headD 0
      let t1 := h + (rotr e 6 ^^^ rotr e 11 ^^^ rotr e 25) + ((e &&& f) ^^^ (~~~e &&& g)) + shaK i + w0
      let t2 := (rotr a 2 ^^^ rotr a 13 ^^^ rotr a 22) + ((a &&& b) ^^^ (a &&& c) ^^^ (b &&& c))
      let nw := shaS1 (w.getD 14 0) + w.getD 9 0 + shaS0 (w.getD 1 0) + w0
      shaRounds k (i + 1) [t1 + t2, a, b, c, d + t1, e, f, g] (w.drop 1 ++ [nw])
    | _ => v

def shaBlock (h : List Word) (b : List Byte) : List Word :=
  let w := (List.range 16).map (fun i => BitVec.ofNat 32 (unbe (slice b (4 * i) 4)))
  h.zipWith (· + ·) (shaRounds 64 0 h w)

def shaBlocks : Nat → List Word → List Byte → List Word
  | 0, h, _ => h
  | n + 1, h, l => shaBlocks n (shaBlock h (l.take 64)) (l.drop 64)

/-- The 32-octet digest. -/
def sha256 (m : List Byte) : List Byte :=
  let z := (119 - m.length % 64) % 64
  let p := m ++ 0x80#8 :: List.replicate z 0 ++ be 8 (8 * m.length)
  (shaBlocks (p.length / 64) shaInit p).flatMap (fun w => be 4 w.toNat)

/-! ### ECDSA P-256 verification (FIPS 186-5) -/

def p256P : Nat := 0xFFFFFFFF00000001000000000000000000000000FFFFFFFFFFFFFFFFFFFFFFFF
def p256N : Nat := 0xFFFFFFFF00000000FFFFFFFFFFFFFFFFBCE6FAADA7179E84F3B9CAC2FC632551
def p256B : Nat := 0x5AC635D8AA3A93E7B3EBBD55769886BC651D06B0CC53B0F63BCE3C3E27D2604B
def p256G : Nat × Nat :=
  (0x6B17D1F2E12C4247F8BCE6E563A440F277037D812DEB33A0F4A13945D898C296,
   0x4FE342E2FE1A7F9B8EE7EB4A7C0F9E162BCE33576B315ECECBB6406837BF51F5)

/-- `b` to the power whose low `k` bits are those of `e`, modulo `m`. -/
def powMod (m b : Nat) : Nat → Nat → Nat
  | 0, _ => 1
  | k + 1, e =>
    let h := powMod m b k (e / 2)
    let q := h * h % m
    if e % 2 = 1 then q * b % m else q

/-- The inverse modulo a prime. -/
def invMod (m a : Nat) : Nat := powMod m (a % m) 256 (m - 2)

def subMod (m a b : Nat) : Nat := (a + m - b % m) % m

/-- A point of the curve, `none` the point at infinity. -/
abbrev EcPoint := Option (Nat × Nat)

def ecAdd (p q : EcPoint) : EcPoint :=
  match p, q with
  | none, _ => q
  | _, none => p
  | some (x1, y1), some (x2, y2) =>
    if x1 = x2 ∧ (y1 + y2) % p256P = 0 then none
    else
      let l := if x1 = x2 then (3 * x1 * x1 + (p256P - 3)) * invMod p256P (2 * y1) % p256P
               else subMod p256P y2 y1 * invMod p256P (subMod p256P x2 x1) % p256P
      let x3 := subMod p256P (subMod p256P (l * l) x1) x2
      some (x3, subMod p256P (l * subMod p256P x1 x3) y1)

/-- A multiple of a point, the low `k` bits of `e`. -/
def ecMul (p : EcPoint) : Nat → Nat → EcPoint
  | 0, _ => none
  | k + 1, e =>
    let h := ecMul p k (e / 2)
    let d := ecAdd h h
    if e % 2 = 1 then ecAdd d p else d

/-- The coordinates are below the prime and satisfy the curve's equation. -/
def onCurve (x y : Nat) : Bool :=
  decide (x < p256P) && decide (y < p256P) && (y * y % p256P == (x * x % p256P * x + (p256P - 3) * x + p256B) % p256P)

/-- R439: 0 valid, 1 invalid, 2 the public key is not on the curve. -/
def ecdsaVerify (digest pub sig : List Byte) : Nat :=
  let x := unbe (slice pub 0 32); let y := unbe (slice pub 32 32)
  let r := unbe (slice sig 0 32); let s := unbe (slice sig 32 32)
  if !onCurve x y then 2
  else if r = 0 ∨ p256N ≤ r ∨ s = 0 ∨ p256N ≤ s then 1
  else
    let w := invMod p256N s
    let u1 := unbe digest * w % p256N
    let u2 := r * w % p256N
    match ecAdd (ecMul (some p256G) 256 u1) (ecMul (some (x, y)) 256 u2) with
    | none => 1
    | some (px, _) => if px % p256N = r then 0 else 1

end Sys2Proof.Machine
end

