-- ==== Sys2Proof/Machine/Serve.lean ====
section
/-! DEFINITION. How the firmware serves a request: the table of opcodes, the checks of R53, the response of R47 and its trailer (R55). -/

namespace Sys2Proof.Machine

/-- The payload sizes an opcode takes (R46): from `lo` to `hi`; where `w` is not 0, exactly
`base + mul × (the field of w octets at off)`. -/
structure LenRule where
  lo : Nat
  hi : Nat
  base : Nat
  mul : Nat
  off : Nat
  w : Nat
  deriving DecidableEq, Repr

def LenRule.fix (n : Nat) : LenRule := ⟨n, n, 0, 0, 0, 0⟩
def LenRule.range (lo hi : Nat) : LenRule := ⟨lo, hi, 0, 0, 0, 0⟩

/-- What the tables of the chapters say of an opcode: critical (R51), whether it changes state (R41, R98), and its payload. -/
structure Cmd where
  op : Nat
  critical : Bool
  sets : Bool
  len : LenRule
  deriving DecidableEq, Repr

def getC (op n : Nat) : Cmd := ⟨op, false, false, .fix n⟩
def setC (op n : Nat) : Cmd := ⟨op, false, true, .fix n⟩
def critC (op n : Nat) : Cmd := ⟨op, true, true, .fix n⟩

/-- R51: system, modes, options, counters, events, survey, shots. -/
def cmds01 : List Cmd :=
  [getC 0x0100 0, getC 0x0101 0, setC 0x0102 8, setC 0x0103 4, setC 0x0110 4, getC 0x0111 0, critC 0x0112 4, critC 0x0120 4,
   getC 0x0130 4, ⟨0x0131, true, true, ⟨5, 232, 4, 1, 2, 2⟩⟩, getC 0x0140 0, critC 0x0141 8, setC 0x0150 4, getC 0x0151 4,
   setC 0x0180 0, ⟨0x0181, false, true, .range 8 236⟩, setC 0x0182 16, setC 0x0183 4, getC 0x0184 0]

/-- R148: radio. -/
def cmds02 : List Cmd :=
  [getC 0x0200 0, setC 0x0201 8, getC 0x0202 0, setC 0x0203 4, getC 0x0204 0, setC 0x0205 36, getC 0x0206 0, setC 0x0207 8,
   getC 0x0208 0, setC 0x0209 8, getC 0x020A 0, setC 0x0210 4, setC 0x0211 12, setC 0x0212 16, getC 0x0218 4, setC 0x0220 12,
   setC 0x0221 0]

/-- R182, R220: lanes and PHY. -/
def cmds03 : List Cmd :=
  [getC 0x0300 0, setC 0x0301 20, getC 0x0302 4, getC 0x0310 4, setC 0x0320 16, getC 0x0321 4, getC 0x0322 4, getC 0x0323 4]

/-- R244: canary. -/
def cmds04 : List Cmd := [getC 0x0400 0, setC 0x0401 36, getC 0x0402 0, setC 0x0410 24, getC 0x0418 4]

/-- R287: link. -/
def cmds05 : List Cmd :=
  [getC 0x0500 0, setC 0x0501 56, getC 0x0502 0, setC 0x0510 72, getC 0x0511 4, getC 0x0512 12, setC 0x0520 16, getC 0x0521 4,
   getC 0x0522 4, ⟨0x0530, false, true, ⟨16, 48, 16, 1, 12, 1⟩⟩, ⟨0x0531, false, true, ⟨24, 88, 24, 1, 20, 1⟩⟩, getC 0x0540 4]

/-- R321: timing. -/
def cmds06 : List Cmd :=
  [getC 0x0600 0, setC 0x0601 44, getC 0x0602 0, ⟨0x0603, false, true, ⟨8, 68, 4, 4, 1, 1⟩⟩, getC 0x0604 4, getC 0x0608 4,
   setC 0x0610 12, setC 0x0611 4, setC 0x0612 4, getC 0x0620 0, getC 0x0630 4]

/-- R347: tally. -/
def cmds07 : List Cmd :=
  [setC 0x0700 4, getC 0x0701 0, setC 0x0702 40, getC 0x0703 4, getC 0x0710 4, getC 0x0711 12, getC 0x0718 4, setC 0x0720 4]

/-- R373: queues. -/
def cmds08 : List Cmd :=
  [getC 0x0800 0, setC 0x0801 8, getC 0x0802 4, getC 0x0803 4, setC 0x0804 4, getC 0x0805 0, setC 0x0810 4, getC 0x0818 4]

/-- R400: scheduler. -/
def cmds09 : List Cmd :=
  [getC 0x0900 0, setC 0x0901 12, getC 0x0902 4, getC 0x0903 4, setC 0x0904 12, getC 0x0905 4, getC 0x0910 4]

/-- R433: cipher engine and key store. -/
def cmds0A : List Cmd :=
  [getC 0x0A00 0, getC 0x0A01 4, setC 0x0A02 4, critC 0x0A10 56, critC 0x0A11 4, setC 0x0A12 24, setC 0x0A20 48, getC 0x0A21 4,
   setC 0x0A22 12, setC 0x0A23 160, getC 0x0A30 4]

/-- R513: flash. -/
def cmds0B : List Cmd :=
  [getC 0x0B00 0, getC 0x0B10 8, ⟨0x0B11, false, true, ⟨8, 240, 8, 1, 4, 2⟩⟩, setC 0x0B12 4, getC 0x0B13 4, getC 0x0B18 4]

/-- R541: update. -/
def cmds0C : List Cmd :=
  [getC 0x0C00 0, setC 0x0C10 8, ⟨0x0C11, false, true, ⟨8, 240, 8, 1, 4, 2⟩⟩, setC 0x0C12 0, critC 0x0C20 4, critC 0x0C21 12, setC 0x0C22 4]

/-- R562: RTC. -/
def cmds0D : List Cmd := [getC 0x0D00 0, getC 0x0D01 0, setC 0x0D02 16, setC 0x0D03 12, getC 0x0D04 4, setC 0x0D05 4]

/-- R593: commissioning port. -/
def cmds0E : List Cmd :=
  [getC 0x0E00 4, setC 0x0E01 4, getC 0x0E02 0, getC 0x0E10 4, ⟨0x0E11, false, true, ⟨4, 240, 4, 32, 1, 1⟩⟩, critC 0x0E20 20,
   critC 0x0E21 4, getC 0x0E22 4, getC 0x0E30 0, setC 0x0E31 0]

/-- R469: power. -/
def cmds0F : List Cmd := [getC 0x0F00 4, setC 0x0F01 16, getC 0x0F02 0, setC 0x0F10 4]

/-- Every opcode the device defines (R50). -/
def cmdTable : List Cmd :=
  cmds01 ++ cmds02 ++ cmds03 ++ cmds04 ++ cmds05 ++ cmds06 ++ cmds07 ++ cmds08 ++ cmds09 ++ cmds0A ++ cmds0B ++ cmds0C ++ cmds0D ++
  cmds0E ++ cmds0F

def cmdOf (op : Nat) : Option Cmd := cmdTable.find? (fun c => c.op == op)

/-- R46: the LENGTH and the size fields of a request agree with the opcode. -/
def LenRule.ok (r : LenRule) (n : Nat) (payload : List Byte) : Bool :=
  decide (r.lo ≤ n) && decide (n ≤ r.hi) &&
    (r.w == 0 || n == r.base + r.mul * unle (slice payload r.off r.w))

/-- R48 BAD_LENGTH: the expected length, 0xFFFF when variable. -/
def LenRule.expect (r : LenRule) : Nat := if r.lo = r.hi then r.lo else 0xFFFF

/-! ### Requests and responses (R44 to R48, R52, R55) -/

/-- The trailer of a message: the first 8 octets of the CMAC over header and payload (R52). -/
def trailer (key head payload : List Byte) : List Byte := (cmac key (head ++ payload)).take 8

/-- The response message: header, payload and, under a key, its trailer. -/
def response (req : List Byte) (st det : Nat) (body : List Byte) (auth : Option (List Byte)) : List Byte :=
  let head := slice req 0 4 ++ le 2 body.length ++ le 2 (2 + b2n auth.isSome) ++ slice req 8 4 ++ le 2 st ++ le 2 det
  match auth with
  | none => head ++ body
  | some k => head ++ body ++ trailer k head body

/-- The command key in force (R52, R408). -/
def commandKey (s : State) : List Byte := (tget KeySlot.empty 1 s.cipher.slot).key

/-- R52: the trailer of a request is right under the command key. -/
def trailerOk (s : State) (req : List Byte) : Bool :=
  let n := u16 req 4
  let head := slice req 0 12 ++ List.replicate 4 0
  slice req (16 + n) 8 == trailer (commandKey s) head (slice req 16 n)

/-- R424, R426: an AES operation over `n` octets asks the mask DRBG once for each block of 16 octets, and once more (log 28). -/
def maskUse (n : Nat) (s : State) : State := updCipher (fun c => { c with maskReq := sat 0xFFFFFFFF (c.maskReq + cdiv n 16 + 1) }) s

/-- R58: 60 s of slow-clock periods. -/
def lockoutPeriods : Nat := 60 * 32768

/-- R58: a trailer failure of a requester. -/
def trailerFailed (r : Requester) (s : State) : State :=
  let n := sat 0xFF (pget s.mbx.fails r + 1)
  updMbx (fun m => { m with fails := pset m.fails r n, lockout := if 8 ≤ n then pset m.lockout r lockoutPeriods else m.lockout }) s

/-! ### Units that quiesce (R78, R96, R98) -/

/-- The unit of an entry of a shot (R89, R96). -/
def Entry.unit : Entry → Nat
  | .mbx op _ => bits op 8 8
  | .reg _ _ _ => 1

/-- The affected units of a shot: bit n for unit id n (R96, R107). -/
def unitMask (es : List Entry) : Nat := es.foldl (fun a e => a ||| 2 ^ e.unit) 0

/-- R95, R98: a shot whose quiesce has begun affects the unit, or a consistent survey is capturing it (R78). -/
def quiescing (s : State) (unit : Nat) : Bool :=
  s.shots.buf.any (fun b => b.state == .quiescing && b.begun && !b.saving && (unitMask b.entries).testBit unit) ||
  (match s.mbx.survey with
   | some v => v.consistent && !v.captured && v.units.contains unit
   | none => false)

/-- A unit may start new work: no shot quiesces it (R96), and no entry to a power state has begun (R456). -/
def working (s : State) (unit : Nat) : Bool := s.pwr.phase == .awake && !quiescing s unit

/-- R41 does not hold these back: the system group has the rules of its own chapters (R84 to R109, R445), and these commands end or
continue the background work they would wait for (log 25). -/
def r41Exempt (op : Nat) : Bool :=
  bits op 8 8 == 1 || [0x0221, 0x0F10].contains op

/-- R41, R98: a command that has passed its own checks and would change the state of a unit that quiesces, or whose unit has
background work, is answered with BUSY and has no effect. -/
def holdBack (c : Cmd) (s : State) (r : Res) : Res :=
  let u := bits c.op 8 8
  let passed := r.st == 0 || r.st == noAnswer || r.st == stPENDING || (r.st == stBUSY && r.det == 0xFF)
  if c.sets && passed && ((u != 1 && quiescing s u) || (!r41Exempt c.op && unitPending s u)) then busyR s u else r

/-! ### The loader (R533) -/

/-- The opcodes the loader serves by itself. -/
def loaderServes (op : Nat) : Bool :=
  [0x0100, 0x0101, 0x0103, 0x0111, 0x0130, 0x0131, 0x0140, 0x0141, 0x0B10, 0x0B00].contains op || bits op 8 8 == 0x0C

/-- A command's meaning at step 8 of R53. -/
abbrev CoreFn := Ctx → List Byte → State → Res

/-- Step 8: the command itself, with what holds it back. -/
def runCore (core : CoreFn) (i : Cmd) (c : Ctx) (payload : List Byte) (s : State) : Res :=
  if s.boot.stage == .loader && !loaderServes c.op then ⟨s, stMODE, 5, []⟩
  else holdBack i s (core c payload s)

/-- The response to a command that has run; none where it has brought a reset on. -/
def answer (req : List Byte) (r : Res) (auth : Option (List Byte)) : List Byte :=
  if r.st = noAnswer then [] else response req r.st r.det r.body auth

/-- R53: the checks of a request in order, and its execution. `core` gives the meaning of each opcode; `chan` is 0xFF for the
commissioning port. The answer is the response message, empty where none is written. -/
def handle (core : CoreFn) (who : Requester) (chan : Nat) (ctrFail : Option Nat) (wFail : Option (Nat × Nat)) (req : List Byte)
    (s : State) : State × List Byte :=
  let op := u16 req 0
  let n := u16 req 4
  let flags := u16 req 6
  let auth := flags.testBit 0
  let fail (t : State) (st det : Nat) : State × List Byte := (t, response req st det [] none)
  match cmdOf op with
  | none => fail s stUNKNOWN 0
  | some i =>
    if chan = 0 ∧ bits op 8 8 ≠ 1 then fail s stPARAM 0
    else if flags / 2 ≠ 0 then fail s stPARAM 6
    else if (if auth then 232 else 240) < n ∨ !i.len.ok n (slice req 16 n) then fail s stLENGTH i.len.expect
    else if i.critical && !auth then fail s stAUTH 0
    else
      let payload := slice req 16 n
      let c : Ctx := { op := op, req := who, chan := chan, seq := u16 req 2, auth := none, wFail := wFail, shot := false }
      if !auth then
        let r := runCore core i c payload s
        (r.s, answer req r none)
      else if s.cipher.halt then fail s stBUSY 0x0A
      else if 0 < pget s.mbx.lockout who then fail s stLOCKED 1
      else if !trailerOk s req then fail (trailerFailed who (maskUse (16 + n) s)) stAUTH 0
      else
        let s1 := updMbx (fun m => { m with fails := pset m.fails who 0 }) (maskUse (16 + n) s)
        if u32 req 8 ≤ pget s1.mbx.counter who then fail s1 stSTALE 0
        else
          let key := commandKey s1
          match ctrFail with
          | some b => (s1, response req stFLASH (b % 65536) [] (some key))
          | none =>
            let s2 := updMbx (fun m => { m with counter := pset m.counter who (u32 req 8) }) s1
            let r := runCore core i { c with auth := some key } payload s2
            (r.s, answer req r (some key))

/-! ### The order of service (R41) and the row of a command -/

/-- The firmware runs, and the network core is clocked (R43, R450, R533). -/
def firmwareServes (s : State) : Bool :=
  (s.mbx.netrdy || s.boot.stage == .loader) && (s.pwr.phase == .awake || s.pwr.phase == .preparing)

def chanBusy (s : State) (n : Nat) : Bool := at_ .idle s.mbx.chan n == .busy

/-- R41: the channel served next: channel 0 first, then 1 to 5 in round robin. -/
def nextServed (s : State) : Option Nat :=
  if chanBusy s 0 then some 0
  else ((List.range 5).map (fun i => (s.mbx.rr - 1 + i) % 5 + 1)).find? (chanBusy s)

/-- R38: the requester that owns a channel. -/
def chanOwner (s : State) (n : Nat) : Requester :=
  if n = 7 then .host else if bit s.mbx.own n then .host else .app

/-- The request that stands in a channel's buffer. -/
def requestOf (s : State) (n : Nat) : List Byte := rdBytes s (reqBuf n) 256

/-- R461: the firmware clears the DOORBELL latch as it takes a request. -/
def taken (s : State) : State := updPwr (fun p => { p with latch := setBit p.latch 8 false }) s

/-- R39: a response is written to its channel's buffer and the channel is DONE; the round robin goes on behind it. -/
def reply (ch : Nat) (m : List Byte) (s : State) : State :=
  updMbx (fun x => { x with chan := x.chan.set ch .done, rr := if ch = 0 then x.rr else ch % 5 + 1 }) (wrBytes s (rspBuf ch) m)

/-- The firmware takes a channel's request, executes it and writes its response (R39, R41). The row acts when its opcode stands in
the buffer of the channel that is served next; a row also answers an opcode that is not defined. -/
def serve (op : Nat) (core : CoreFn) (v : Srv) (s : State) : State :=
  let req := requestOf s v.ch
  let o := u16 req 0
  if firmwareServes s && nextServed s == some v.ch && (o == op || (cmdOf o).isNone) then
    let r := handle core (chanOwner s v.ch) v.ch v.ctrFail v.wFail req (taken s)
    if r.2.isEmpty then r.1 else reply v.ch r.2 r.1
  else s

end Sys2Proof.Machine
end

