-- ==== Sys2Proof/Machine/Settings.lean ====
section
/-! DEFINITION. The settings block: the working configuration as it is persisted and rebuilt (R104, R266, R287, R538, R539). -/

namespace Sys2Proof.Machine

/-- R266: the entry is saved. -/
def Nbr.persist (e : Nbr) : Bool := decide (e.state ≠ .free) && bit e.flags 6

/-- R266: a saved entry as it returns. -/
def Nbr.rebuilt (e : Nbr) : Nbr := { e with dupWin := [], lastAck := 0, rxOk := 0, txOk := 0, txFail := 0, retries := 0 }

/-- The working configuration as a settings block holds it. -/
def snapshot (s : State) : Settings :=
  { radio := s.radio.cfg,
    lanes := s.lanes.lane.map (fun l => l.next.getD l.cfg),
    profiles := s.lanes.profile,
    canary := s.canary.next.getD s.canary.cfg,
    link := s.link.cfg,
    nbrs := (s.link.nbr.filter (fun e => e.2.persist)).map (fun e => (e.1, e.2.rebuilt)),
    routes := s.link.route,
    parent := s.link.parent,
    timing := s.timing.cfg,
    chseq := s.timing.chseq,
    bands := s.tally.band.map (fun b => b.cfg),
    outside := s.tally.outside,
    queues := (s.qm.queue.map (fun q => (q.1, (q.2.kind, q.2.limit, q.2.stall)))).filter (fun q => q.2 != (0, 512, 100)),
    reserve := s.qm.reserve,
    flows := (s.sched.flow.map (fun f => (f.1, f.2.cfg))).filter (fun f => decide (f.2 ≠ FlowCfg.reset)),
    shapers := (s.sched.shaper.map (fun h => (h.1, h.2.next.getD h.2.cfg))).filter (fun h => decide (h.2 ≠ ShaperCfg.reset)),
    pwr := s.pwr.cfg }

/-- The generation in an area; none when it holds no block. -/
def genOf (b : Option SettingsBlock) : Option Nat := b.map (fun x => x.gen)

/-- R538: true when area B holds the block that the next one replaces. -/
def newerB (u : Upd) : Bool :=
  match genOf u.setA, genOf u.setB with
  | some a, some b => decide (a < b)
  | none, some _ => true
  | _, none => false

/-- R538: a persisting write that succeeds: the whole block goes into the other area, with the next generation. -/
def writeSettings (s : State) : State :=
  let inB := newerB s.upd
  let old := (if inB then genOf s.upd.setB else genOf s.upd.setA).getD 0
  let b : SettingsBlock := { gen := old + 1, format := s.dev.settingsFormat, body := snapshot s }
  updUpd (fun u => if inB then { u with setA := some b } else { u with setB := some b }) s

/-- R287: the answer of a SET whose OPTS names PERSIST: FLASH_FAIL with the block index when its `k`-th write fails. -/
def persistR (c : Ctx) (on : Bool) (k : Nat) (r : Res) : Res :=
  if !on || decide (r.st ≠ 0) then r
  else match c.failAt k with
    | some b => errR r.s stFLASH (b % 65536)
    | none => { r with s := writeSettings r.s }

end Sys2Proof.Machine
end

