-- ==== Sys2Proof/Machine/Tally.lean ====
section
/-! DEFINITION. The tally: bands, window, decisions and charges (R331 to R355). -/

namespace Sys2Proof.Machine

/-! ### Decisions (R332, R341) -/

def bandOf (s : State) (b : Nat) : Band := at_ Band.reset s.tally.band b

def updBand (b : Nat) (f : Band → Band) (s : State) : State := updTally (fun t => { t with band := t.band.set b (f (bandOf s b)) }) s

/-- R332: the enabled entry of lowest index that contains the carrier, given in 2^-23 Hz. -/
def matchBand (s : State) (carrier : Nat) : Option Nat :=
  (List.range 16).find? (fun b =>
    let c := (bandOf s b).cfg
    c.enable == 1 && decide (c.lower * 2 ^ 23 ≤ carrier) && decide (carrier ≤ c.upper * 2 ^ 23))

def sumList (l : List Nat) : Nat := l.foldl (· + ·) 0

/-- Reservations of a band, or those for acknowledgements only (R339). -/
def reserved (s : State) (b : Nat) (ackOnly : Bool) : Nat :=
  sumList ((s.tally.resv.filter (fun r => r.band == b && (!ackOnly || r.ack))).map (fun r => r.us))

/-- The buckets that will still be in the window after `k` rolls hold `l`, others 0 (R335). -/
def afterRolls (s : State) (k : Nat) (l : List Nat) : Nat :=
  sumList ((List.range (60 - k)).map (fun i => at_ 0 l ((s.tally.cur + k + 1 + i) % 60)))

/-- R341: used, after `k` more rolls with nothing charged. -/
def usedUs (s : State) (b k : Nat) : Nat := afterRolls s k (bandOf s b).total + reserved s b false
/-- R341: used_ack. -/
def usedAckUs (s : State) (b k : Nat) : Nat := afterRolls s k (bandOf s b).ack + reserved s b true

def limitUs (s : State) (b : Nat) : Nat := (bandOf s b).cfg.limitPpm * 3600
/-- R341: the unspent part of the acknowledgement reserve. -/
def heldUs (s : State) (b k : Nat) : Nat := (bandOf s b).cfg.reservePpm * 3600 - usedAckUs s b k

/-- R341: the band accepts `t` µs, after `k` rolls. -/
def fits (s : State) (b t : Nat) (ack : Bool) (k : Nat) : Bool :=
  let m := (bandOf s b).cfg.maxTxMs
  !(m != 0 && decide (m * 1000 < t)) &&
    decide (usedUs s b k + t + (if ack then 0 else heldUs s b k) ≤ limitUs s b)

/-- A verdict: the band (none outside) and whether the transmission may be radiated (R333, R334, R341). -/
def judge (s : State) (carrier t : Nat) (ack : Bool) : Option Nat × Bool :=
  match matchBand s carrier with
  | some b => (some b, s.tally.ready && fits s b t ack 0)
  | none => (none, s.tally.ready && s.tally.outside == 1)

/-- R354: a refusal is remembered for the next TALLY_REFUSE. -/
def noteRefusal (b : Option Nat) (t : Nat) (s : State) : State :=
  updTally (fun x => { x with refBands := x.refBands ||| 2 ^ (b.getD 15), refLast := b.getD 0xFF, refUs := t }) s

/-- R339, R341, R342: a prediction is accepted as a reservation (`some (some id)`), accepted without one (`some none`), or
refused (`none`), with the band. -/
def tallyTake (carrier t : Nat) (ack : Bool) (s : State) : State × Option Nat × Option (Option Nat) :=
  match judge s carrier t ack with
  | (some b, true) =>
    let id := s.tally.nextId
    (updTally (fun x => { x with nextId := id + 1, resv := x.resv ++ [{ id := id, band := b, us := t, ack := ack, bucket := none }] }) s,
      some b, some (some id))
  | (none, true) => (s, none, some none)
  | (some b, false) =>
    (noteRefusal (some b) t (updBand b (fun x => if ack then { x with ackDenied := inc32 x.ackDenied } else { x with refused := inc32 x.refused }) s),
      some b, none)
  | (none, false) => (noteRefusal none t (updTally (fun x => { x with outsideRefused := inc32 x.outsideRefused }) s), none, none)

/-- R348: DETAIL of a refusal. -/
def refusalDetail (b : Option Nat) : Nat := b.getD 0xFF

/-! ### Charges (R339) -/

def findResv (s : State) (id : Nat) : Option Resv := s.tally.resv.find? (fun r => r.id == id)
def dropResv (id : Nat) (s : State) : State := updTally (fun x => { x with resv := x.resv.filter (fun r => r.id != id) }) s

/-- The first symbol is radiated: the reservation takes the current bucket; outside, OUTSIDE_SENT counts (R333, R339). -/
def tallyStart (id : Option Nat) (s : State) : State :=
  match id with
  | some i => updTally (fun x => { x with resv := x.resv.map (fun r => if r.id == i then { r with bucket := some x.cur } else r) }) s
  | none => updTally (fun x => { x with outsideSent := inc32 x.outsideSent }) s

/-- A reservation ends with a charge of `us` to its bucket. -/
def chargeResv (id us : Nat) (s : State) : State :=
  match findResv s id with
  | none => s
  | some r =>
    match r.bucket with
    | none => dropResv id s
    | some k =>
      let t := min us r.us
      dropResv id (updBand r.band (fun b =>
        { b with total := b.total.set k (sat 0xFFFFFFFF (at_ 0 b.total k + t)),
                 ack := if r.ack then b.ack.set k (sat 0xFFFFFFFF (at_ 0 b.ack k + t)) else b.ack }) s)

/-- The transmission runs to its end. -/
def tallyEnd (id : Option Nat) (s : State) : State :=
  match id with
  | none => s
  | some i => match findResv s i with
    | none => s
    | some r => chargeResv i r.us s

/-- The transmission is cut short after `us` µs: CUT_SHORT. -/
def tallyCut (id : Option Nat) (us : Nat) (s : State) : State :=
  match id with
  | none => s
  | some i => updTally (fun x => { x with cutShort := inc32 x.cutShort }) (chargeResv i us s)

/-- Nothing was radiated: the reservation is released. -/
def tallyRelease (id : Option Nat) (s : State) : State :=
  match id with
  | none => s
  | some i => dropResv i s

/-! ### Records (R348 to R352) -/

def tallyCfgRec (s : State) : List Byte := le 1 s.tally.outside ++ le 3 0

def bandRec (s : State) (b : Nat) : List Byte :=
  let c := (bandOf s b).cfg
  le 1 b ++ le 1 c.enable ++ le 1 c.lbt ++ le 1 0 ++ le 4 c.lower ++ le 4 c.upper ++ le 4 c.limitPpm ++ le 4 c.reservePpm ++
    le 4 c.maxTxMs ++ le 4 c.lbtBw ++ lei 2 c.lbtThreshold ++ le 2 c.lbtListenUs ++ le 2 c.boMinMs ++ le 2 c.boMaxMs ++
    le 1 c.lbtTries ++ le 3 0

/-- R335: slow-clock periods of a bucket. -/
def bucketPeriods : Nat := 1966080

/-- Slow-clock periods in ms at the nominal rate, rounded up. -/
def periodsMs (n : Nat) : Nat := cdiv (n * 1000) 32768

def usageRec (s : State) (b : Nat) : List Byte :=
  let x := bandOf s b
  let used := usedUs s b 0
  let held := heldUs s b 0
  le 1 b ++ le 1 (x.cfg.enable + 2 * x.cfg.lbt) ++ le 1 s.tally.cur ++ le 1 0 ++ le 4 used ++ le 4 (usedAckUs s b 0) ++
    le 4 (reserved s b false) ++ le 4 (limitUs s b - used - held) ++ le 4 (limitUs s b - used) ++
    le 4 (periodsMs (bucketPeriods - s.tally.clock)) ++ le 4 (at_ 0 x.total ((s.tally.cur + 1) % 60))

def bandStats (s : State) (b : Nat) : List Byte :=
  let x := bandOf s b
  le 4 x.refused ++ le 4 x.ackDenied ++ le 4 x.lbtBusy ++ le 4 x.lbtGiveup

def nodeStats (s : State) : List Byte :=
  le 4 s.tally.outsideRefused ++ le 4 s.tally.outsideSent ++ le 4 s.tally.cutShort ++ le 4 0

/-- R351: FITS_IN_MS. -/
def fitsInMs (s : State) (b t : Nat) (ack : Bool) : Nat :=
  match (List.range 61).find? (fits s b t ack) with
  | none => 0xFFFFFFFF
  | some 0 => 0
  | some (k + 1) => periodsMs (bucketPeriods - s.tally.clock + k * bucketPeriods)

def checkRec (s : State) (hz t : Nat) (ack : Bool) : List Byte :=
  match judge s (hz * 2 ^ 23) t ack with
  | (some b, ok) =>
    let used := usedUs s b 0
    le 1 b ++ le 1 (if ok then 0 else 1) ++ le 2 0 ++ le 4 (limitUs s b - used - (if ack then 0 else heldUs s b 0)) ++
      le 4 (fitsInMs s b t ack)
  | (none, ok) => le 1 0xFF ++ le 1 (if ok then 3 else 2) ++ le 2 0 ++ le 4 (if ok then 0xFFFFFFFF else 0) ++ le 4 (if ok then 0 else 0xFFFFFFFF)

/-- R355: the survey body of unit 0x07. -/
def tallySurvey (s : State) : List Byte :=
  tallyCfgRec s ++ (List.range 16).flatMap (fun b => bandRec s b ++ usageRec s b ++ bandStats s b) ++ nodeStats s

/-! ### Commands (R347 to R353) -/

/-- R385: a flow in TALLY_NEVER is examined again when the bands change. -/
def unblockNever (s : State) : State :=
  updSched (fun x => { x with flow := tmap Flow.reset (fun f => if f.block = 5 then { f with block := 0 } else f) x.flow }) s

def tallyCfgSet : CoreFn := fun c p s =>
  guardR s [(decide (u8 p 0 ≤ 1), 0), c.optsOk p 1, rsv p 2 2] fun _ =>
    let t := unblockNever (updTally (fun x => { x with outside := u8 p 0 }) s)
    persistR c (u8 p 1 == 1) 0 (okR t (tallyCfgRec t))

def tallyCfgGet : CoreFn := fun _ _ s => okR s (tallyCfgRec s)

/-- R331, R344, R349: the entry that a request spells. -/
def bandCfgOf (p : List Byte) : BandCfg :=
  { enable := u8 p 1, lbt := u8 p 2, lower := u32 p 4, upper := u32 p 8, limitPpm := u32 p 12, reservePpm := u32 p 16,
    maxTxMs := u32 p 20, lbtBw := u32 p 24, lbtThreshold := i16 p 28, lbtListenUs := u16 p 30, boMinMs := u16 p 32,
    boMaxMs := u16 p 34, lbtTries := u8 p 36 }

def tallyBandSet : CoreFn := fun c p s =>
  let n := bandCfgOf p
  guardR s [(decide (u8 p 0 ≤ 15), 0), (decide (n.enable ≤ 1), 1), (decide (n.lbt ≤ 1), 2), c.optsOk p 3, (freqOk n.lower, 4),
    (freqOk n.upper && decide (n.lower ≤ n.upper), 8), (decide (1 ≤ n.limitPpm ∧ n.limitPpm ≤ 1000000), 12),
    (decide (n.reservePpm ≤ n.limitPpm), 16), (decide (n.maxTxMs ≤ 3600000), 20),
    (decide (2000 ≤ n.lbtBw ∧ n.lbtBw ≤ 1600000), 24), (decide (20 ≤ n.lbtListenUs), 30), (decide (n.boMinMs ≤ n.boMaxMs), 34),
    (decide (1 ≤ n.lbtTries ∧ n.lbtTries ≤ 15), 36), rsv p 37 3] fun _ =>
    let t := unblockNever (updBand (u8 p 0) (fun b => { b with cfg := n }) s)
    persistR c (u8 p 3 == 1) 0 (okR t (bandRec t (u8 p 0)))

def tallyBandGet : CoreFn := fun _ p s =>
  guardR s [(decide (u8 p 0 ≤ 15), 0), rsv p 1 3] fun _ => okR s (bandRec s (u8 p 0))

def tallyUsageGet : CoreFn := fun _ p s =>
  guardR s [(decide (u8 p 0 ≤ 15), 0), rsv p 1 3] fun _ => okR s (usageRec s (u8 p 0))

def tallyCheck : CoreFn := fun _ p s =>
  guardR s [(decide (u8 p 8 ≤ 1), 8), rsv p 9 3] fun _ => okR s (checkRec s (u32 p 0) (u32 p 4) (u8 p 8 == 1))

def tallyStatsGet : CoreFn := fun _ p s =>
  guardR s [(decide (u8 p 0 ≤ 15) || u8 p 0 == 0xFF, 0), (decide (u8 p 1 ≤ 1), 1), rsv p 2 2] fun _ =>
    let clear := u8 p 1 == 1
    if u8 p 0 = 0xFF then
      okR (if clear then updTally (fun x => { x with outsideRefused := 0, outsideSent := 0, cutShort := 0 }) s else s)
        (le 1 0xFF ++ le 3 0 ++ nodeStats s)
    else
      okR (if clear then updBand (u8 p 0) (fun b => { b with refused := 0, ackDenied := 0, lbtBusy := 0, lbtGiveup := 0 }) s else s)
        (le 1 (u8 p 0) ++ le 3 0 ++ bandStats s (u8 p 0))

/-- R353: the band's buckets emptied. -/
def Band.cleared (b : Band) : Band := { b with total := List.replicate 60 0, ack := List.replicate 60 0 }

def tallyClear : CoreFn := fun _ p s =>
  guardR s [(decide (u8 p 0 ≤ 15) || u8 p 0 == 0xFF, 0), rsv p 1 3] fun _ =>
    if s.pwr.mode ≠ .service then modeR s
    else if u8 p 0 = 0xFF then okR (updTally (fun x => { x with band := x.band.map Band.cleared }) s) []
    else okR (updBand (u8 p 0) Band.cleared s) []

def execTallyCfgSet (v : Srv) (s : State) : Out := .next (serve 0x0700 tallyCfgSet v s)
def execTallyCfgGet (v : Srv) (s : State) : Out := .next (serve 0x0701 tallyCfgGet v s)
def execTallyBandSet (v : Srv) (s : State) : Out := .next (serve 0x0702 tallyBandSet v s)
def execTallyBandGet (v : Srv) (s : State) : Out := .next (serve 0x0703 tallyBandGet v s)
def execTallyUsageGet (v : Srv) (s : State) : Out := .next (serve 0x0710 tallyUsageGet v s)
def execTallyCheck (v : Srv) (s : State) : Out := .next (serve 0x0711 tallyCheck v s)
def execTallyStatsGet (v : Srv) (s : State) : Out := .next (serve 0x0718 tallyStatsGet v s)
def execTallyClear (v : Srv) (s : State) : Out := .next (serve 0x0720 tallyClear v s)

/-! ### The tally's own steps -/

/-- R354: TALLY_REFUSE, when a refusal has occurred since the last one, at most once per second. -/
def execTallyRefuse (s : State) : Out :=
  .next <| if s.tally.refBands = 0 ∨ !secondPast s.tally.refEvent s then s
  else updTally (fun t => { t with refBands := 0, refLast := 0xFF, refUs := 0, refEvent := some s.clk.mtime })
    (raise 0x8730 (le 2 s.tally.refBands ++ le 1 s.tally.refLast ++ le 1 0 ++ le 4 s.tally.refUs) s)

end Sys2Proof.Machine
end

