-- ==== Sys2Proof/Machine/Radio.lean ====
section
/-! DEFINITION. The radio front end: states, calibration, output power and its commands (R111 to R161). -/

namespace Sys2Proof.Machine

/-! ### Calibration segments (R120, R121) -/

/-- R120: the segment of a tuning. -/
def segOf (tune : Nat) : Nat :=
  let mul := if tune * 48000000 < 600000000 * 2 ^ 23 then 8 else 4
  min 63 ((tune * 48000000 * mul - 3000000000 * 2 ^ 23) / (13125000 * 2 ^ 23))

/-- R121: a calibration of this segment is stored and not stale. -/
def calValid (s : State) (seg : Nat) : Bool :=
  match tget none seg s.radio.cal with
  | none => false
  | some c => decide ((s.radio.temp - c.temp).natAbs < 60)

/-- CAL_VALID of R161. -/
def calMask (s : State) : Nat := (List.range 64).foldl (fun a i => if calValid s i then a + 2 ^ i else a) 0

/-! ### Lanes lose what they receive (R128, R174, R175) -/

/-- A lane's frame ends; a configuration that waited for it takes effect (R176). -/
def Lane.endFrame (l : Lane) : Lane := { l with frame := none, cfg := l.next.getD l.cfg, next := none }

/-- The lane loses the frame it is receiving: BLANKED. -/
def Lane.blank (l : Lane) : Lane :=
  if l.frame.isSome then { l.endFrame with stats := { l.stats with blanked := inc32 l.stats.blanked } } else l

def lanesBlank (s : State) : State := updLanes (fun l => { l with lane := l.lane.map Lane.blank }) s

/-- Some lane is between its start-of-frame and the end of its frame. -/
def laneBusy (s : State) : Bool := s.lanes.lane.any (fun l => l.frame.isSome)

/-! ### The radio's states (R115 to R118) -/

def radioCode : RadioState → Nat
  | .sleep => 0 | .idle => 1 | .cal => 2 | .locked => 3 | .rx => 4 | .tx => 5 | .txready => 6

def codeRadio : Nat → RadioState
  | 1 => .idle | 4 => .rx | 6 => .txready | _ => .sleep

/-- R114: a frame exchange is in progress. -/
def exchange (s : State) : Bool :=
  s.radio.onAir.isSome || s.radio.awaiting.isSome || s.radio.owed.isSome || laneBusy s

/-- R117, R118, R273, R299, R318: where the radio goes when nothing waits for it: its rest state and frequency. -/
def restDemand (s : State) : RadioState × Nat :=
  match s.pwr.mode with
  | .relay => (.rx, match s.timing.listen with | some w => w.2 | none => s.radio.home)
  | .wide => (.rx, s.radio.home)
  | .leaf =>
    match s.timing.window with
    | some w => (.rx, w.tune)
    | none =>
      if s.timing.listen.isSome then (.rx, (s.timing.listen.getD (0, 0)).2)
      else if s.radio.pendHold.isSome then (.rx, (s.radio.pendHold.getD (0, 0)).2)
      else
        match s.radio.packetRet with
        | 1 => (.sleep, 0)
        | 2 => (.idle, 0)
        | 3 => (.rx, s.radio.home)
        | 4 => (.txready, s.radio.home)
        | _ => (codeRadio s.radio.cfg.ret, s.radio.home)
  | _ => (.sleep, 0)

/-- What the radio is wanted for now: a state and a tuning. -/
def demand (s : State) : RadioState × Nat :=
  let r := s.radio
  let ack : Option Nat := match r.held with | some q => (match q.who with | .ack _ => some q.tune | _ => none) | none => none
  if ack.isSome then (.txready, ack.getD 0)
  else if r.awaiting.isSome || r.owed.isSome then (.rx, r.tune)
  else if laneBusy s && r.state == .rx && r.held.isNone then (.rx, r.tune)
  else if (match r.calJob with | some (_, _ :: _, _) => true | _ => false) then (.cal, r.home)
  else
    match r.rssi, r.cca, r.held with
    | some m, _, _ => if s.pwr.mode = .relay ∨ s.pwr.mode = .wide then (.rx, r.home) else (.rx, m.tune)
    | none, some m, _ => if s.pwr.mode = .relay ∨ s.pwr.mode = .wide then (.rx, r.home) else (.rx, m.tune)
    | none, none, some q =>
      if r.lbtPhase = 1 then (.rx, if s.pwr.mode = .relay ∨ s.pwr.mode = .wide then r.home else q.tune)
      else if r.lbtPhase = 2 then restDemand s
      else (.txready, q.tune)
    | none, none, none => restDemand s

/-- The synthesizer is locked in this state. -/
def lockedState : RadioState → Bool
  | .locked => true | .rx => true | .tx => true | .txready => true | _ => false

/-- R116: the next state on the way, and the tuning it will have; none when the radio is where it is wanted. -/
def nextGoal (s : State) : Option (RadioState × Nat) :=
  let r := s.radio
  match r.state, demand s with
  | .tx, (d, t) =>
    if r.onAir.isSome then none
    else if d = .sleep then some (.sleep, 0)
    else if d = .idle ∨ d = .cal then some (.idle, 0)
    else if d = .rx ∧ r.tune = t then some (.rx, t)
    else some (.txready, r.tune)
  | .cal, _ => none
  | .sleep, (.sleep, _) => none
  | .sleep, _ => if s.clk.rootsrc then some (.idle, 0) else none
  | _, (.sleep, _) => some (.sleep, 0)
  | .idle, (.idle, _) => none
  | _, (.idle, _) => some (.idle, 0)
  | .idle, (.cal, t) => some (.cal, t)
  | _, (.cal, _) => some (.idle, 0)
  | .idle, (_, t) => if calValid s (segOf t) then some (.locked, t) else some (.cal, t)
  | st, (d, t) =>
    if r.tune ≠ t then (if calValid s (segOf t) then some (st, t) else some (.cal, t))
    else if st = d then none
    else if d = .tx then none
    else some (d, t)

/-- R153, R154: settings that waited for the end of an exchange, or for SLEEP, IDLE or LOCKED. -/
def radioSettle (s : State) : State :=
  let r := s.radio
  updRadio (fun x =>
    { x with div := if exchange s then r.div else r.cfg.div,
             ext := if r.state = .sleep ∨ r.state = .idle ∨ r.state = .locked then r.cfg.ext else r.ext }) s

/-- The radio begins its next transition. A way through CAL begins at once (R116). -/
def radioKick (s : State) : State :=
  let s := radioSettle s
  if s.radio.goal.isSome || (!working s 2 && !exchange s) then s
  else
    match nextGoal s with
    | none => s
    | some (.cal, t) => lanesBlank (updRadio (fun r => { r with state := .cal, tuneGoal := t }) s)
    | some (g, t) =>
      let leaving := s.radio.state = .rx ∧ (g ≠ .rx ∨ t ≠ s.radio.tune)
      (if leaving then lanesBlank else id) (updRadio (fun r => { r with goal := some g, tuneGoal := t }) s)

/-- R137, R139, R140: the antenna the radio rests on. -/
def restAnt (s : State) : Nat :=
  if s.dev.variant = .shaft ∨ s.radio.div.mode = 0 then s.radio.div.fixedAnt
  else if s.radio.heard then s.radio.ant else s.radio.div.idleAnt

/-- The RADIO domain loses its power or is forced to SLEEP (R24, R119). -/
def radioOff (s : State) : State :=
  radioSettle (lanesBlank (updRadio (fun r =>
    { r with state := .sleep, goal := none, tune := 0, tuneGoal := 0, second := false, heard := false, autoCal := false,
             recalWait := false, switchedFor := none }) s))

/-! ### Transmission (R124 to R134) -/

/-- The transmission is charged to a band that listens (R345); acknowledgements never do. -/
def lbtBand (s : State) (q : TxReq) : Option Nat :=
  match q.who, q.resv with
  | .ack _, _ => none
  | _, none => none
  | _, some i => (findResv s i).bind (fun r => if (bandOf s r.band).cfg.lbt = 1 then some r.band else none)

/-- The radio holds a further transmission (R125, R127); in an LBT band it listens first (R345). -/
def radioSubmit (q : TxReq) (s : State) : State :=
  let n := match lbtBand s q with
    | some b => if q.timed.isSome then 1 else (bandOf s b).cfg.lbtTries
    | none => 0
  radioKick (updRadio (fun r => { r with held := some { q with lbt := n }, lbtPhase := if n = 0 then 0 else 1 }) s)

/-- R127: the radio can accept a further transmission. -/
def radioFree (s : State) : Bool := s.radio.held.isNone

/-- R119, R123, R126, R345: the held transmission is abandoned: TX_LATE, nothing charged. -/
def abandonHeld (s : State) : State :=
  match s.radio.held with
  | none => s
  | some q =>
    updRadio (fun r => { r with held := none, lbtPhase := 0, stats := { r.stats with txLate := inc32 r.stats.txLate } })
      (tallyRelease q.resv s)

/-- The rounding of R132: to the nearest, halves away from zero. -/
def roundAway (num : Int) (den : Nat) : Int :=
  let m := (2 * num.natAbs + den) / (2 * den)
  if num < 0 then -(m : Int) else m

/-- R132: the temperature points in 0.25 °C and the VBAT points in mV. -/
def tempPoints : List Int := [-160, -80, 0, 100, 200, 280, 360, 420]
def vbatPoints : List Int := [1800, 2400, 3000, 3600]

/-- The index of the last of the inner points that `x` has reached. -/
def pointIdx (pts : List Int) (x : Int) : Nat :=
  (List.range (pts.length - 2)).foldl (fun a i => if at_ 0 pts (i + 1) ≤ x then i + 1 else a) 0

def clampI (lo hi x : Int) : Int := if x < lo then lo else if hi < x then hi else x

/-- R132: the compensation offset in 0.125 dB. -/
def compOffset (tab : List Int) (temp : Int) (vbat : Nat) : Int :=
  let t := clampI (-160) 420 temp
  let v := clampI 1800 3600 vbat
  let i := pointIdx tempPoints t
  let j := pointIdx vbatPoints v
  let t0 := at_ 0 tempPoints i
  let t1 := at_ 0 tempPoints (i + 1)
  let v0 := at_ 0 vbatPoints j
  let v1 := at_ 0 vbatPoints (j + 1)
  let a (x y : Nat) : Int := at_ 0 tab (4 * x + y)
  roundAway ((t1 - t) * (v1 - v) * a i j + (t1 - t) * (v - v0) * a i (j + 1) + (t - t0) * (v1 - v) * a (i + 1) j +
    (t - t0) * (v - v0) * a (i + 1) (j + 1)) ((t1 - t0) * (v1 - v0)).toNat

/-- R130 to R133: the record of a frame that starts with these samples. -/
def startRecord (cfg : RadioCfg) (q : TxReq) (mtime : Nat) (temp : Int) (vbat : Nat) : LastTx :=
  let req := q.power.getD cfg.power
  let clampPort : Bool := cfg.txport == 1 && decide (28 < req)
  let a1 := if clampPort then 28 else req
  let clampVbat : Bool := decide (vbat < 3000) && decide (34 < a1)
  let applied := if clampVbat then 34 else a1
  let comp := compOffset cfg.comp temp vbat
  let code := 4 * applied + comp + 192
  let sat : Bool := decide (code < 0) || decide (383 < code)
  let hp : Bool := cfg.txport == 2 || (cfg.txport == 0 && decide (28 < applied))
  { mtime := mtime, req := req, applied := applied, paCode := (clampI 0 383 code).toNat, comp := comp,
    flags := b2n clampVbat + 2 * b2n clampPort + 4 * b2n hp + 8 * q.ant + 16 * b2n sat, temp := temp, vbat := vbat, tune := q.tune }

/-- R131, R133, R158, R160: the counters, the record and the event of a frame's start. -/
def radioStart (q : TxReq) (rec : LastTx) (s : State) : State :=
  let cv := rec.flags.testBit 0
  let cp := rec.flags.testBit 1
  let s1 := updRadio (fun r =>
    { r with state := .tx, goal := none, held := none, onAir := some q, airStart := rec.mtime, lbtPhase := 0, ant := q.ant, temp := rec.temp,
             vbat := rec.vbat, last := rec, packetRet := q.ret, switchedFor := none,
             stats := { r.stats with txFrames := inc32 r.stats.txFrames,
                                     clampVbat := if cv then inc32 r.stats.clampVbat else r.stats.clampVbat,
                                     clampPort := if cp then inc32 r.stats.clampPort else r.stats.clampPort } }) s
  let s2 := lanesBlank (tallyStart q.resv s1)
  if (cv || cp) && s2.radio.clampArm then
    raise 0x8230 (lei 1 rec.req ++ lei 1 rec.applied ++ le 1 (b2n cv + 2 * b2n cp) ++ le 1 0 ++ le 2 rec.vbat ++ le 2 0)
      (updRadio (fun r => { r with clampArm := false }) s2)
  else s2

/-- On-air time so far in µs, rounded up (R339). -/
def airUs (s : State) : Nat :=
  if mtLater s.radio.airStart s.clk.mtime then 0 else cdiv (((s.clk.mtime + mtMod - s.radio.airStart) % mtMod) * 1000000) (2 ^ 24)

/-- R126: the held timed transmission can no longer start at its time. -/
def lateNow (s : State) (q : TxReq) : Bool :=
  match q.timed with
  | none => false
  | some t =>
    let left (us : Nat) : Bool := mtReached (mtAdd t (-(usTicks us : Nat))) s.clk.mtime
    let r := s.radio
    let lock : Bool := lockedState r.state && r.tune == q.tune && r.goal.isNone
    let need := match r.state with
      | .tx => 12 | .txready => 8 | .locked => 28 | _ => 40
    mtLater s.clk.mtime (mtAdd t (8 : Nat)) ||
    ((!lock || r.lbtPhase != 0) && left 40) ||
      ((r.onAir.isSome || r.awaiting.isSome || r.owed.isSome) && mtLater s.clk.mtime (mtAdd t (-(usTicks need : Nat))))

/-! ### Signal measurement (R144 to R146) -/

/-- R144: RSSI referred to the antenna, with FLOOR (bit 0) and CEIL (bit 1). -/
def rssiAt (s : State) (ant : Nat) (raw : Int) : Int × Nat :=
  let v := raw - (if ant = 0 then s.radio.ext.offA else s.radio.ext.offB)
  (clampI (-280) (-20) v, if v < -280 then 1 else if -20 < v then 2 else 0)

/-- R145: the assessment's mean: the greater path on Shaft, the named antenna otherwise. -/
def ccaMean (s : State) (ant : Nat) (rawA rawB : Int) : Int × Nat :=
  let a := rssiAt s 0 rawA
  let b := rssiAt s 1 rawB
  if s.dev.variant = .shaft then (if a.1 < b.1 then b else a) else if ant = 0 then a else b

/-- R146, R162: half the usable window in Hz. -/
def halfWindow (s : State) : Nat := if s.dev.variant = .face then 600000 else 3600000

/-- R146: a band of `bw` Hz about `hz` lies within the usable window. -/
def inWindow (s : State) (hz bw : Nat) : Bool :=
  let home := tuneHz s.radio.home
  decide (2 * home + bw ≤ 2 * hz + 2 * halfWindow s) && decide (2 * hz + bw ≤ 2 * home + 2 * halfWindow s)

/-- R146: checks and mode of a measurement. -/
def measureR (s : State) (hz bw : Nat) (checks : List (Bool × Nat)) (go : Unit → Res) : Res :=
  let rw : Bool := s.pwr.mode == .relay || s.pwr.mode == .wide
  guardR s (checks ++ [(!rw || inWindow s hz 0, 0), (!rw || inWindow s hz bw, 4)]) fun _ =>
    if s.pwr.mode = .shelf ∨ s.pwr.mode = .watch then modeR s else go ()

/-! ### Records and commands (R148 to R161) -/

def tuneRec (s : State) : List Byte := le 4 (tuneHz s.radio.home) ++ le 1 s.radio.cfg.ret ++ le 1 (segOf s.radio.home) ++ le 2 0
def paRec (s : State) : List Byte := lei 1 s.radio.cfg.power ++ le 1 s.radio.cfg.txport ++ le 2 0
def compRec (s : State) : List Byte := le 1 s.radio.cfg.origin ++ le 3 0 ++ s.radio.cfg.comp.flatMap (lei 1)
def divRec (d : DivCfg) : List Byte := le 1 d.mode ++ le 1 d.fixedAnt ++ le 1 d.idleAnt ++ le 1 d.txAnt ++ le 1 d.hyst ++ le 3 0
def extRec (e : ExtCfg) : List Byte := le 1 e.pins ++ le 1 e.lead ++ le 1 e.lag ++ le 1 0 ++ lei 1 e.offA ++ lei 1 e.offB ++ le 2 0

/-- R141, R143: the levels of EXTPA_EN, EXTLNA_EN and ANT_SEL as active or not. -/
def extActive (s : State) : Nat → Bool
  | 0 => s.radio.ext.pins.testBit 0 && s.radio.state == .tx
  | 1 => s.radio.ext.pins.testBit 1 && s.radio.state == .rx
  | _ => s.radio.ext.pins.testBit 2 && s.radio.ant == 1 && s.radio.state != .sleep

def radioRec (s : State) : List Byte :=
  let r := s.radio
  let l := r.last
  le 1 (radioCode r.state) ++ le 1 r.cfg.ret ++ le 1 r.ant ++
    le 1 (b2n r.held.isSome + 2 * b2n r.test.isSome + 4 * b2n (extActive s 0) + 8 * b2n (extActive s 1)) ++
    le 4 (if lockedState r.state then tuneHz r.tune else 0) ++ le 4 (tuneHz r.home) ++ lei 2 r.temp ++ le 2 r.vbat ++ le 8 (calMask s) ++
    le 8 l.mtime ++ lei 1 l.req ++ lei 1 l.applied ++ le 2 l.paCode ++ lei 1 l.comp ++ le 1 l.flags ++ lei 2 l.temp ++ le 2 l.vbat ++
    le 2 0 ++ le 4 (tuneHz l.tune)

def radioStatsRec (x : RadioStats) : List Byte :=
  [x.txFrames, x.txLate, x.lockFail, x.calFull, x.calAuto, x.clampVbat, x.clampPort, x.divDecided, x.divSwitched, x.divBlocked,
    x.divIncomplete, x.refSleep].flatMap (le 4)

def radioSurvey (s : State) : List Byte := radioRec s ++ radioStatsRec s.radio.stats

def radioStateGet : CoreFn := fun _ _ s => okR s (radioRec s)

/-- R114, R150: outside an exchange the new home frequency applies at once, else it waits. -/
def applyHome (s : State) : State :=
  if exchange s then updRadio (fun r => { r with retune := true }) s
  else radioKick (updRadio (fun r => { r with home := r.cfg.home, retune := false }) s)

def radioTuneSet : CoreFn := fun _ p s =>
  guardR s [(freqOk (u32 p 0), 0), ([0, 1, 4, 6].contains (u8 p 4), 4), rsv p 5 3] fun _ =>
    let t := applyHome (updRadio (fun r => { r with cfg := { r.cfg with home := hzTune (u32 p 0), ret := u8 p 4 } }) s)
    okR t (tuneRec t)

def radioTuneGet : CoreFn := fun _ _ s => okR s (tuneRec s)

def radioPaSet : CoreFn := fun _ p s =>
  guardR s [(decide (-40 ≤ i8 p 0 ∧ i8 p 0 ≤ 40), 0), (decide (u8 p 1 ≤ 2), 1), rsv p 2 2] fun _ =>
    let t := updRadio (fun r => { r with cfg := { r.cfg with power := i8 p 0, txport := u8 p 1 } }) s
    okR t (paRec t)

def radioPaGet : CoreFn := fun _ _ s => okR s (paRec s)

def radioCompSet : CoreFn := fun _ p s =>
  guardR s [(decide (u8 p 0 ≤ 1), 0), rsv p 1 3, if u8 p 0 = 1 then rsv p 4 32 else (true, 4)] fun _ =>
    let tab := if u8 p 0 = 1 then s.dev.factoryComp else (List.range 32).map (fun i => i8 p (4 + i))
    let t := updRadio (fun r => { r with cfg := { r.cfg with origin := u8 p 0, comp := tab } }) s
    okR t (compRec t)

def radioCompGet : CoreFn := fun _ _ s => okR s (compRec s)

def radioDivSet : CoreFn := fun _ p s =>
  guardR s [(decide (u8 p 0 ≤ (if s.dev.variant = .shaft then 0 else 1)), 0), (decide (u8 p 1 ≤ 1), 1), (decide (u8 p 2 ≤ 1), 2),
    (decide (u8 p 3 ≤ 1), 3), (decide (u8 p 4 ≤ 20), 4), rsv p 5 3] fun _ =>
    let d : DivCfg := { mode := u8 p 0, fixedAnt := u8 p 1, idleAnt := u8 p 2, txAnt := u8 p 3, hyst := u8 p 4 }
    let t := radioSettle (updRadio (fun r => { r with cfg := { r.cfg with div := d } }) s)
    let t := if exchange t || t.radio.state == .tx then t else updRadio (fun r => { r with ant := restAnt t }) t
    okR t (divRec t.radio.div)

def radioDivGet : CoreFn := fun _ _ s => okR s (divRec s.radio.div)

def radioExtSet : CoreFn := fun _ p s =>
  guardR s [(u8 p 0 &&& 0x88 == 0, 0), (decide (u8 p 1 ≤ 20), 1), (decide (u8 p 2 ≤ 10), 2), rsv p 3 1, rsv p 6 2] fun _ =>
    let e : ExtCfg := { pins := u8 p 0, lead := u8 p 1, lag := u8 p 2, offA := i8 p 4, offB := i8 p 5 }
    let t := radioSettle (updRadio (fun r => { r with cfg := { r.cfg with ext := e } }) s)
    okR t (extRec t.radio.ext)

def radioExtGet : CoreFn := fun _ _ s => okR s (extRec s.radio.ext)

/-- R155: the segments a RADIO_CAL is to calibrate. -/
def calSegments (s : State) : Nat → List Nat
  | 0 => [segOf s.radio.home]
  | 1 => (List.range 64).filter (fun i => s.radio.everCal.testBit i && !calValid s i)
  | _ => List.range 64

def radioCal : CoreFn := fun c p s =>
  guardR s [(decide (u8 p 0 ≤ 2), 0), rsv p 1 3] fun _ =>
    if s.pwr.mode = .shelf ∨ s.pwr.mode = .watch then modeR s
    else pendR c s fun n =>
      radioKick (updRadio (fun r => { r with calJob := some (n, calSegments s (u8 p 0), 0) }) s)

def radioRssi : CoreFn := fun c p s =>
  measureR s (u32 p 0) (u32 p 4) [(freqOk (u32 p 0), 0), (decide (2000 ≤ u32 p 4 ∧ u32 p 4 ≤ 1600000), 4),
      (decide (20 ≤ u16 p 8 ∧ u16 p 8 ≤ 10000), 8), (decide (u8 p 10 ≤ 1), 10), rsv p 11 1] fun _ =>
    let m (n : Nat) : Measure := { slot := n, tune := hzTune (u32 p 0), ant := u8 p 10, threshold := 0, start := s.clk.mtime }
    pendR c s fun n => radioKick (updRadio (fun r => { r with rssi := some (m n) }) s)

def radioCca : CoreFn := fun c p s =>
  measureR s (u32 p 0) (u32 p 4) [(freqOk (u32 p 0), 0), (decide (2000 ≤ u32 p 4 ∧ u32 p 4 ≤ 1600000), 4), (decide (20 ≤ u16 p 8), 8),
      (decide (u8 p 12 ≤ (if s.dev.variant = .shaft then 0 else 2)), 12), rsv p 13 3] fun _ =>
    let ant := if u8 p 12 = 0 then s.radio.div.txAnt else u8 p 12 - 1
    let m (n : Nat) : Measure := { slot := n, tune := hzTune (u32 p 0), ant := ant, threshold := i16 p 10, start := s.clk.mtime }
    pendR c s fun n => radioKick (updRadio (fun r => { r with cca := some (m n) }) s)

def radioStatsGet : CoreFn := fun _ p s =>
  guardR s [(decide (u8 p 0 ≤ 1), 0), rsv p 1 3] fun _ =>
    okR (if u8 p 0 = 1 then updRadio (fun r => { r with stats := .zero, clampArm := true }) s else s) (radioStatsRec s.radio.stats)

/-- R159: the tally predicts the test transmission before the radio takes it. -/
def radioTestTx : CoreFn := fun c p s =>
  guardR s [(freqOk (u32 p 0), 0), (decide (u8 p 4 ≤ 1), 4), (decide (-40 ≤ i8 p 5 ∧ i8 p 5 ≤ 40), 5), (decide (u8 p 6 ≤ 1), 6),
      rsv p 7 1, (decide (1 ≤ u32 p 8 ∧ u32 p 8 ≤ 60000), 8)] fun _ =>
    if s.pwr.mode ≠ .service then modeR s
    else
      let tune := hzTune (u32 p 0)
      let us := u32 p 8 * 1000
      match tallyTake (tuneExact tune) us false s with
      | (t, b, none) => errR t stBUDGET (refusalDetail b)
      | (t, _, some resv) =>
        let r := pendR c t fun n =>
          radioSubmit { who := .test, timed := none, tune := tune, carrier := tuneExact tune, power := some (i8 p 5), ant := u8 p 6,
                        us := us, ar := false, ret := 0, resv := resv, lbt := 0, air := if u8 p 4 = 0 then .carrier else .testFsk }
            (updRadio (fun r => { r with test := some { slot := n, start := none, ms := u32 p 8 } }) t)
        if r.st = stBUSY then { r with s := s } else r

def execRadioStateGet (v : Srv) (s : State) : Out := .next (serve 0x0200 radioStateGet v s)
def execRadioTuneSet (v : Srv) (s : State) : Out := .next (serve 0x0201 radioTuneSet v s)
def execRadioTuneGet (v : Srv) (s : State) : Out := .next (serve 0x0202 radioTuneGet v s)
def execRadioPaSet (v : Srv) (s : State) : Out := .next (serve 0x0203 radioPaSet v s)
def execRadioPaGet (v : Srv) (s : State) : Out := .next (serve 0x0204 radioPaGet v s)
def execRadioCompSet (v : Srv) (s : State) : Out := .next (serve 0x0205 radioCompSet v s)
def execRadioCompGet (v : Srv) (s : State) : Out := .next (serve 0x0206 radioCompGet v s)
def execRadioDivSet (v : Srv) (s : State) : Out := .next (serve 0x0207 radioDivSet v s)
def execRadioDivGet (v : Srv) (s : State) : Out := .next (serve 0x0208 radioDivGet v s)
def execRadioExtSet (v : Srv) (s : State) : Out := .next (serve 0x0209 radioExtSet v s)
def execRadioExtGet (v : Srv) (s : State) : Out := .next (serve 0x020A radioExtGet v s)
def execRadioCal (v : Srv) (s : State) : Out := .next (serve 0x0210 radioCal v s)
def execRadioRssi (v : Srv) (s : State) : Out := .next (serve 0x0211 radioRssi v s)
def execRadioCca (v : Srv) (s : State) : Out := .next (serve 0x0212 radioCca v s)
def execRadioStatsGet (v : Srv) (s : State) : Out := .next (serve 0x0218 radioStatsGet v s)
def execRadioTestTx (v : Srv) (s : State) : Out := .next (serve 0x0220 radioTestTx v s)

/-! ### The radio's own steps that no other unit takes part in -/

/-- R144, R156: the measurement window ends. The radio must be receiving where it measures. -/
def execRssiMeasureEnd (rssi : Int) (s : State) : Out :=
  .next <| match s.radio.rssi with
  | none => s
  | some m =>
    if s.radio.state ≠ .rx ∨ s.radio.goal.isSome then s
    else
      let v := rssiAt s m.ant rssi
      radioKick (complete m.slot 0 0 (lei 2 v.1 ++ le 1 v.2 ++ le 1 0 ++ le 8 m.start) (updRadio (fun r => { r with rssi := none }) s))

/-- R145, R157: the listen ends. -/
def execCcaListenEnd (rssiA rssiB : Int) (s : State) : Out :=
  .next <| match s.radio.cca with
  | none => s
  | some m =>
    if s.radio.state ≠ .rx ∨ s.radio.goal.isSome then s
    else
      let v := ccaMean s m.ant rssiA rssiB
      radioKick (complete m.slot 0 0 (le 1 (if v.1 < m.threshold then 0 else 1) ++ le 1 v.2 ++ lei 2 v.1 ++ le 8 m.start)
        (updRadio (fun r => { r with cca := none }) s))

/-- R155: every segment of RADIO_CAL is calibrated. -/
def execRadioCalDone (s : State) : Out :=
  .next <| match s.radio.calJob with
  | some (slot, [], n) =>
    radioKick (complete slot 0 0 (le 1 n ++ le 3 0 ++ le 8 (calMask s)) (updRadio (fun r => { r with calJob := none }) s))
  | _ => s

/-- R120, R155: a full calibration of a segment ends; the radio goes on to lock, or to the next segment of RADIO_CAL. -/
def execCalEnd (code : Nat) (s : State) : Out :=
  .next <| if s.radio.state ≠ .cal then s
  else
    let store (seg : Nat) (r : Radio) : Radio :=
      { r with cal := tset none seg (some { code := code, temp := s.radio.temp }) r.cal, everCal := r.everCal ||| 2 ^ seg,
               stats := { r.stats with calFull := inc32 r.stats.calFull } }
    match s.radio.calJob with
    | some (slot, seg :: rest, n) =>
      updRadio (fun r => { store seg r with calJob := some (slot, rest, n + 1), state := if rest.isEmpty then .idle else .cal }) s
    | some (_, [], _) => updRadio (fun r => { r with state := .idle }) s
    | none => updRadio (fun r => { store (segOf r.tuneGoal) r with state := .idle, goal := some .locked }) s

/-- R115, R116: the transition in progress ends. -/
def execRadioTransitionDone (s : State) : Out :=
  .next <| match s.radio.goal with
  | none => radioKick s
  | some g =>
    radioKick (updRadio (fun r =>
      { r with state := g, goal := none, second := false, tune := if lockedState g then r.tuneGoal else 0,
               heard := r.heard && g != .sleep, autoCal := r.autoCal && g != .rx }) s)

/-- R122: the current segment is stale while the radio receives. -/
def recalDue (s : State) : Bool := s.radio.state == .rx && s.radio.goal.isNone && !calValid s (segOf s.radio.tune)

/-- R121, R122: the die temperature is measured. A segment that becomes stale waits for the end of the exchange. -/
def execTempMeasure (temp : Int) (s : State) : Out :=
  .next <| if s.radio.state = .sleep then s
  else
    let t := updRadio (fun r => { r with temp := temp }) s
    updRadio (fun r => { r with recalWait := recalDue t && (exchange t || laneBusy t) }) t

/-- R122: the automatic recalibration starts: reception is blanked. -/
def startRecal (s : State) : State :=
  lanesBlank (updRadio (fun r =>
    { r with state := .cal, tuneGoal := r.tune, autoCal := true, recalWait := false,
             stats := { r.stats with calAuto := inc32 r.stats.calAuto } }) s)

def execAutoRecal (s : State) : Out := .next (if recalDue s && !exchange s then startRecal s else s)

/-- R122: after 1 s of waiting the radio recalibrates regardless. -/
def execRecalWaitTimeout (s : State) : Out := .next (if recalDue s && s.radio.recalWait then startRecal s else s)

/-- R114: a home frequency that waited for the end of the exchange. -/
def execHomeRetune (s : State) : Out := .next (if s.radio.retune && !exchange s then applyHome s else s)

/-- R137, R138: a decision between the antennas, on Drift and Face with DIVMODE 1. `cut` names the antenna connected when the
start-of-frame delimiter arrived before the decision ended. -/
def execDivDecisionEnd (lane : Nat) (rssiA rssiB : Int) (cut : Option Nat) (s : State) : Out :=
  .next <|
    let stat (f : RadioStats → RadioStats) (x : State) : State := updRadio (fun r => { r with stats := f r.stats }) x
    let l := at_ Lane.reset s.lanes.lane lane
    if s.dev.variant = .shaft ∨ s.radio.div.mode = 0 ∨ s.radio.state ≠ .rx ∨ l.cfg.phy = 2 then s
    else if (List.range 16).any (fun i => i != lane && (at_ Lane.reset s.lanes.lane i).frame.isSome) then
      stat (fun x => { x with divBlocked := inc32 x.divBlocked }) s
    else
      match cut with
      | some a => stat (fun x => { x with divIncomplete := inc32 x.divIncomplete }) (updRadio (fun r =>
          { r with ant := a % 2, switchedFor := if a % 2 = s.radio.ant then none else some lane }) s)
      | none =>
        let a := (rssiAt s 0 rssiA).1
        let b := (rssiAt s 1 rssiB).1
        let here := if s.radio.ant = 0 then a else b
        let there := if s.radio.ant = 0 then b else a
        let sw : Bool := decide (here + (s.radio.div.hyst : Int) < there)
        stat (fun x => { x with divDecided := inc32 x.divDecided, divSwitched := if sw then inc32 x.divSwitched else x.divSwitched })
          (updRadio (fun r => { r with ant := if sw then 1 - r.ant else r.ant, switchedFor := if sw then some lane else none }) s)

end Sys2Proof.Machine
end

