-- ==== Sys2Proof/Machine/Lanes.lean ====
section
/-! DEFINITION. Demodulator lanes and PHYs: configurations, costs, on-air times, headers, and their commands (R162 to R224). -/

namespace Sys2Proof.Machine

/-! ### Seam and OFDM tables (R192, R193, R198) -/

/-- R198: RATE, CHAN_HZ, twice the symbol rate, and the rate index is the position. -/
def seamTable : List (Nat × Nat × Nat) :=
  [(300, 2000, 2700), (600, 4000, 5400), (1200, 4000, 5400), (2400, 4000, 5400), (4800, 8000, 10800), (9600, 12500, 16200),
   (19200, 20000, 28800), (37500, 50000, 84375)]

/-- R198: the index of a Seam rate. -/
def seamIdx (rate : Nat) : Option Nat := (List.range 8).find? (fun i => (at_ (0, 0, 0) seamTable i).1 == rate)

/-- R192: CHAN_HZ of an OFDM option. -/
def ofdmChan : Nat → Nat
  | 1 => 1200000 | 2 => 800000 | 3 => 400000 | 4 => 200000 | _ => 0

/-- R192: PHR symbols of an OFDM option. -/
def ofdmPhr : Nat → Nat
  | 1 => 3 | _ => 6

/-- R193: data bits per OFDM symbol; 0 where the option does not allow the MCS. -/
def ndbps (opt mcs : Nat) : Nat :=
  let row : List Nat := match mcs with
    | 0 => [12, 6, 0, 0] | 1 => [24, 12, 6, 0] | 2 => [48, 24, 12, 6] | 3 => [96, 48, 24, 12]
    | 4 => [0, 72, 36, 18] | 5 => [0, 96, 48, 24] | 6 => [0, 0, 72, 36] | _ => []
  if opt = 0 then 0 else at_ 0 row (opt - 1)

/-! ### On-air times (R191, R196, R209) -/

/-- R208: coded bits of `n` encoder input bits at a Seam index. -/
def seamCoded (idx n : Nat) : Nat :=
  match idx with
  | 5 => cdiv (3 * n) 2
  | 6 => cdiv (4 * n) 3
  | _ => 2 * n

/-- R209: payload symbols of a Seam frame with `l` PSDU octets. -/
def seamSymbols (idx l : Nat) : Nat :=
  let c := seamCoded idx (8 * l + 6)
  match idx with
  | 0 => cdiv c 16 * 32
  | 1 => cdiv c 16 * 32
  | 2 => c
  | _ => cdiv c 2

/-! ### What a Seam frame radiates (R199 to R209)
Every point of R199 lies on the unit circle at a multiple of π/4: a symbol is that multiple, 0 to 7. -/

/-- R199: the BPSK symbol of a bit, 1 or −1. -/
def bpsk (b : Bool) : Nat := if b then 4 else 0

/-- R199: the π/4-QPSK symbol of a pair of coded bits. -/
def qpsk (b0 b1 : Bool) : Nat := if b1 then (if b0 then 5 else 7) else (if b0 then 3 else 1)

/-- R201: the block Q. -/
def seamQ : List Nat := [0, 0, 0, 4, 4, 4, 0, 4, 4, 0, 4, 0, 0, 4, 0, 0]

/-- R201: the preamble, whose fourth block is negated. -/
def seamPreamble : List Nat := seamQ ++ seamQ ++ seamQ ++ seamQ.map (fun q => (q + 4) % 8)

/-- R202: pilot block `k`. -/
def seamPilot (k : Nat) : List Nat := if k % 2 = 0 then [0, 0, 4, 0] else [4, 0, 0, 0]

/-- The parity of the low 7 bits. -/
def parity7 (n : Nat) : Bool := (bitsLsb 7 n).foldl (· != ·) false

/-- R207: the two coded bits A and B of each input bit; `r` holds the six bits before it, the latest in bit 5 (log 60). -/
def convolve : Nat → List Bool → List (Bool × Bool)
  | _, [] => []
  | r, b :: l =>
    let v := 64 * b2n b + r
    (parity7 (v &&& 0o133), parity7 (v &&& 0o171)) :: convolve (v / 2) l

/-- R208: the coded bits sent, from input bit `i` on. -/
def puncture (idx : Nat) : Nat → List (Bool × Bool) → List Bool
  | _, [] => []
  | i, (a, b) :: l =>
    (if idx = 5 then (if i % 2 = 0 then [a, b] else [a])
     else if idx = 6 then (if i % 3 = 0 then [a, b] else if i % 3 = 1 then [a] else [b])
     else [a, b]) ++ puncture idx (i + 1) l

/-- `n` blocks of 16 bits, each sent twice (R205, R209). -/
def twice : Nat → List Bool → List Bool
  | 0, _ => []
  | n + 1, l => l.take 16 ++ l.take 16 ++ twice n (l.drop 16)

/-- R199: coded bits mapped in pairs. -/
def qpskPairs : List Bool → List Nat
  | b0 :: b1 :: l => qpsk b0 b1 :: qpskPairs l
  | _ => []

/-- R203: the 24 header bits for a PSDU of `len` octets. -/
def seamHeaderBits (len : Nat) : List Bool :=
  let h := bitsLsb 8 len ++ List.replicate 8 false
  h ++ bitsMsb 8 (crc8 0 h)

/-- R205: the 128 header symbols. -/
def seamHeader (len : Nat) : List Nat :=
  (twice 4 (((convolve 0 (seamHeaderBits len ++ List.replicate 6 false)).flatMap (fun q => [q.1, q.2])) ++ List.replicate 4 false)).map bpsk

/-- R206, R207, R208: the coded bits of a PSDU. -/
def seamCodedBits (idx : Nat) (psdu : List Byte) : List Bool :=
  puncture idx 0 (convolve 0 ((pn9 0x1FF psdu).flatMap (fun b => bitsLsb 8 b.toNat) ++ List.replicate 6 false))

/-- R209: the payload symbols. -/
def seamPayload (idx : Nat) (psdu : List Byte) : List Nat :=
  let c := seamCodedBits idx psdu
  if idx ≤ 1 then
    let n := cdiv c.length 16
    (twice n (c ++ List.replicate (16 * n - c.length) false)).map bpsk
  else if idx = 2 then c.map bpsk
  else qpskPairs (c ++ List.replicate (c.length % 2) false)

/-- R200: `g` groups from group `k` on, each of 32 data symbols and its pilot block. -/
def seamGroups : Nat → Nat → List Nat → List Nat
  | 0, _, _ => []
  | g + 1, k, l => l.take 32 ++ seamPilot k ++ seamGroups g (k + 1) (l.drop 32)

/-- R199: symbol `n` after the SFD is turned by n π/4. -/
def seamRotate : Nat → List Nat → List Nat
  | _, [] => []
  | n, x :: l => (x + n) % 8 :: seamRotate (n + 1) l

/-- R200, R209: the symbols of a Seam frame. -/
def seamFrame (idx : Nat) (psdu : List Byte) : List Nat :=
  let d := seamHeader psdu.length ++ seamPayload idx psdu
  let g := cdiv d.length 32
  let body := seamGroups g 0 (d ++ List.replicate (32 * g - d.length) (if 3 ≤ idx then 1 else 0))
  seamPreamble ++ (if 3 ≤ idx then seamRotate 0 body else body)

/-- What a frame radiates under a PHY, rate, MCS, preamble and PHYCFG. -/
def frameAir (phy rate mcs preamble phycfg seed : Nat) (psdu : List Byte) : Air :=
  match phy with
  | 1 => .fsk rate phycfg preamble psdu
  | 2 => .ofdm rate mcs seed psdu
  | 3 => match seamIdx rate with | some i => .seam i (seamFrame i psdu) | none => .silent
  | _ => .silent

/-- On-air time in µs of `l` PSDU octets (R338). `coded` is SUN FSK's coded form. -/
def airTime (phy rate mcs preamble : Nat) (coded : Bool) (l : Nat) : Nat :=
  match phy with
  | 1 =>
    if coded then cdiv ((8 * (preamble + 2) + 16 * (l + 3)) * 1000000) rate
    else cdiv (8 * (preamble + 4 + l) * 1000000) rate
  | 2 => 120 * (6 + ofdmPhr rate + cdiv (8 * l + 6) (ndbps rate mcs))
  | 3 =>
    match seamIdx rate with
    | none => 0
    | some i =>
      let g := cdiv (128 + seamSymbols i l) 32
      cdiv ((64 + 36 * g) * 2000000) (at_ (0, 0, 1) seamTable i).2.2
  | _ => 0

/-- On-air time of a frame under a transmit profile (R216). -/
def profileTime (p : Profile) (l : Nat) : Nat := airTime p.phy p.rate p.mcs p.preamble (p.phycfg.testBit 4) l

/-! ### Configurations (R166 to R171, R188, R195, R214) -/

/-- R188, R195, R214: PHYCFG is valid for the PHY. -/
def phycfgOk (phy cfg : Nat) : Bool :=
  match phy with
  | 1 => decide (cfg < 256) && !(cfg.testBit 0 && cfg.testBit 1)
  | 2 => cfg == 0
  | _ => decide (cfg < 128) && !cfg.testBit 0

/-- R166: RATE is valid for the PHY. -/
def rateOk (phy rate : Nat) : Bool :=
  match phy with
  | 1 => decide (50000 ≤ rate ∧ rate ≤ 400000)
  | 2 => decide (1 ≤ rate ∧ rate ≤ 4)
  | _ => (seamIdx rate).isSome

/-- R166, R180: CHAN_HZ is valid for the PHY and, where RATE is valid, for it; for SUN FSK not less than RATE whatever RATE is. DEDUCED, log 36. -/
def chanOk (phy rate chan phycfg : Nat) : Bool :=
  match phy with
  | 1 => chan % 12500 == 0 && decide (50000 ≤ chan ∧ chan ≤ 1200000) && decide (rate ≤ (if phycfg.testBit 0 then 2 * chan else chan))
  | 2 => if rateOk 2 rate then chan == ofdmChan rate else [1200000, 800000, 400000, 200000].contains chan
  | _ => match seamIdx rate with
    | some i => chan == (at_ (0, 0, 0) seamTable i).2.1
    | none => seamTable.any (fun r => r.2.1 == chan)

/-- R170: a lane's cost in units; nothing when disabled or on Face. -/
def laneCost (s : State) (c : LaneCfg) : Nat :=
  if c.enable = 0 ∨ s.dev.variant = .face then 0
  else match c.phy with
    | 1 => if c.rate ≤ 200000 then 2 else 4
    | 2 => (match c.rate with | 1 => 12 | 2 => 8 | 3 => 6 | _ => 4)
    | _ => 1

/-- The configuration a lane has been given, in force or waiting (R176). -/
def Lane.given (l : Lane) : LaneCfg := l.next.getD l.cfg

def laneOf (s : State) (n : Nat) : Lane := at_ Lane.reset s.lanes.lane n
def laneCount (s : State) : Nat := Config.lanes s.dev.variant

/-- R171: units used, with lane `n` at configuration `c`. -/
def unitsWith (s : State) (n : Nat) (c : LaneCfg) : Nat :=
  sumList ((List.range (laneCount s)).map (fun i => laneCost s (if i = n then c else (laneOf s i).given)))

def unitsUsed (s : State) : Nat := sumList ((List.range (laneCount s)).map (fun i => laneCost s (laneOf s i).given))

/-! ### Lane states (R173 to R175) -/

/-- R174: the operating mode runs the lane. -/
def laneRuns (s : State) (n : Nat) : Bool :=
  (laneOf s n).cfg.enable == 1 && decide (n < laneCount s) &&
    (match s.pwr.mode with
     | .leaf => n == 0 | .relay => decide (n < 4) | .wide => true | _ => false)

/-- The lane follows the synthesizer: on Face, and lane 0 in LEAF (R163, R174). -/
def laneFollows (s : State) : Bool := s.dev.variant == .face || s.pwr.mode == .leaf

/-- R175: the radio receives where the lanes listen. -/
def lanesHear (s : State) : Bool :=
  s.radio.state == .rx && s.radio.goal.isNone && (laneFollows s || s.radio.tune == s.radio.home)

def laneState (s : State) (n : Nat) : Nat :=
  if laneCount s ≤ n ∨ (laneOf s n).cfg.enable = 0 then 0
  else if !laneRuns s n then 1
  else if (laneOf s n).frame.isSome then 3
  else if lanesHear s then 2 else 4

/-- R174: lanes that the mode stops abandon their frames: BLANKED. -/
def lanesStop (s : State) : State :=
  updLanes (fun l => { l with lane := (List.range l.lane.length).map (fun i =>
    if laneRuns s i then at_ Lane.reset l.lane i else (at_ Lane.reset l.lane i).blank) }) s

/-- R168: an offset in steps of 12,000,000 / 2^24 Hz, a half going to the higher step. -/
def offsetSteps (hz : Int) : Int := (2 * hz * 2 ^ 24 + 12000000) / (2 * 12000000)
def stepsHz (n : Int) : Int := (2 * n * 12000000 + 2 ^ 24) / (2 * 2 ^ 24)

/-- R183 CENTRE_HZ. -/
def laneCentre (s : State) (n : Nat) : Nat :=
  if laneState s n = 0 then 0
  else if laneFollows s && n == 0 then tuneHz (if lockedState s.radio.state then s.radio.tune else s.radio.home)
  else (stepsHz ((8 * s.radio.home : Nat) + offsetSteps (laneOf s n).given.offset)).toNat

/-! ### Records -/

def laneRec (s : State) (n : Nat) : List Byte :=
  let c := (laneOf s n).given
  le 1 n ++ le 1 c.enable ++ le 1 c.phy ++ le 1 c.path ++ lei 4 (stepsHz (offsetSteps c.offset)) ++ le 4 c.chan ++ le 4 c.rate ++ le 4 c.phycfg ++
    le 4 (laneCentre s n) ++ le 1 (laneCost s c) ++ le 1 (laneState s n) ++ le 1 (unitsUsed s) ++ le 1 (Config.laneBudget s.dev.variant)

/-- R136, R174: the path (Shaft) or antenna a lane receives on. -/
def lanePath (s : State) (n path : Nat) : Nat :=
  if s.dev.variant = .shaft then
    (if s.pwr.mode ≠ .wide then 0 else match (laneOf s n).cfg.path with | 0 => 0 | 1 => 1 | _ => path % 2)
  else s.radio.ant

/-- A lane of the path is in FRAME: its gain is frozen (R164). -/
def pathFrozen (s : State) (path : Nat) : Bool :=
  s.lanes.lane.any (fun l => match l.frame with | some f => (if s.dev.variant = .shaft then f.path else 0) == path | none => false)

/-- The path runs (R112, R174). -/
def pathRuns (s : State) (path : Nat) : Bool := s.radio.state == .rx && (path == 0 || (Config.pathB s.dev.variant && s.pwr.mode == .wide))

def pathRec (s : State) (path : Nat) (a : PathAgc) : List Byte :=
  lei 1 a.gain ++ le 1 (b2n (pathRuns s path) + 2 * b2n (pathFrozen s path)) ++ le 2 0 ++ le 4 a.clip ++ le 4 a.forced

def laneStateRec (s : State) : List Byte :=
  le 1 (laneCount s) ++ le 1 (Config.laneBudget s.dev.variant) ++ le 1 (unitsUsed s) ++ le 1 (modeCode s.pwr.mode) ++
    (List.range 16).flatMap (fun n => le 1 (laneState s n)) ++ pathRec s 0 s.lanes.agcA ++
    (if Config.pathB s.dev.variant then pathRec s 1 s.lanes.agcB else le 12 0) ++ le 4 (tuneHz s.radio.home)

def laneStatsBytes (x : LaneStats) : List Byte :=
  [x.sof, x.rxOk, x.fcsFail, x.hdrFail, x.blanked, x.cut, x.dupDropped, x.noCell, x.pathB].flatMap (le 4)

def phyStatsBytes (x : LaneStats) : List Byte :=
  [x.modesw, x.fcs2, x.badRate, x.seamVer, x.trackLost, x.eqResets].flatMap (le 4)

def profileRec (s : State) (n : Nat) : List Byte :=
  let p := at_ Profile.reset s.lanes.profile n
  le 1 n ++ le 1 p.phy ++ le 1 p.mcs ++ le 1 0 ++ le 2 p.preamble ++ le 2 0 ++ le 4 p.rate ++ le 4 p.phycfg

def qualityRec (q : Quality) : List Byte :=
  le 8 q.stamp ++ le 4 q.fcs ++ le 1 q.lane ++ le 1 q.phy ++ le 1 q.mode ++ le 1 q.flags ++ lei 2 q.rssi ++ lei 2 q.snr ++ lei 4 q.freqOff ++
    lei 2 q.slope ++ lei 2 q.eqEnergy ++ le 2 q.trackErr ++ le 2 q.length

/-- R186, R224: the survey body of unit 0x03. -/
def lanesSurvey (s : State) : List Byte :=
  let ns := List.range (laneCount s)
  laneStateRec s ++ ns.flatMap (fun n => laneRec s n ++ laneStatsBytes (laneOf s n).stats) ++
    (List.range 16).flatMap (profileRec s) ++ ns.flatMap (fun n => phyStatsBytes (laneOf s n).stats) ++
    ns.flatMap (fun n => match (laneOf s n).quality with | q :: _ => qualityRec q | [] => le 32 0)

/-! ### Commands (R180 to R185, R217, R220 to R223) -/

def updLane (n : Nat) (f : Lane → Lane) (s : State) : State := updLanes (fun l => { l with lane := l.lane.set n (f (laneOf s n)) }) s

def laneStateGet : CoreFn := fun _ _ s => okR s (laneStateRec s)

def laneSet : CoreFn := fun c p s =>
  let n := u8 p 0
  let g : LaneCfg := { enable := u8 p 1, phy := u8 p 2, path := u8 p 3, offset := i32 p 4, chan := u32 p 8, rate := u32 p 12, phycfg := u32 p 16 }
  let wide := Config.wideband s.dev.variant
  guardR s [(decide (n < laneCount s), 0), (decide (g.enable ≤ 1), 1), (decide (1 ≤ g.phy ∧ g.phy ≤ 3), 2),
    (decide (g.path ≤ (if Config.pathB s.dev.variant then 2 else 0)), 3),
    (if wide then decide (-7200000 ≤ 2 * g.offset - (g.chan : Int) ∧ 2 * g.offset + (g.chan : Int) ≤ 7200000) else decide (g.offset = 0), 4),
    (chanOk g.phy g.rate g.chan g.phycfg, 8), (rateOk g.phy g.rate, 12), (phycfgOk g.phy g.phycfg, 16),
    (g.enable == 0 || !wide || decide (unitsWith s n g ≤ Config.laneBudget s.dev.variant), 2)] fun _ =>
    let t := updLane n (fun l => if l.frame.isSome && !c.shot then { l with next := some g } else { l with cfg := g, next := none }) s
    okR t (laneRec t n)

/-- R183, R185, R222, R223: LANE names a present lane. -/
def lanePresent (s : State) (p : List Byte) : Bool × Nat := (decide (u8 p 0 < laneCount s), 0)

def laneGet : CoreFn := fun _ p s => guardR s [lanePresent s p, rsv p 1 3] fun _ => okR s (laneRec s (u8 p 0))

def laneStatsGet : CoreFn := fun _ p s =>
  guardR s [lanePresent s p, (decide (u8 p 1 ≤ 1), 1), rsv p 2 2] fun _ =>
    let x := (laneOf s (u8 p 0)).stats
    let z : LaneStats := { LaneStats.zero with modesw := x.modesw, fcs2 := x.fcs2, badRate := x.badRate, seamVer := x.seamVer,
                                               trackLost := x.trackLost, eqResets := x.eqResets }
    okR (if u8 p 1 = 1 then updLanes (fun l => { l with agcA := { l.agcA with clip := 0, forced := 0 }, agcB := { l.agcB with clip := 0, forced := 0 } })
        (updLane (u8 p 0) (fun l => { l with stats := z }) s) else s)
      (le 1 (u8 p 0) ++ le 3 0 ++ laneStatsBytes x)

def phyProfileSet : CoreFn := fun _ p s =>
  let g : Profile := { phy := u8 p 1, mcs := u8 p 2, preamble := u16 p 4, rate := u32 p 8, phycfg := u32 p 12 }
  let e := g.phy == 0
  guardR s [(decide (u8 p 0 ≤ 15), 0), (decide (g.phy ≤ 3), 1),
    (e || (if g.phy = 2 then (if rateOk 2 g.rate then decide (0 < ndbps g.rate g.mcs) else decide (g.mcs ≤ 6)) else g.mcs == 0), 2), rsv p 3 1,
    (e || (if g.phy = 1 then decide (4 ≤ g.preamble ∧ g.preamble ≤ 1000) else g.preamble == 0), 4), rsv p 6 2,
    (e || rateOk g.phy g.rate, 8), (e || phycfgOk g.phy g.phycfg, 12)] fun _ =>
    let t := updLanes (fun l => { l with profile := l.profile.set (u8 p 0) (if e then .reset else g) }) s
    okR t (profileRec t (u8 p 0))

def phyProfileGet : CoreFn := fun _ p s => guardR s [(decide (u8 p 0 ≤ 15), 0), rsv p 1 3] fun _ => okR s (profileRec s (u8 p 0))

def phyQualityGet : CoreFn := fun _ p s =>
  guardR s [lanePresent s p, (decide (1 ≤ u8 p 1 ∧ u8 p 1 ≤ 7), 1), rsv p 2 2] fun _ =>
    let q := (laneOf s (u8 p 0)).quality.take (u8 p 1)
    okR s (le 1 (u8 p 0) ++ le 1 q.length ++ le 2 0 ++ q.flatMap qualityRec)

def phyStatsGet : CoreFn := fun _ p s =>
  guardR s [lanePresent s p, (decide (u8 p 1 ≤ 1), 1), rsv p 2 2] fun _ =>
    let x := (laneOf s (u8 p 0)).stats
    let z : LaneStats := { x with modesw := 0, fcs2 := 0, badRate := 0, seamVer := 0, trackLost := 0, eqResets := 0 }
    okR (if u8 p 1 = 1 then updLane (u8 p 0) (fun l => { l with stats := z }) s else s) (le 1 (u8 p 0) ++ le 3 0 ++ phyStatsBytes x)

def execLaneStateGet (v : Srv) (s : State) : Out := .next (serve 0x0300 laneStateGet v s)
def execLaneSet (v : Srv) (s : State) : Out := .next (serve 0x0301 laneSet v s)
def execLaneGet (v : Srv) (s : State) : Out := .next (serve 0x0302 laneGet v s)
def execLaneStatsGet (v : Srv) (s : State) : Out := .next (serve 0x0310 laneStatsGet v s)
def execPhyProfileSet (v : Srv) (s : State) : Out := .next (serve 0x0320 phyProfileSet v s)
def execPhyProfileGet (v : Srv) (s : State) : Out := .next (serve 0x0321 phyProfileGet v s)
def execPhyQualityGet (v : Srv) (s : State) : Out := .next (serve 0x0322 phyQualityGet v s)
def execPhyStatsGet (v : Srv) (s : State) : Out := .next (serve 0x0323 phyStatsGet v s)

/-! ### What a lane receives -/

def laneStat (n : Nat) (f : LaneStats → LaneStats) (s : State) : State := updLane n (fun l => { l with stats := f l.stats }) s

/-- R164: a gain the control has chosen and now freezes: the spec gives no law for it (log 53). -/
def agcFreeze (path : Nat) (s : State) : State :=
  if pathFrozen s path then s
  else
    let g := signed 8 (Config.free s.freeCtr % 256)
    updLanes (fun l => if path = 0 then { l with agcA := { l.agcA with gain := g } } else { l with agcB := { l.agcB with gain := g } })
      { s with freeCtr := s.freeCtr + 1 }

/-- R96: a shot whose quiesce has begun changes this lane, which then takes no new frame. -/
def laneStopped (s : State) (n : Nat) : Bool :=
  s.shots.buf.any (fun b => b.state == .quiescing && b.begun && !b.saving && b.entries.any (fun e => match e with
    | .mbx op p => op == 0x0301 && u8 p 0 == n
    | .reg _ _ _ => false))

/-- R177: a start-of-frame delimiter ends on a lane in SEARCH: the lane stamps the frame. `coded` tells which SFD of SUN FSK was
found (R190); `path` is the path that a per-frame choice of R139 took. -/
def execLaneSofDetect (lane path : Nat) (coded : Bool) (stamp : Nat) (s : State) : Out :=
  .next <| if laneState s lane ≠ 2 ∨ laneStopped s lane then s
  else
    let p := lanePath s lane path
    let f : LaneFrame := { stamp := stamp % mtMod, path := p, switched := s.radio.switchedFor == some lane, len := none,
                           coded := coded && (laneOf s lane).cfg.phy == 1, white := false, mcs := 0, weak := 0, eqReset := false }
    updRadio (fun r => { r with switchedFor := none, ant := if s.dev.variant = .shaft then r.ant else p })
      (updLane lane (fun l => { l with frame := some f })
        (laneStat lane (fun x => { x with sof := inc32 x.sof }) (agcFreeze (if s.dev.variant = .shaft then p else 0) s)))

/-- R203: the header check over h0 to h15. -/
def seamHcs (h : BitVec 24) : Nat :=
  (List.range 16).foldl (fun c i =>
    let fb := c.testBit 7 != h.getLsbD i
    let c2 := (2 * c) % 256
    if fb then c2 ^^^ 0x07 else c2) 0

/-- R203: h16 to h23 carry HCS bit 7 first. -/
def seamHcsSent (h : BitVec 24) : Nat := (List.range 8).foldl (fun a i => 2 * a + b2n (h.getLsbD (16 + i))) 0

/-- R203: VER, h8 and h9, least significant bit first. -/
def seamVer (h : BitVec 24) : Nat := b2n (h.getLsbD 8) + 2 * b2n (h.getLsbD 9)

/-- R189, R194, R204: what a header leads to: the PHY counter and `none` when the frame is abandoned, else its length, whitening and MCS. -/
def headerOutcome (c : LaneCfg) : LaneHdr → Option ((LaneStats → LaneStats) × Option (Nat × Bool × Nat))
  | .fsk decoded ms fcs2 white len =>
    if c.phy ≠ 1 then none
    else if !decoded then some (id, none)
    else if ms then some ((fun x => { x with modesw := inc32 x.modesw }), none)
    else if fcs2 then some ((fun x => { x with fcs2 := inc32 x.fcs2 }), none)
    else if len.toNat < 5 then some (id, none)
    else some (id, some (len.toNat, white, 0))
  | .ofdm hcs rate len =>
    if c.phy ≠ 2 then none
    else if !hcs then some (id, none)
    else if ndbps c.rate rate.toNat = 0 then some ((fun x => { x with badRate := inc32 x.badRate }), none)
    else if len.toNat < 5 then some (id, none)
    else some (id, some (len.toNat, false, rate.toNat))
  | .seam h =>
    let len := h.toNat % 256
    if c.phy ≠ 3 then none
    else if seamHcs h ≠ seamHcsSent h then some (id, none)
    else if len < 5 then some (id, none)
    else if seamVer h ≠ 0 then some ((fun x => { x with seamVer := inc32 x.seamVer }), none)
    else some (id, some (len, false, 0))

/-- R189, R194, R204: the PHY header of the frame a lane receives. -/
def execLaneHeader (lane : Nat) (h : LaneHdr) (s : State) : Out :=
  .next <| match (laneOf s lane).frame, headerOutcome (laneOf s lane).cfg h with
  | some f, some (count, r) =>
    if f.len.isSome then s
    else match r with
      | none => updLane lane Lane.endFrame (laneStat lane (fun x => { count x with hdrFail := inc32 x.hdrFail }) s)
      | some (len, white, mcs) => updLane lane (fun l => { l with frame := some { f with len := some len, white := white, mcs := mcs } }) s
  | _, _ => s

/-- R211 to R213: a pilot block: a fourth weak one in a row loses the frame; an equaliser beyond +6 dB is reset. -/
def execSeamPilotBlock (lane : Nat) (weak energy : Bool) (s : State) : Out :=
  .next <| match (laneOf s lane).frame with
  | none => s
  | some f =>
    let c := (laneOf s lane).cfg
    if c.phy ≠ 3 then s
    else if weak && decide (3 ≤ f.weak) then updLane lane Lane.endFrame (laneStat lane (fun x => { x with trackLost := inc32 x.trackLost }) s)
    else
      let reset := energy && !c.phycfg.testBit 3
      updLane lane (fun l => { l with frame := some { f with weak := if weak then f.weak + 1 else 0, eqReset := f.eqReset || reset } })
        (laneStat lane (fun x => { x with eqResets := if reset then inc32 x.eqResets else x.eqResets }) s)

/-- R164: the converter of a path clips on 4 consecutive samples: CLIP, and the gain drops by 6 dB at once: AGC_FORCED. -/
def execAgcClip (path : Nat) (s : State) : Out :=
  .next <| if !pathRuns s path then s
  else
    let f (a : PathAgc) : PathAgc := { gain := a.gain - 6, clip := inc32 a.clip, forced := inc32 a.forced }
    updLanes (fun l => if path = 0 then { l with agcA := f l.agcA } else { l with agcB := f l.agcB }) s

end Sys2Proof.Machine
end

