-- ==== Sys2Proof/Machine/QmOps.lean ====
section
/-! DEFINITION. The cell pool and the queues: allocation, admission, linking and popping (R356 to R372). -/

namespace Sys2Proof.Machine

def queueOf (s : State) (q : Nat) : Queue := tget Queue.reset q s.qm.queue
def updQueue (q : Nat) (f : Queue → Queue) (s : State) : State :=
  updQm (fun m => { m with queue := tset Queue.reset q (f (queueOf s q)) m.queue }) s

def qmStat (f : QmStats → QmStats) (s : State) : State := updQm (fun m => { m with stats := f m.stats }) s

/-- The queue exists on the variant (R67). -/
def queuePresent (s : State) (q : Nat) : Bool := decide (q < Config.queues s.dev.variant)

/-- R360 COUNT: cells a queue holds. -/
def Queue.count (q : Queue) : Nat := sumList (q.packets.map (fun p => p.cells.length))

/-- Free cells of the pool. -/
def freeCells (s : State) : Nat := Config.cells s.dev.variant - s.qm.used.length

/-- R359: the `n` free cells of lowest index from `c` up, the cells in use being rising. -/
def lowFree (c : Nat) : List Nat → Nat → List Nat
  | [], n => List.range' c n
  | u :: r, n =>
    let k := min n (u - c)
    List.range' c k ++ lowFree (u + 1) r (n - k)

/-- A rising list with an entry added. -/
def addSorted (x : Nat) : List Nat → List Nat
  | [] => [x]
  | y :: r => if x < y then x :: y :: r else if x = y then y :: r else y :: addSorted x r

/-- The cells of a packet of `n` bytes (R357). -/
def cellsFor (n : Nat) : Nat := cdiv n 64

/-- R359: allocates `n` cells. -/
def allocCells (n : Nat) (s : State) : State × List Nat :=
  let cs := lowFree 0 s.qm.used n
  let used := cs.foldl (fun a c => addSorted c a) s.qm.used
  (updQm (fun m => { m with used := used, usedMax := max m.usedMax used.length }) s, cs)

/-- Frees cells. -/
def releaseCells (cs : List Nat) (s : State) : State := updQm (fun m => { m with used := m.used.filter (fun c => !cs.contains c) }) s

/-- R362: a packet of `n` new cells may be pushed by software: within LIMIT, and leaving RESERVE free. -/
def admits (s : State) (q n : Nat) : Bool :=
  decide ((queueOf s q).count + n ≤ (queueOf s q).limit) && decide (n + s.qm.reserve ≤ freeCells s)

/-- R362: a packet whose cells are allocated already may be linked. -/
def admitsLinked (s : State) (q n : Nat) : Bool := decide ((queueOf s q).count + n ≤ (queueOf s q).limit)

/-- R362 FULL. -/
def queueFull (s : State) (q : Nat) : Bool := !admits s q 1

/-- R369, R370: an error found by a read: counted and recorded; a double-bit one raises QM_ECC at most once per second. -/
def noteEcc (code : Nat) (ue : Bool) (s : State) : State :=
  let s1 := updQm (fun m => { m with ceCount := if ue then m.ceCount else inc16 m.ceCount, ueCount := if ue then inc16 m.ueCount else m.ueCount,
                                     lastErr := code + (if ue then 2 ^ 30 else 0) }) s
  if ue && secondPast s.qm.eccEvent s then
    raise 0x8830 (le 4 s1.qm.lastErr ++ le 2 s1.qm.ueCount ++ le 2 0) (updQm (fun m => { m with eccEvent := some s.clk.mtime }) s1)
  else s1

/-- R378 LAST_ERR of word `w` of a packet. -/
def cellWord (cells : List Nat) (w : Nat) : Nat := at_ 0 cells (w / 16) + 2 ^ 13 * (w % 16)

/-- The errors a read of a packet's cells meets; whether one is uncorrectable (R371). -/
def readEcc (cells : List Nat) (e : PopEcc) (s : State) : State × Bool :=
  match e with
  | .ce w => if w < 16 * cells.length then (noteEcc (cellWord cells w) false s, false) else (s, false)
  | .ue w => if w < 16 * cells.length then (noteEcc (cellWord cells w) true s, true) else (s, false)
  | .linkCe w => (noteEcc (w % 8192 + 2 ^ 31) false s, false)
  | _ => (s, false)

/-! ### Pops and stalls (R364 to R366) -/

/-- R364: the EMPTY token. -/
def emptyToken : Nat := 0x80000000

def landing (s : State) (m : Master) (q : Nat) : Option (Nat × Nat) :=
  match m with | .app => (queueOf s q).landApp | .host => (queueOf s q).landHost

/-- The result of a master's read. -/
def setResult (m : Master) (v : Nat) (s : State) : State :=
  updQm (fun x => match m with | .app => { x with resultApp := v } | .host => { x with resultHost := v }) s

/-- Bytes in whole words, zeros past the end (R364). -/
def wholeWords (l : List Byte) : List Byte := l ++ List.replicate ((4 - l.length % 4) % 4) 0

/-- R364, R371: the head packet goes to the master's landing buffer, or the TOOBIG form is returned. -/
def popHead (m : Master) (q : Nat) (p : Packet) (rest : List Packet) (e : PopEcc) (s : State) : State × Nat :=
  let n := p.bytes.length
  match landing s m q with
  | some (waddr, cap) =>
    if cap < n then (qmStat (fun x => { x with popToobig := inc32 x.popToobig }) s, n + 2 ^ 30)
    else
      let r := readEcc p.cells e s
      let s1 := wrBytes r.1 (sharedBase + 4 * waddr) (wholeWords p.bytes)
      let s2 := releaseCells p.cells (updQueue q (fun x => { x with packets := rest }) s1)
      (qmStat (fun x => { x with popOk := inc32 x.popOk }) s2, n + (if r.2 || p.ue then 2 ^ 29 else 0))
  | none => (qmStat (fun x => { x with popToobig := inc32 x.popToobig }) s, n + 2 ^ 30)

def countEmpty (s : State) : State := qmStat (fun x => { x with popEmpty := inc32 x.popEmpty }) s

/-- R81, R365: the words a host transaction reads: the result of its one POP, then EMPTY tokens. -/
def hostWords (v more : Nat) : List Byte := le 4 v ++ (List.replicate more (le 4 emptyToken)).flatten

/-- A stalled read ends with a result: the core's load completes, the host's marker and data are sent and its transaction ends. -/
def endStall (t : Stall) (v : Nat) (s : State) : State :=
  let s1 := setResult t.master v (updQm (fun m => { m with stalls := m.stalls.filter (fun x => x != t) }) s)
  match t.master with
  | .host =>
    if s1.hostp.cs then { s1 with hostp := { s1.hostp with cs := false, left := 0, sdo := s1.hostp.sdo ++ (0x01#8 :: hostWords v s1.hostp.left) } } else s1
  | .app => updCore (fun c =>
      { c with run := if c.run = .stalledPop then .running else c.run,
               pendLoad := match t.rd with | some r => some (r, BitVec.ofNat 32 v) | none => c.pendLoad }) s1

/-- Ends every stall on a queue with the EMPTY token. -/
def endStallsEmpty (q : Nat) (s : State) : State :=
  (s.qm.stalls.filter (fun t => t.queue == q)).foldl (fun a t => endStall t emptyToken (countEmpty a)) s

/-- R366: the stalled pops of a queue that now holds a packet, in the order their stalls began. -/
def serveStalls (q : Nat) (s : State) : State :=
  (s.qm.stalls.filter (fun t => t.queue == q)).foldl (fun a t =>
    if (queueOf a q).kind ≠ 0 then a
    else match (queueOf a q).packets with
      | [] => a
      | p :: rest => let r := popHead t.master q p rest .none a; endStall t r.2 r.1) s

/-- R371: a double-bit error in a queue's link RAM. -/
def breakQueue (q w : Nat) (s : State) : State :=
  let s1 := updQueue q (fun x => { x with broken := true }) (noteEcc (w % 8192 + 2 ^ 31) true s)
  if s1.qm.stalls.any (fun t => t.queue == q) then endStallsEmpty q (updQueue q (fun x => { x with stallAborted := true }) s1) else s1

/-- R364, R365: a POP read: the result, or `none` when it stalls. -/
def popRead (m : Master) (q : Nat) (e : PopEcc) (rd : Option Nat) (s : State) : State × Option Nat :=
  let s := match e with | .linkUe w => breakQueue q w s | _ => s
  let x := queueOf s q
  if x.kind = 1 then (updQueue q (fun y => { y with kindErr := true }) (countEmpty s), some emptyToken)
  else if x.broken then (updQueue q (fun y => { y with stallAborted := true }) (countEmpty s), some emptyToken)
  else match x.packets with
    | p :: rest => let r := popHead m q p rest e s; (r.1, some r.2)
    | [] =>
      (updQm (fun y => { y with stalls := y.stalls.filter (fun t => t.master != m) ++ [{ master := m, queue := q, start := s.clk.mtime, rd := rd }] }) s, none)

/-! ### Linking and taking -/

/-- A packet is linked at the tail; stalled pops see it on the same edge (R363, R366). -/
def linkPacket (q : Nat) (p : Packet) (s : State) : State :=
  serveStalls q (updQueue q (fun x =>
    let y := { x with packets := x.packets ++ [p] }
    { y with highWater := max y.highWater y.count }) s)

/-- R363: a write of QM_PUSH. -/
def pushWrite (q : Nat) (v : Word) (s : State) : State :=
  let w := v.toNat
  let waddr := bits w 0 13
  let n := bits w 13 12
  if waddr < 0x400 ∨ 0x8000 < waddr * 4 + n ∨ n < 8 ∨ 2112 < n ∨ 2 ^ 25 ≤ w ∨ (queueOf s q).broken then
    qmStat (fun x => { x with pushBad := inc32 x.pushBad }) (updQueue q (fun x => { x with badPush := true }) s)
  else if !admits s q (cellsFor n) then
    qmStat (fun x => { x with pushRefused := inc32 x.pushRefused }) (updQueue q (fun x => { x with overrun := true }) s)
  else
    let r := allocCells (cellsFor n) s
    linkPacket q { cells := r.2, bytes := rdBytes s (sharedBase + 4 * waddr) n, ue := false }
      (qmStat (fun x => { x with pushOk := inc32 x.pushOk }) r.1)

/-- R364: a write of QM_POP sets the master's landing buffer for the queue. -/
def landWrite (m : Master) (q : Nat) (v : Word) (s : State) : State :=
  let w := v.toNat
  let waddr := bits w 0 13
  let n := bits w 13 12
  let set (l : Option (Nat × Nat)) : State :=
    updQueue q (fun x => match m with | .app => { x with landApp := l } | .host => { x with landHost := l }) s
  if 2 ^ 25 ≤ w then updQueue q (fun x => { x with badPush := true }) s
  else if n = 0 then set none
  else if waddr < 0x400 ∨ 0x8000 < waddr * 4 + n then updQueue q (fun x => { x with badPush := true }) s
  else set (some (waddr, n))

/-! ### Registers and records (QM_STATUS, QM_LIMIT, R376 to R379) -/

def queueStatus (s : State) (q : Nat) : Nat :=
  let x := queueOf s q
  min x.count 8191 + 2 ^ 13 * b2n (queueFull s q) + 2 ^ 14 * b2n x.packets.isEmpty + 2 ^ 15 * b2n x.broken + 2 ^ 16 * b2n x.overrun +
    2 ^ 17 * b2n x.stallExpired + 2 ^ 18 * b2n x.stallAborted + 2 ^ 19 * b2n x.stallIntr + 2 ^ 20 * b2n x.kindErr + 2 ^ 21 * b2n x.badPush +
    2 ^ 24 * min 255 x.packets.length

def queueLimit (s : State) (q : Nat) : Nat :=
  let x := queueOf s q
  x.limit + 2 ^ 13 * x.kind + 2 ^ 16 * x.stall

/-- W1C bits of QM_STATUS. -/
def clearStatus (q : Nat) (v : Word) (s : State) : State :=
  updQueue q (fun x =>
    { x with overrun := x.overrun && !bit v 16, stallExpired := x.stallExpired && !bit v 17, stallAborted := x.stallAborted && !bit v 18,
             stallIntr := x.stallIntr && !bit v 19, kindErr := x.kindErr && !bit v 20, badPush := x.badPush && !bit v 21 }) s

/-- R374: the configuration of a queue in the request's layout. -/
def queueRec (s : State) (q : Nat) : List Byte :=
  let x := queueOf s q
  le 2 q ++ le 1 x.kind ++ le 1 0 ++ le 2 x.limit ++ le 2 x.stall

/-- R376: the queue record. -/
def queueStatusRec (s : State) (q : Nat) : List Byte :=
  let x := queueOf s q
  le 2 q ++ le 1 x.kind ++ le 1 (bits (queueStatus s q) 13 8) ++ le 2 x.count ++ le 2 x.packets.length ++ le 2 x.limit ++ le 2 x.highWater ++
    le 2 x.stall ++ le 2 (s.qm.stalls.filter (fun t => t.queue == q)).length

def qmCfgRec (s : State) : List Byte := le 2 s.qm.reserve ++ le 2 0

/-- R378. -/
def qmStateRec (s : State) : List Byte :=
  let cells := Config.cells s.dev.variant
  le 2 cells ++ le 2 (freeCells s) ++ le 2 (cells - s.qm.usedMax) ++ le 2 s.qm.reserve ++ le 2 s.qm.ceCount ++ le 2 s.qm.ueCount ++
    le 4 s.qm.lastErr ++ le 2 (s.qm.queue.filter (fun q => q.2.broken)).length ++ le 2 0

def qmStatsBytes (x : QmStats) : List Byte :=
  [x.pushOk, x.pushRefused, x.pushBad, x.popOk, x.popEmpty, x.popToobig, x.ueDropped, x.lostWake, x.flushed].flatMap (le 4)

/-- R380: the survey body of unit 0x08. -/
def qmSurvey (s : State) : List Byte :=
  qmStateRec s ++ qmCfgRec s ++ qmStatsBytes s.qm.stats ++ (List.range (Config.queues s.dev.variant)).flatMap (queueStatusRec s)

end Sys2Proof.Machine
end

