-- ==== Sys2Proof/Machine/Cipher.lean ====
section
/-! DEFINITION. The cipher engine and the key store: slots, frame counters, application operations and its commands (R408 to R441). -/

namespace Sys2Proof.Machine

/-! ### Slots (R408 to R411) -/

def slotOf (s : State) (k : Nat) : KeySlot := tget KeySlot.empty k s.cipher.slot
def ctrOf (s : State) (k : Nat) : KeyCounter := tget KeyCounter.zero k s.cipher.ctr
def recordOf (s : State) (k : Nat) : KeyRecord := tget KeyRecord.empty k s.cipher.backing

def putSlot (k : Nat) (x : KeySlot) (s : State) : State := updCipher (fun c => { c with slot := tset KeySlot.empty k x c.slot }) s
def putCtr (k : Nat) (x : KeyCounter) (s : State) : State := updCipher (fun c => { c with ctr := tset KeyCounter.zero k x c.ctr }) s
def putRecord (k : Nat) (x : KeyRecord) (s : State) : State := updCipher (fun c => { c with backing := tset KeyRecord.empty k x c.backing }) s

def cipherStat (f : CipherStats → CipherStats) (s : State) : State := updCipher (fun c => { c with stats := f c.stats }) s

/-- R411: the slot is ACTIVE and its USAGE holds the bit. -/
def slotPermits (s : State) (k b : Nat) : Bool :=
  decide (k < 64) && decide ((slotOf s k).state = 1) && bit (slotOf s k).usage b

/-- `a` holds no bit that `b` lacks. -/
def within {w : Nat} (a b : BitVec w) : Bool := a &&& ~~~b == 0

/-- R410: usage bits that a key of this type may hold in this slot. -/
def usageLimit (type target : Nat) : BitVec 8 := if target = 1 then 0x40 else if type = 1 then 0x3F else 0x3C

/-- R409 KCV: zero for slot 0, and where no key stands. -/
def slotKcv (s : State) (k : Nat) : List Byte :=
  if k = 0 ∨ (slotOf s k).key = [] then [0, 0, 0] else kcv (slotOf s k).key

/-- R432: the slot record. -/
def keyRec (s : State) (k : Nat) : List Byte :=
  let x := slotOf s k
  let c := ctrOf s k
  le 1 k ++ le 1 x.type ++ le 1 x.state ++ le 1 x.origin ++ [x.allowed, x.usage] ++ le 1 (b2n c.exhausted + 2 * b2n c.low) ++ le 1 0 ++
    le 4 c.fc ++ le 4 c.fcReserved ++ slotKcv s k ++ le 1 0

/-- R441 CIPHER_FAULT. -/
def cipherFault (reason slot : Nat) (s : State) : State := raise 0x8A30 (le 1 reason ++ le 1 slot ++ le 2 0) s

/-- R426: a generate request of the general DRBG. -/
def genUse (s : State) : State := updCipher (fun c => { c with genReq := sat 0xFFFFFFFF (c.genReq + 1) }) s

/-- The CRYPTO domain is powered and the store is loaded (R24, R430). -/
def cryptoOn (s : State) : Bool :=
  (s.boot.stage == .ready || s.boot.stage == .up || s.boot.stage == .loader) && !(s.pwr.phase == .asleep && s.pwr.seeking == .hibernate)

/-! ### Frame counters (R417 to R419) -/

/-- R418: the reservation to write next. -/
def nextReserve (r : Nat) : Nat := min (r + 65536) 0xFFFFFFFF

/-- R418: a reservation write is due. -/
def reserveDue (c : KeyCounter) : Bool := decide (c.fcReserved - c.fc ≤ 16384) && decide (c.fcReserved < 0xFFFFFFFF)

/-- What a draw answers (R411, R417, R418, R427). -/
inductive Draw where
  /-- HALT, or FC at FC_RESERVED -/ | wait
  /-- R411, R417: outcome 2 -/ | refuse
  | value (counter : Nat)
  deriving DecidableEq, Repr

/-- R417: a COUNTER value is drawn from a slot for a frame. -/
def drawFC (k : Nat) (s : State) : State × Draw :=
  let c := ctrOf s k
  if s.cipher.halt then (s, .wait)
  else if !slotPermits s k 0 then (s, .refuse)
  else if c.fc = 0xFFFFFFFF then (putCtr k { c with exhausted := true } s, .refuse)
  else if c.fcReserved ≤ c.fc then (putCtr k { c with writing := true } s, .wait)
  else
    let d := { c with fc := c.fc + 1 }
    let low : Bool := decide (0xF0000000 ≤ d.fc) && !d.low
    let s1 := putCtr k { d with low := d.low || low, writing := d.writing || reserveDue d } s
    (if low then raise 0x8A31 (le 1 k ++ le 3 0 ++ le 4 d.fc) s1 else s1, .value c.fc)

/-- R418: the background write of a slot's reservation ends. -/
def reserveWritten (k : Nat) (fail : Bool) (s : State) : State :=
  let c := ctrOf s k
  if !c.writing then s
  else if fail then
    let s1 := putCtr k { c with writing := false, faulted := true } s
    if c.faulted then s1 else cipherFault 4 k s1
  else
    let r := nextReserve c.fcReserved
    cipherStat (fun x => { x with reserveWrites := inc32 x.reserveWrites })
      (putRecord k { recordOf s k with fcReserved := r } (putCtr k { c with writing := false, faulted := false, fcReserved := r } s))

/-- R418: FC_RESERVE_RETRY: every slot whose last write failed is written again. -/
def reserveRetry (s : State) : State :=
  updCipher (fun c => { c with ctr := c.ctr.map (fun e => (e.1, if e.2.faulted then { e.2 with writing := true } else e.2)) }) s

/-! ### The key store at start-up (R417, R430) -/

/-- One slot is loaded from its record; a damaged one loads as EMPTY. At POR FC restarts at FC_RESERVED. -/
def loadSlot (por : Bool) (s : State) (k : Nat) : State :=
  let r := recordOf s k
  let c := ctrOf s k
  let keep : Bool := !por && decide (c.fcReserved = r.fcReserved)
  if r.damaged then cipherFault 5 k (putCtr k .zero (putSlot k { KeySlot.empty with origin := 0xFF } s))
  else
    putCtr k { c with fc := if keep then c.fc else r.fcReserved, fcReserved := r.fcReserved, writing := false, faulted := false }
      (putSlot k r.slot s)

/-- R430: the store is loaded; the DRBGs are seeded by the start-up test of the source (R425). -/
def loadKeys (por : Bool) (s : State) : State :=
  let s1 := (List.range 64).foldl (loadSlot por) s
  updCipher (fun c => { c with halt := false, source := .running, restarts := 0, maskReq := 0, genReq := 0, job := none,
                               reseedAt := s.clk.mtime }) s1

/-! ### Records (R440) -/

def cipherRec (s : State) : List Byte :=
  let c := s.cipher
  le 1 (b2n c.halt) ++ le 1 (match c.source with | .running => 0 | .restarting => 1 | .fault => 2) ++
    le 1 ((List.range 64).filter (fun k => decide ((slotOf s k).state ≠ 0))).length ++ le 1 0 ++ le 4 (max c.maskReq c.genReq) ++ le 8 c.reseedAt

def cipherStatsRec (x : CipherStats) : List Byte :=
  [x.secured, x.checked, x.unwrapFail, x.appOps, x.appTagFail, x.sigInvalid, x.healthFail, x.reseeds, x.haltDrop, x.reserveWrites].flatMap (le 4)

/-- R441: the survey body of unit 0x0A. -/
def cipherSurvey (s : State) : List Byte := cipherRec s ++ (List.range 64).flatMap (keyRec s) ++ cipherStatsRec s.cipher.stats

/-! ### Commands (R431 to R440) -/

def cipherStateGet : CoreFn := fun _ _ s => okR s (cipherRec s)

def keyInfoGet : CoreFn := fun _ p s =>
  guardR s [(decide (u8 p 0 ≤ 63), 0), (decide (1 ≤ u8 p 1 ∧ u8 p 1 ≤ 11 ∧ u8 p 0 + u8 p 1 ≤ 64), 1), rsv p 2 2] fun _ =>
    okR s (le 1 (u8 p 1) ++ le 3 0 ++ (List.range (u8 p 1)).flatMap (fun i => keyRec s (u8 p 0 + i)))

/-- R433. A write of the backing record that fails leaves the change in force. -/
def keyUsageSet : CoreFn := fun c p s =>
  let k := u8 p 0
  let x := slotOf s k
  let usage := BitVec.ofNat 8 (u8 p 2)
  guardR s [(decide (2 ≤ k ∧ k ≤ 63 ∧ x.state ≠ 0), 0), (u8 p 1 == 1 || u8 p 1 == 2, 1), (within usage x.allowed, 2), rsv p 3 1] fun _ =>
    let y := { x with state := u8 p 1, usage := usage }
    let s1 := putSlot k y s
    let s2 := match c.failAt 0 with
      | some _ => cipherFault 4 k s1
      | none => putRecord k { recordOf s k with slot := y } s1
    okR s2 (keyRec s2 k)

/-- A key enters a slot: its record is stored and read back, then the slot is ACTIVE (R413, R415). -/
def enterKey (c : Ctx) (k : Nat) (x : KeySlot) (fc : Nat) (s : State) : Res :=
  match c.failAt 0 with
  | some b => errR s stFLASH (b % 65536)
  | none =>
    let r := nextReserve fc
    let s1 := putRecord k { slot := x, fcReserved := r, damaged := false }
      (putCtr k { KeyCounter.zero with fc := fc, fcReserved := r } (putSlot k x s))
    okR s1 (keyRec s1 k)

/-- R413, R434. -/
def keyImport : CoreFn := fun c p s =>
  let k := u8 p 0
  let kek := u8 p 1
  let n := u8 p 4
  let usage := BitVec.ofNat 8 (u8 p 2)
  let target : Bool := decide (1 ≤ k ∧ k ≤ 63) && (k == 1 || decide ((slotOf s k).state = 0))
  let kekOk : Bool := kek != k && slotPermits s kek 2 && (n != 48 || decide ((slotOf s kek).type = 2))
  guardR s [rsv p 3 1, rsv p 5 3, (target, 0), (kekOk, 1), (n == 32 || n == 48, 4), (zeros p (8 + n) (48 - n), 8)] fun _ =>
    if s.cipher.halt then busyR s 0x0A
    else
      let s1 := maskUse n s
      let bad (off : Nat) : Res := badR (cipherStat (fun x => { x with unwrapFail := inc32 x.unwrapFail }) s1) off
      match keyUnwrap (slotOf s kek).key (slice p 8 n) with
      | none => bad 8
      | some t =>
        let kl := n - 16
        let type := u8 t kl
        let allowed := BitVec.ofNat 8 (u8 t (kl + 1))
        let fc := unbe (slice t (kl + 4) 4)
        let attrs : Bool := (type == (if n = 32 then 1 else 2)) && zeros t (kl + 2) 2 && fc != 0xFFFFFFFF &&
          within allowed (usageLimit type k) && (k != 1 || (type == 1 && allowed == 0x40))
        if !attrs then bad 8
        else if !within usage allowed then bad 2
        else enterKey c k { type := type, state := 1, origin := 2, allowed := allowed, usage := usage, key := t.take kl } fc s1

/-- R416, R435. -/
def keyRetire : CoreFn := fun c p s =>
  let k := u8 p 0
  let x := slotOf s k
  guardR s [(decide (2 ≤ k ∧ k ≤ 63 ∧ x.state ≠ 0), 0), rsv p 1 3] fun _ =>
    let y := { x with state := 2, usage := 0 }
    let s1 := putSlot k y s
    match c.failAt 0 with
    | some b => errR s1 stFLASH (b % 65536)
    | none =>
      let s2 := putSlot k { y with key := [] } (putRecord k { recordOf s k with slot := y } s1)
      match c.failAt 1 with
      | some b => errR s2 stFLASH (b % 65536)
      | none =>
        let s3 := putCtr k .zero (putSlot k .empty (putRecord k .empty s2))
        okR s3 (keyRec s3 k)

/-- R415, R436. -/
def keyGenerate : CoreFn := fun c p s =>
  let k := u8 p 0
  let type := u8 p 1
  let allowed := BitVec.ofNat 8 (u8 p 3)
  let usage := BitVec.ofNat 8 (u8 p 4)
  let label := slice p 8 16
  guardR s [(decide (3 ≤ k ∧ k ≤ 63 ∧ (slotOf s k).state = 0), 0), (type == 1 || type == 2, 1), (decide (u8 p 2 ≤ 1), 2),
    (within allowed 0x38, 3), (within usage allowed, 4), rsv p 5 3,
    (if u8 p 2 = 0 then zeros p 8 16 else u8 p 8 != 0xFF, 8)] fun _ =>
    if s.cipher.halt then busyR s 0x0A
    else
      let n := 16 * type
      let r : List Byte × State :=
        if u8 p 2 = 0 then freshBytes n (genUse s) else (deriveKey (slotOf s 0).key label type, maskUse n s)
      enterKey c k { type := type, state := 1, origin := 3 + u8 p 2, allowed := allowed, usage := usage, key := r.1 } 0 r.2

/-- R437: a word index and a length lie in the DMA region. -/
def dmaOk (waddr len : Nat) : Bool := decide (0x400 ≤ waddr ∧ waddr ≤ 0x1FFF ∧ waddr * 4 + len ≤ 0x8000)

/-- R437: the usage bit that an operation needs. -/
def runBit : Nat → Nat
  | 0 => 3 | 1 => 4 | 2 => 3 | 3 => 4 | _ => 5

/-- R437: the checks of CIPHER_RUN in the order of their fields. -/
def runChecks (s : State) (p : List Byte) : List (Bool × Nat) :=
  let op := u8 p 1
  let t := u8 p 2
  let mac : Bool := op == 4 || op == 5
  let inW := u16 p 8
  let inL := u16 p 10
  let outW := u16 p 12
  let verify : Bool := op == 1 || op == 3 || op == 5
  let tagLen : Bool := if op ≤ 1 then t == 4 || t == 8 || t == 16 else if op ≤ 3 then t == 12 || t == 16 else decide (4 ≤ t ∧ t ≤ 16)
  let nonce := if op ≤ 1 then 13 else if op ≤ 3 then 12 else 0
  let apart : Bool := outW == inW || decide (outW * 4 + inL ≤ inW * 4) || decide (inW * 4 + inL ≤ outW * 4)
  [(decide (2 ≤ u8 p 0 ∧ u8 p 0 ≤ 63) && (decide (5 < op) || slotPermits s (u8 p 0) (runBit op)), 0), (decide (op ≤ 5), 1), (tagLen, 2),
    (u8 p 3 == nonce, 3), (u16 p 6 == 0 || dmaOk (u16 p 4) (u16 p 6), 4), (decide (u16 p 6 ≤ if mac then 0 else 1024), 6),
    (dmaOk inW inL, 8), (decide (inL ≤ 4096), 10), (mac || (dmaOk outW inL && apart), 12), rsv p 14 2,
    (zeros p (16 + nonce) (16 - nonce), 16), (if verify then zeros p (32 + t) (16 - t) else zeros p 32 16, 32)]

def cipherRun : CoreFn := fun c p s =>
  guardR s (runChecks s p) fun _ =>
    if s.cipher.halt then busyR s 0x0A
    else pendR c s fun n => updCipher (fun x => { x with job := some (.run n (slotOf s (u8 p 0)).key p) }) s

def rngGet : CoreFn := fun _ p s =>
  guardR s [(decide (1 ≤ u8 p 0 ∧ u8 p 0 ≤ 224), 0), rsv p 1 3] fun _ =>
    if s.cipher.halt then busyR s 0x0A
    else let r := freshBytes (u8 p 0) (genUse s); okR r.2 (le 1 (u8 p 0) ++ le 3 0 ++ r.1)

def sigVerify : CoreFn := fun c p s => pendR c s fun n => updCipher (fun x => { x with job := some (.verify n p) }) s

def cipherStatsGet : CoreFn := fun _ p s =>
  guardR s [(decide (u8 p 0 ≤ 1), 0), rsv p 1 3] fun _ =>
    okR (if u8 p 0 = 1 then cipherStat (fun _ => .zero) s else s) (cipherStatsRec s.cipher.stats)

def execCipherStateGet (v : Srv) (s : State) : Out := .next (serve 0x0A00 cipherStateGet v s)
def execKeyInfoGet (v : Srv) (s : State) : Out := .next (serve 0x0A01 keyInfoGet v s)
def execKeyUsageSet (v : Srv) (s : State) : Out := .next (serve 0x0A02 keyUsageSet v s)
def execKeyImport (v : Srv) (s : State) : Out := .next (serve 0x0A10 keyImport v s)
def execKeyRetire (v : Srv) (s : State) : Out := .next (serve 0x0A11 keyRetire v s)
def execKeyGenerate (v : Srv) (s : State) : Out := .next (serve 0x0A12 keyGenerate v s)
def execCipherRun (v : Srv) (s : State) : Out := .next (serve 0x0A20 cipherRun v s)
def execRngGet (v : Srv) (s : State) : Out := .next (serve 0x0A21 rngGet v s)
def execSigVerify (v : Srv) (s : State) : Out := .next (serve 0x0A23 sigVerify v s)
def execCipherStatsGet (v : Srv) (s : State) : Out := .next (serve 0x0A30 cipherStatsGet v s)

/-! ### The ends of the application operations (R437, R439) -/

/-- What an application operation gives: output bytes, the tag it computed, and whether a tag to verify was right. -/
def runResult (key aad data : List Byte) (p : List Byte) : List Byte × List Byte × Bool :=
  let t := u8 p 2
  let nonce := slice p 16 (u8 p 3)
  let tag := slice p 32 t
  match u8 p 1 with
  | 0 => let r := ccmEncrypt key nonce aad data t; (r.1, r.2, true)
  | 1 => let r := ccmDecrypt key nonce aad data tag; (r.1, [], r.2)
  | 2 => let r := gcmEncrypt key nonce aad data t; (r.1, r.2, true)
  | 3 => let r := gcmDecrypt key nonce aad data tag; (r.1, [], r.2)
  | 4 => ([], (cmac key data).take t, true)
  | _ => ([], [], (cmac key data).take t == tag)

def execCipherRunDone (s : State) : Out :=
  .next <| match s.cipher.job with
  | some (.run n key p) =>
    let inL := u16 p 10
    let aad := rdBytes s (sharedBase + 4 * u16 p 4) (u16 p 6)
    let r := runResult key aad (rdBytes s (sharedBase + 4 * u16 p 8) inL) p
    let out := if u8 p 1 = 4 ∨ u8 p 1 = 5 then [] else if r.2.2 then r.1 else List.replicate inL 0
    let s1 := wrBytes (maskUse (inL + u16 p 6) s) (sharedBase + 4 * u16 p 12) out
    let s2 := cipherStat (fun x => { x with appOps := inc32 x.appOps, appTagFail := if r.2.2 then x.appTagFail else inc32 x.appTagFail }) s1
    complete n 0 0 (le 1 (b2n (!r.2.2)) ++ le 1 (u8 p 2) ++ le 2 0 ++ slice r.2.1 0 16) (updCipher (fun x => { x with job := none }) s2)
  | _ => s

def execSigVerifyDone (s : State) : Out :=
  .next <| match s.cipher.job with
  | some (.verify n p) =>
    let v := ecdsaVerify (slice p 0 32) (slice p 32 64) (slice p 96 64)
    complete n 0 0 (le 1 v ++ le 3 0)
      (updCipher (fun x => { x with job := none })
        (cipherStat (fun x => { x with sigInvalid := if v = 0 then x.sigInvalid else inc32 x.sigInvalid }) s))
  | _ => s

/-! ### The entropy source and the DRBGs (R425 to R427) -/

/-- R426: an instance reseeds; HALT ends when a reseed succeeds (R427). In FAULT it waits for the next request. -/
def reseed (mask : Bool) (s : State) : State :=
  if !cryptoOn s || s.cipher.source == .fault then s
  else
    let s1 := updCipher (fun c =>
      { c with maskReq := if mask then 0 else c.maskReq, genReq := if mask then c.genReq else 0, reseedAt := s.clk.mtime, halt := false,
               stats := { c.stats with reseeds := inc32 c.stats.reseeds } }) s
    if s.cipher.halt then cipherFault 3 0xFF s1 else s1

/-- R427: an instance has reached 2^20 requests since its last reseed. -/
def execCipherHalt (mask : Bool) (s : State) : Out :=
  .next <|
    if !cryptoOn s || s.cipher.halt || decide ((if mask then s.cipher.maskReq else s.cipher.genReq) < 2 ^ 20) then s
    else cipherFault 2 0xFF (updCipher (fun c => { c with halt := true }) s)

/-- R425: a health test fails and the source restarts. -/
def execHealthFail (s : State) : Out :=
  .next <|
    if !cryptoOn s || s.cipher.source != .running then s
    else updCipher (fun c => { c with source := .restarting, restarts := 0, stats := { c.stats with healthFail := inc32 c.stats.healthFail } }) s

/-- R425: the start-up test of a restart ends, or the one that falls each second in FAULT. -/
def execSourceRestartEnd (pass : Bool) (s : State) : Out :=
  .next <|
    if !cryptoOn s || s.cipher.source == .running then s
    else if pass then updCipher (fun c => { c with source := .running, restarts := 0 }) s
    else
      let s1 := updCipher (fun c => { c with restarts := c.restarts + 1, stats := { c.stats with healthFail := inc32 c.stats.healthFail } }) s
      if s.cipher.source == .restarting && decide (3 ≤ s1.cipher.restarts) then
        cipherFault 1 0xFF (updCipher (fun c => { c with source := .fault }) s1)
      else s1

end Sys2Proof.Machine
end

