-- ==== Sys2Proof/Machine/LinkOps.lean ====
section
/-! DEFINITION. The link controller's tables and frames: addresses, neighbours, schedules, routes, descriptors and the octets of a frame
(R250 to R283, R298, R299). -/

namespace Sys2Proof.Machine

/-! ### Addresses (R251, R252) -/

def unassigned : Nat := 0x1FFFFFE
def broadcast : Nat := 0x1FFFFFF
def isGroup (a : Nat) : Bool := decide (0x1FF0000 ≤ a ∧ a ≤ 0x1FFFFFD)
def assignable (a : Nat) : Bool := decide (a ≤ 0x1FEFFFF)
/-- OWN_SHORT is assigned. -/
def ownAssigned (s : State) : Bool := decide (s.link.cfg.ownShort ≠ unassigned)
def subscribed (s : State) (a : Nat) : Bool := isGroup a && s.link.cfg.groups.contains a

/-! ### Neighbour entries (R262 to R264, R302) -/

def nbrCount (s : State) : Nat := Config.neighbours s.dev.variant
def nbrOf (s : State) (i : Nat) : Nbr := tget Nbr.blank i s.link.nbr
def putNbr (i : Nat) (e : Nbr) (s : State) : State := updLink (fun l => { l with nbr := tset Nbr.blank i e l.nbr }) s
def updNbr (i : Nat) (f : Nbr → Nbr) (s : State) : State := putNbr i (f (nbrOf s i)) s
def linkStat (f : LinkStats → LinkStats) (s : State) : State := updLink (fun l => { l with stats := f l.stats }) s

/-- The entry that a test finds first among those that are not FREE. -/
def findNbr (s : State) (p : Nbr → Bool) : Option Nat := (s.link.nbr.find? (fun e => decide (e.2.state ≠ .free) && p e.2)).map Prod.fst
def findShort (s : State) (a : Nat) : Option Nat := findNbr s (fun e => decide (e.short = a))
def findEui (s : State) (x : List Byte) : Option Nat := findNbr s (fun e => decide (e.eui64 = x))

/-- R302: the time source. -/
def timeSource (s : State) : Option Nat := if bit s.timing.cfg.flags 0 then none else findNbr s (fun e => bit e.flags 0)

/-- FLAGS.RDV: the neighbour listens on a schedule. -/
def Nbr.rdv (e : Nbr) : Bool := bit e.flags 2

def nbrCode : NbrState → Nat
  | .free => 0 | .active => 1 | .resync => 2 | .lost => 3
/-- R262: the 64 bytes of an entry. -/
def nbrBytes (e : Nbr) : List Byte :=
  let w (n : Nat) : Nat := at_ 0 e.dupWin n * 2 ^ (12 * n)
  le 4 e.short ++ e.eui64 ++ le 1 (nbrCode e.state) ++ [e.flags] ++ le 1 e.lq ++ le 1 e.profile ++ le 1 e.txKey ++ le 1 e.rxKey ++
    le 1 e.rxKeyPrev ++ le 1 (e.miss + 16 * e.fails) ++ le 2 e.txSeq ++ le 6 (w 0 + w 1 + w 2 + w 3) ++ le 2 e.queue ++
    le 2 e.bitmap.toNat ++ le 4 e.hwm ++ le 4 e.hwmPrev ++ lei 3 e.drift ++
    le 1 (b2n e.hwmValid + 2 * b2n e.prevValid + 4 * e.dupWin.length) ++ le 4 e.rdvPeriod ++ le 4 e.rdvOffset ++ le 4 e.lastAck ++
    le 2 e.rxOk ++ le 2 e.txOk ++ le 2 e.txFail ++ le 2 e.retries

/-! ### Listen schedules (R298, R299, R311) -/

/-- A schedule: period in ms, channel sequence, offset in units of 256 ticks. -/
structure Sched3 where
  period : Nat
  seq : Nat
  offset : Nat
  deriving DecidableEq, Repr

def nbrSched (e : Nbr) : Sched3 := ⟨e.rdvPeriod % 2 ^ 24, e.rdvPeriod / 2 ^ 24, e.rdvOffset⟩
def ownSched (s : State) : Sched3 := ⟨s.timing.cfg.ownPeriod, s.timing.cfg.ownChseq, s.timing.cfg.ownOffset⟩

/-- R299: the centre of rendezvous `k`. -/
def Sched3.centre (x : Sched3) (k : Nat) : Nat := k * x.period * 2 ^ 24 / 1000 + x.offset * 256

/-- The first rendezvous whose centre is at or after `m`. -/
def Sched3.first (x : Sched3) (m : Nat) : Nat :=
  if x.period = 0 then 0
  else
    let k := (m - x.offset * 256) * 1000 / (x.period * 2 ^ 24)
    if m ≤ x.centre k then k else if m ≤ x.centre (k + 1) then k + 1 else k + 2

/-- R299: a channel sequence; 0 is the home frequency. -/
def chseqOf (s : State) (q : Nat) : List Nat := tget chseqReset q s.timing.chseq

/-- R323: the sequence that governs a rendezvous centred at `ck`. -/
def chseqAt (s : State) (q ck : Nat) : List Nat :=
  match s.timing.chseqOld.find? (fun o => o.1 == q && mtLater o.2.2 ck) with
  | some o => o.2.1
  | none => chseqOf s q

/-- R299: f[k mod n], as a tuning, of the sequence that governs `ck`. -/
def seqTune (s : State) (q k ck : Nat) : Nat :=
  if q = 0 then s.radio.home
  else let f := chseqAt s q ck; hzTune (at_ 0 f (k % max 1 f.length))

def Sched3.tune (x : Sched3) (s : State) (k : Nat) : Nat := seqTune s x.seq k (x.centre k)

/-- 2 ms in ticks. -/
def ms2 : Nat := usTicks 2000

/-- R311: the rendezvous a frame placed now goes to; none without a period. -/
def nextRdv (s : State) (x : Sched3) : Option Nat := if x.period = 0 then none else some (x.first (s.clk.mtime + ms2))

/-- R304: t_lead of a profile, in ticks. -/
def leadTicks (p : Profile) : Nat :=
  match p.phy with
  | 1 => rdiv ((p.preamble + 2) * 8 * 2 ^ 24) p.rate
  | 2 => usTicks 720
  | 3 => match seamIdx p.rate with
    | some i => rdiv (64 * 2 ^ 24) (at_ (0, 0, 1) seamTable i).2.2
    | none => 0
  | _ => 0

def profileOf (s : State) (n : Nat) : Profile := at_ Profile.reset s.lanes.profile n

/-! ### Routes (R280, R281) -/

def routeOf (s : State) (i : Nat) : Route := tget Route.blank i s.link.route

/-- R280: a valid range covers an address. -/
def Route.covers (r : Route) (a : Nat) : Bool := r.valid == 1 && decide (r.base ≤ a ∧ a < r.base + 2 ^ r.size)

/-- The smaller of two ranges that cover an address. -/
def smaller (a : Option (Nat × Route)) (b : Nat × Route) : Option (Nat × Route) :=
  match a with
  | none => some b
  | some x => if b.2.size < x.2.size then some b else some x

/-- What a lookup finds (R281). -/
inductive Lookup where
  | isLocal
  | range (i : Nat) (r : Route)
  | parent (r : Route)
  | unrouted
  deriving DecidableEq, Repr

def lookup (s : State) (a : Nat) : Lookup :=
  if a = s.link.cfg.ownShort then .isLocal
  else match (s.link.route.filter (fun r => r.2.covers a)).foldl smaller none with
    | some (i, r) => .range i r
    | none => if s.link.parent.valid = 1 then .parent s.link.parent else .unrouted

/-- The route a lookup found. -/
def Lookup.route : Lookup → Option Route
  | .range _ r => some r
  | .parent r => some r
  | _ => none

/-! ### Descriptors (R274, R279, R283) -/

def pNbr (p : List Byte) : Nat := u16 p 0
def pCtl (p : List Byte) : Nat := u16 p 2
def pDest (p : List Byte) : Nat := u32 p 4
def pLen (p : List Byte) : Nat := pCtl p % 2048
def pAr (p : List Byte) : Bool := (pCtl p).testBit 11
def pMesh (p : List Byte) : Bool := (pCtl p).testBit 12
def pNotify (p : List Byte) : Bool := (pCtl p).testBit 13
def pGdest (p : List Byte) : Nat := pDest p % 2 ^ 25
def pRet (p : List Byte) : Nat := bits (pDest p) 25 3
/-- FINAL_DST of the mesh header in the cells. -/
def pFinal (p : List Byte) : Nat := u32 p 9

/-- What a submitted packet comes to when it is taken. -/
inductive Hop where
  /-- a unicast frame to this entry, with the hop limit of the route taken when one was looked up -/ | nbr (i : Nat) (limit : Option Nat)
  /-- multicast to an address -/ | multi (dest : Nat)
  | badDesc
  | nhDown
  deriving DecidableEq, Repr

/-- The entry can be sent to (R263). -/
def nbrUp (e : Nbr) : Bool := decide (e.state = .active) || decide (e.state = .resync)

/-- R253: octets of a PSDU around its body. -/
def overhead (dstExt srcExt sec : Bool) (micLen : Nat) : Nat :=
  4 + (if dstExt then 8 else 4) + (if srcExt then 8 else 4) + (if sec then 5 + 4 * 2 ^ micLen else 0) + 4

/-- R253: the greatest PSDU of a PHY. -/
def psduLimit (phy : Nat) : Nat := if phy = 3 then 255 else 2047

/-- The PSDU octets of a frame to a hop with a body of `len` octets. -/
def frameOctets (s : State) (h : Hop) (len : Nat) : Nat :=
  match h with
  | .nbr i _ => len + overhead ((nbrOf s i).short == unassigned) (!ownAssigned s) ((nbrOf s i).txKey != 0xFF) s.link.cfg.micLen
  | .multi _ => len + overhead false (!ownAssigned s) (s.link.cfg.bcastKey != 0xFF) s.link.cfg.micLen
  | _ => 0

/-- The transmit profile of a hop (R275). -/
def hopProfile (s : State) : Hop → Nat
  | .nbr i _ => (nbrOf s i).profile
  | _ => s.link.cfg.bcastProfile

/-- R279 BAD_DESC: what holds of a descriptor whatever the next hop. -/
def descFields (p : List Byte) : Bool :=
  let c := pCtl p
  let multi : Bool := pNbr p == 0xFFFF
  decide (c < 2 ^ 14) && decide (pDest p < 2 ^ 28) && decide (pRet p ≤ 4) && (multi || pGdest p == 0) &&
    (!multi || (!pAr p && (isGroup (pGdest p) || pGdest p == broadcast))) && decide (8 + pLen p ≤ p.length) &&
    (!pMesh p || (decide (9 ≤ pLen p) && decide (u8 p 8 < 64))) && (pNbr p != 0xFFFE || pMesh p)

/-- R283: the route of FINAL_DST. -/
def meshHop (s : State) (p : List Byte) : Hop :=
  if 2 ^ 25 ≤ pFinal p then .badDesc
  else match lookup s (pFinal p) with
    | .isLocal => .badDesc
    | .unrouted => .nhDown
    | .range _ r => .nbr r.nextHop (some r.hopLimit)
    | .parent r => .nbr r.nextHop (some r.hopLimit)

/-- The hop a packet names, before the profile and the length are looked at. -/
def rawHop (s : State) (p : List Byte) : Hop :=
  if !descFields p then .badDesc
  else if pNbr p = 0xFFFF then .multi (pGdest p)
  else if pNbr p = 0xFFFE then meshHop s p
  else if pNbr p < nbrCount s then .nbr (pNbr p) none
  else .badDesc

/-- R279: what a packet comes to when it is taken now. -/
def hopOf (s : State) (p : List Byte) : Hop :=
  let h := rawHop s p
  let fit (h : Hop) : Hop :=
    let prof := profileOf s (hopProfile s h)
    if prof.phy = 0 ∨ psduLimit prof.phy < frameOctets s h (pLen p) then .badDesc else h
  match h with
  | .nbr i _ => if nbrUp (nbrOf s i) then fit h else .nhDown
  | .multi _ => fit h
  | _ => h

/-! ### The octets of a frame (R253 to R258, R275) -/

/-- R254. -/
def frameFc (type : Nat) (sec ar dam sam mesh : Bool) (micLen : Nat) (timed : Bool) : Nat :=
  type + 8 * b2n sec + 16 * b2n ar + 32 * b2n dam + 64 * b2n sam + 128 * b2n mesh + 256 * (if sec then micLen else 0) + 1024 * b2n timed

/-- R250, R252, R275: the source field. -/
def srcField (s : State) : List Byte := if ownAssigned s then le 4 s.link.cfg.ownShort else s.dev.eui64

/-- FC to SRC of a frame, PEND clear. -/
def frameHead (fc seq net : Nat) (dst src : List Byte) : List Byte := le 2 fc ++ le 2 (seq % 4096 + 4096 * net) ++ dst ++ src

/-- PEND set in a frame's head (R275). -/
def withPend (pend : Bool) (head : List Byte) : List Byte :=
  if pend then le 2 (u16 head 0 + 2048) ++ head.drop 2 else head

/-- R258: the nonce. -/
def linkNonce (eui : List Byte) (counter micLen : Nat) : List Byte := eui.reverse ++ be 4 counter ++ le 1 (5 + micLen)

/-- R253, R258, R275: the PSDU of a frame as it is sent, FCS last. The mesh header is authenticated with the head; the payload is
encrypted. `sec` gives the slot, the COUNTER and the key. -/
def securePsdu (s : State) (head body : List Byte) (sec : Option (Nat × Nat × List Byte)) : List Byte :=
  let mesh := (u16 head 0).testBit 7
  let m := if mesh then body.take 9 else []
  let payload := if mesh then body.drop 9 else body
  let core := match sec with
    | none => head ++ m ++ payload
    | some (slot, counter, key) =>
      let aad := head ++ m ++ le 1 slot ++ le 4 counter
      let micLen := bits (u16 head 0) 8 2
      let r := ccmEncrypt key (linkNonce s.dev.eui64 counter micLen) aad payload (4 * 2 ^ micLen)
      aad ++ r.1 ++ r.2
  core ++ le 4 (crc32 core)

/-! ### Frames in flight (R276) -/

/-- Frames that count as in flight: taken, or released and not yet taken. -/
def inFlight (s : State) : Nat := (s.link.flight.filter (fun f => decide (f.phase ≠ .origin))).length + s.link.released.length

def flightOf (s : State) (id : Nat) : Option Flight := s.link.flight.find? (fun f => f.id == id)
def updFlight (id : Nat) (g : Flight → Flight) (s : State) : State :=
  updLink (fun l => { l with flight := l.flight.map (fun f => if f.id = id then g f else f) }) s
def dropFlight (id : Nat) (s : State) : State := updLink (fun l => { l with flight := l.flight.filter (fun f => f.id != id) }) s

/-- The entry a released packet is for. -/
def releasedNbr (s : State) (r : Released) : Option Nat := match rawHop s r.packet.bytes with | .nbr i _ => some i | _ => none

/-- R276: a unicast frame for this neighbour is in flight. -/
def nbrBusy (s : State) (i : Nat) : Bool :=
  s.link.flight.any (fun f => f.nbr == some i && decide (f.phase ≠ .origin)) || s.link.released.any (fun r => releasedNbr s r == some i)

/-- R382: the release gate. -/
def gateOpen (s : State) : Bool :=
  s.link.released.all (fun r => r.rdv) && s.link.flight.all (fun f => f.windowed || f.begun || decide (f.phase = .origin))

/-- R276, R381: frames are taken and released in these modes. -/
def linkModes (s : State) : Bool := match s.pwr.mode with | .leaf => true | .relay => true | .wide => true | _ => false

/-- R275 PEND, R268: the entry's QUEUE holds a frame for the neighbour. -/
def moreFor (s : State) (i : Nat) : Bool :=
  let q := (nbrOf s i).queue
  queuePresent s q && !(queueOf s q).broken &&
    (queueOf s q).packets.any (fun p => match rawHop s p.bytes with | .nbr j _ => j == i | _ => false)

/-- R136: the antenna of a frame to an entry, or to none. -/
def txAntenna (s : State) : Option Nat → Nat
  | some i => if bit (nbrOf s i).flags 5 then b2n (bit (nbrOf s i).flags 4) else s.radio.div.txAnt
  | none => s.radio.div.txAnt

/-- R338: on-air time of a frame with `n` PSDU octets on a profile. -/
def predictUs (s : State) (profile n : Nat) : Nat := profileTime (profileOf s profile) n

end Sys2Proof.Machine
end

