-- ==== Sys2Proof/Machine/Canary.lean ====
section
/-! DEFINITION. The canary wake-up receiver: listening, matching and its commands (R225 to R249). -/

namespace Sys2Proof.Machine

def canaryStat (f : CanaryStats → CanaryStats) (s : State) : State := updCanary (fun c => { c with stats := f c.stats }) s

/-- R229: the canary runs; it is powered from VBAT (R474). -/
def canaryRuns (s : State) : Bool := canaryOn s && !s.boot.backup && !s.boot.aonLost

/-- R230. -/
def canaryState (s : State) : Nat :=
  if s.canary.cfg.enable = 0 then 0
  else if !canaryRuns s then 1
  else match s.canary.phase with | .listen => 2 | .sequence => 3 | .blanked => 4 | .sending => 5

/-- A sequence ends, and a configuration that waited for it takes effect (R242). -/
def Canary.endSequence (c : Canary) : Canary := { c with phase := .listen, cfg := c.next.getD c.cfg, next := none }

/-- R233: the radio begins to transmit: a sequence in reception is abandoned. -/
def canaryBlank (wake : Bool) (s : State) : State :=
  let seq : Bool := s.canary.phase == .sequence
  updCanary (fun c =>
    let d := if seq then c.endSequence else c
    { d with phase := if wake then .sending else .blanked,
             stats := { d.stats with blanked := if seq then inc32 d.stats.blanked else d.stats.blanked } }) s

/-- A mode that does not run the canary ends what it receives. -/
def canarySettle (s : State) : State := if canaryRuns s then s else updCanary (fun c => if c.phase = .sequence then c.endSequence else c) s

/-! ### Records (R245, R247, R248) -/

def canaryCfgRec (s : State) : List Byte :=
  let c := s.canary.cfg
  le 1 c.enable ++ le 1 c.active ++ le 1 c.matchBits ++ le 1 c.threshold ++ c.slots.flatMap (le 4) ++ le 16 c.groups

def canaryRec (s : State) : List Byte :=
  let c := s.canary
  le 1 (canaryState s) ++ le 1 (b2n (bit s.pwr.latch 3)) ++ le 2 0 ++ le 4 s.link.cfg.ownShort ++ le 8 c.mMtime ++ le 4 c.mAddress ++
    le 1 c.mGroup ++ le 1 c.mKind ++ le 1 c.mSlot ++ le 1 0

def canaryStatsRec (x : CanaryStats) : List Byte :=
  [x.preambleSeen, x.matchUnicast, x.matchAllcall, x.matchGroup, x.falseWake, x.decodeFail, x.addrMiss, x.repeatSeen, x.blanked, x.cut,
    x.sent, x.sendRefused].flatMap (le 4)

/-- R248: the survey body of unit 0x04. -/
def canarySurvey (s : State) : List Byte := canaryCfgRec s ++ canaryRec s ++ canaryStatsRec s.canary.stats

/-! ### Commands -/

def canaryStateGet : CoreFn := fun _ _ s => okR s (canaryRec s)
def canaryGet : CoreFn := fun _ _ s => okR s (canaryCfgRec s)

/-- R228: a slot is empty, or a multiple of 1,000 Hz in the bands. -/
def canarySlotOk (hz : Nat) : Bool := hz == 0 || (hz % 1000 == 0 && freqOk hz)

def canarySet : CoreFn := fun c p s =>
  let g : CanaryCfg := { enable := u8 p 0, active := u8 p 1, matchBits := u8 p 2, threshold := u8 p 3,
                         slots := (List.range 4).map (fun i => u32 p (4 + 4 * i)), groups := unle (slice p 20 16) }
  guardR s [(decide (g.enable ≤ 1), 0), (decide (g.active ≤ 3) && (g.enable == 0 || at_ 0 g.slots g.active != 0), 1),
    (decide (g.matchBits < 16), 2), (decide (g.threshold ≤ 30), 3), (canarySlotOk (u32 p 4), 4), (canarySlotOk (u32 p 8), 8),
    (canarySlotOk (u32 p 12), 12), (canarySlotOk (u32 p 16), 16), (g.groups % 2 == 0, 20)] fun _ =>
    let t := if s.canary.phase = .sequence ∧ !c.shot then updCanary (fun x => { x with next := some g }) s
      else updCanary (fun x => { x with cfg := g, next := none }) s
    okR t (canaryCfgRec t)

def canaryStatsGet : CoreFn := fun _ p s =>
  guardR s [(decide (u8 p 0 ≤ 1), 0), rsv p 1 3] fun _ =>
    okR (if u8 p 0 = 1 then canaryStat (fun _ => .zero) s else s) (canaryStatsRec s.canary.stats)

def execCanaryStateGet (v : Srv) (s : State) : Out := .next (serve 0x0400 canaryStateGet v s)
def execCanarySet (v : Srv) (s : State) : Out := .next (serve 0x0401 canarySet v s)
def execCanaryGet (v : Srv) (s : State) : Out := .next (serve 0x0402 canaryGet v s)
def execCanaryStatsGet (v : Srv) (s : State) : Out := .next (serve 0x0418 canaryStatsGet v s)

/-! ### Receiving (R231, R234 to R237) -/

/-- R231: at least 30 of 32 chips agree with the preamble. -/
def execPreambleSeen (s : State) : Out :=
  .next <|
    if !canaryRuns s || s.canary.phase != .listen || quiescing s 4 then s
    else canaryStat (fun x => { x with preambleSeen := inc32 x.preambleSeen }) (updCanary (fun c => { c with phase := .sequence }) s)

def decodeFail (s : State) : State := canaryStat (fun x => { x with decodeFail := inc32 x.decodeFail, falseWake := inc32 x.falseWake }) s

/-- R231: a bit whose two chips are equal ends the sequence. -/
def execManchesterViolation (s : State) : Out :=
  .next <| if canaryRuns s && s.canary.phase == .sequence then updCanary Canary.endSequence (decodeFail s) else s

/-- R227: the CRC of a sequence. -/
def wakeCrc (address group : Nat) : Nat := crc8 0xFF (bitsMsb 25 address ++ bitsMsb 7 group)

/-- R234: the kind of match, 0 for none. -/
def wakeKind (s : State) (address group : Nat) : Nat :=
  let c := s.canary.cfg
  if address = s.link.cfg.ownShort ∧ group = 0 ∧ c.matchBits.testBit 0 ∧ ownAssigned s then 1
  else if address = broadcast ∧ group = 0 ∧ c.matchBits.testBit 1 then 2
  else if address = broadcast ∧ group ≠ 0 ∧ c.matchBits.testBit 2 ∧ c.groups.testBit group then 3
  else 0

/-- R237: the sequence repeats the one last matched, begun within 500 µs of its end. -/
def wakeRepeats (s : State) (r : WakeSeq) : Bool :=
  match s.canary.repeatOf with
  | some (a, g, c, e) => a == r.address && g == r.group && c == r.crc && mtReached r.at_ (mtAdd e (usTicks 28500 : Nat))
  | none => false

/-- R234 to R237: the last CRC chip has arrived. -/
def execCanarySequenceEnd (r : WakeSeq) (s : State) : Out :=
  .next <|
    if !canaryRuns s || s.canary.phase != .sequence then s
    else
      let addr := r.address % 2 ^ 25
      let grp := r.group % 128
      let seen (x : State) : State := updCanary (fun c => { c with repeatOf := some (r.address, r.group, r.crc, r.at_) }) x
      let kind := wakeKind s addr grp
      updCanary Canary.endSequence <|
        if wakeCrc addr grp ≠ r.crc then decodeFail s
        else if wakeRepeats s r then canaryStat (fun x => { x with repeatSeen := inc32 x.repeatSeen }) (seen s)
        else if kind = 0 then canaryStat (fun x => { x with addrMiss := inc32 x.addrMiss, falseWake := inc32 x.falseWake }) s
        else
          latchSet 3 (canaryStat (fun x =>
            { x with matchUnicast := if kind = 1 then inc32 x.matchUnicast else x.matchUnicast,
                     matchAllcall := if kind = 2 then inc32 x.matchAllcall else x.matchAllcall,
                     matchGroup := if kind = 3 then inc32 x.matchGroup else x.matchGroup })
            (updCanary (fun c => { c with mMtime := r.at_ % mtMod, mAddress := addr, mGroup := grp, mKind := kind, mSlot := c.cfg.active, eventDue := true })
              (seen s)))

/-- R233: 100 µs after the PA ramp down ends the canary listens again. -/
def execCanaryBlankEnd (s : State) : Out :=
  .next <|
    if (s.canary.phase == .blanked || s.canary.phase == .sending) && s.radio.onAir.isNone then updCanary (fun c => { c with phase := .listen }) s else s

/-! ### Sending (R239 to R241) -/

/-- The frequency of a send: 0 selects the own ACTIVE slot. -/
def wakeHz (s : State) (hz : Nat) : Nat := if hz = 0 then at_ 0 s.canary.cfg.slots s.canary.cfg.active else hz

/-- The transmission of a send. -/
def wakeTx (s : State) (w : WakeSend) (resv : Option Nat) : TxReq :=
  { who := .wake, timed := if w.whenAt = 0 then none else some w.whenAt, tune := hzTune w.hz, carrier := tuneExact (hzTune w.hz), power := w.power,
    ant := if w.ant = 0 then s.radio.div.txAnt else w.ant - 1, us := 28000 * w.rep, ar := false, ret := 0, resv := resv, lbt := 0 }

/-- R225, R226: the 112 chips of a wake sequence. -/
def wakeChips (address group : Nat) : List Bool :=
  (bitsMsb 16 0xB38F ++ bitsMsb 25 address ++ bitsMsb 7 group ++ bitsMsb 8 (wakeCrc address group)).flatMap (fun b => [b, !b])

/-- R240: the sequences of a send, back to back. -/
def sendChips (w : WakeSend) : List Bool := (List.replicate w.rep (wakeChips w.address w.group)).flatten

/-- R246: a send ends: its counters and, for CANARY_SEND, its completion event. -/
def wakeDone (w : WakeSend) (st det us : Nat) (s : State) : State :=
  let s1 := updCanary (fun c => { c with send := none }) s
  let s2 := canaryStat (fun x => { x with sendRefused := if st = 0 then x.sendRefused else inc32 x.sendRefused,
                                          sent := if st = 0 then sat 0xFFFFFFFF (x.sent + w.rep) else x.sent }) s1
  match w.slot with
  | some n => complete n st det (le 8 (w.start.getD 0) ++ le 4 us ++ le 4 (tuneHz (hzTune w.hz))) s2
  | none => s2

end Sys2Proof.Machine
end

