-- ==== Sys2Proof/Machine/Flash.lean ====
section
/-! DEFINITION. The flash array and its controller (R493 to R519). -/

namespace Sys2Proof.Machine

/-! ### The option block in force (R484) -/

def optByte (s : State) (a : Nat) : Nat := (tget 0 a s.boot.opt.bytes).toNat
def optU16 (s : State) (a : Nat) : Nat := optByte s a + 256 * optByte s (a + 1)

/-- R484 APP_IMAGE_KIB. -/
def appKib (s : State) : Nat := optU16 s 0x010

/-! ### Geometry and regions (R493, R496, R497) -/

/-- Block size. -/
def blk : Nat := 4096

def blockCount (s : State) : Nat := Config.flashBlocks s.dev.variant
/-- First block of plane 1. -/
def plane1Block (s : State) : Nat := Config.plane1 s.dev.variant / blk
def planeOf (s : State) (block : Nat) : Nat := if block < plane1Block s then 0 else 1
/-- Blocks of the application image. -/
def appBlocks (s : State) : Nat := appKib s / 4

/-- What R496 says of a block. -/
inductive Region where
  | option | settings | netfw | cipher | staging | app | user1 | user2
  | closed
  deriving DecidableEq, Repr

def regionOf (s : State) (b : Nat) : Region :=
  let p := plane1Block s
  if b < p then
    if b = 16 then .option
    else if 18 ≤ b ∧ b ≤ 25 then .cipher
    else if b < 32 then .closed
    else if b < 544 then .netfw
    else if b < 560 then .settings
    else if b < 560 + appBlocks s then .app
    else .user1
  else if b = p then .option
  else if b < p + 16 then .closed
  else if b < p + 32 then .settings
  else if b < p + 1056 then .staging
  else if b < blockCount s then .user2
  else .closed

/-- R496 "Written by". -/
def Region.writable : Region → FMaster → Bool
  | .option, .net => true | .option, .loader => true
  | .settings, .net => true | .settings, .loader => true
  | .netfw, .loader => true
  | .cipher, .cipher => true
  | .staging, .net => true | .staging, .loader => true
  | .app, .app => true | .app, .net => true | .app, .loader => true
  | .user1, .app => true | .user1, .net => true
  | .user2, .app => true | .user2, .net => true
  | _, _ => false

/-- R513: what a mailbox requester may program and erase. -/
def Region.mailbox : Region → Bool
  | .app => true | .user1 => true | .user2 => true | _ => false

/-- R496: the block's state is PROTECTED. -/
def Region.protected_ : Region → Bool
  | .closed => true | .cipher => true | _ => false

/-! ### The array -/

/-- A stored byte; an erased one reads 0xFF. -/
def flashByte (s : State) (a : Nat) : Byte := tget 0xFF a s.flash.array

def flashBytes (s : State) (a : Nat) : Nat → List Byte
  | 0 => []
  | n + 1 => flashByte s a :: flashBytes s (a + 1) n

/-- Bytes with their addresses, erased ones left out. -/
def flashCells (a : Nat) : List Byte → Tab Byte
  | [] => []
  | b :: r => if b = 0xFF then flashCells (a + 1) r else (a, b) :: flashCells (a + 1) r

/-- The entries of a table from `lo` up to, not including, `lo + n` replaced. -/
def tsplice {α : Type} (lo n : Nat) (new t : Tab α) : Tab α :=
  t.filter (fun c => decide (c.1 < lo)) ++ new ++ t.filter (fun c => decide (lo + n ≤ c.1))

/-- Bytes stored over a range that starts at `a`. -/
def flashStore (a : Nat) (l : List Byte) (s : State) : State :=
  updFlash (fun f => { f with array := tsplice a l.length (flashCells a l) f.array }) s

/-- R494: a unit is erased. -/
def unitErased (s : State) (u : Nat) : Bool := !(tget false u s.flash.written)

/-- The error a unit holds: 0 none, 1 single-bit, 2 double-bit. -/
def unitEcc (s : State) (u : Nat) : Nat := tget 0 u s.flash.ecc

def setWritten (u n : Nat) (s : State) : State :=
  updFlash (fun f => { f with written := tsplice u n ((List.range n).map (fun i => (u + i, true))) f.written }) s

def setEcc (u e : Nat) (s : State) : State := updFlash (fun f => { f with ecc := tset 0 u e f.ecc }) s

/-- Errors left in units from `u`, of `n`: a unit with a double-bit error reads as bytes the spec leaves open (R499, R506). -/
def leaveErrors (u n : Nat) (r : FlashEnd) (s : State) : State :=
  let mine (l : List Nat) : List Nat := l.filter (fun x => decide (u ≤ x ∧ x < u + n))
  let s1 := (mine r.ce).foldl (fun a x => setEcc x 1 (setWritten x 1 a)) s
  (mine r.ue).foldl (fun a x =>
    let f := freshBytes 16 a
    setEcc x 2 (setWritten x 1 (flashStore (16 * x) f.1 f.2))) s1

/-- R506: a unit cut off in the middle: an undefined pattern that reads back with any status. -/
def spoilUnit (u : Nat) (s : State) : State :=
  let f := freshBytes 16 s
  let e := fresh f.2
  setEcc u (e.1 % 3) (setWritten u 1 (flashStore (16 * u) f.1 e.2))

/-- R499, R511: a block whose erase is not complete reads as whatever it holds. -/
def spoilBlock (b : Nat) (s : State) : State := (List.range 256).foldl (fun a i => spoilUnit (256 * b + i) a) s

/-- A block is erased: every byte 0xFF, no error. -/
def blankBlock (b : Nat) (s : State) : State :=
  updFlash (fun f => { f with array := tsplice (blk * b) blk [] f.array, written := tsplice (256 * b) 256 [] f.written,
                              ecc := tsplice (256 * b) 256 [] f.ecc }) s

/-- Every unit of a block is erased. -/
def blockBlank (s : State) (b : Nat) : Bool := !(s.flash.written.any (fun u => decide (u.1 / 256 = b)))

/-! ### Planes -/

def planeSt (s : State) (p : Nat) : Plane := if p = 0 then s.flash.p0 else s.flash.p1
def setPlane (p : Nat) (x : Plane) (s : State) : State := updFlash (fun f => if p = 0 then { f with p0 := x } else { f with p1 := x }) s

/-- FLASHC_STAT.P0, P1. -/
def planeCode : Plane → Nat
  | .idle => 0 | .programming _ => 1 | .erasing _ _ => 2 | .suspended _ => 3

def Plane.op : Plane → Option FOp
  | .idle => none | .programming o => some o | .erasing o _ => some o | .suspended o => some o

/-- An erase of the block is running or suspended. -/
def erasingBlock (s : State) (b : Nat) : Bool :=
  match (planeSt s (planeOf s b)).op with | some o => o.erase && decide (o.addr / blk = b) | none => false

/-- R511. -/
def blockState (s : State) (b : Nat) : Nat :=
  if blockCount s ≤ b ∨ (regionOf s b).protected_ then 3
  else if erasingBlock s b then 4
  else if s.flash.incomplete.contains b then 2
  else if blockBlank s b then 0 else 1

def ecntOf (s : State) (b : Nat) : Nat := if b < blockCount s then tget 0 b s.flash.ecnt else 0

/-! ### Reads (R499 to R501) -/

/-- The statuses of one unit: bit 0 CE, bit 1 UE, bit 2 UNRELIABLE. -/
def unitStatus (s : State) (u : Nat) : Nat :=
  let b := u / 256
  let unrel : Bool := s.flash.incomplete.contains b || (match planeSt s (planeOf s b) with | .suspended o => decide (o.addr / blk = b) && o.erase | _ => false)
  (if unitEcc s u = 1 then 1 else 0) + (if unitEcc s u = 2 then 2 else 0) + 4 * b2n unrel

def eccAddrReg (s : State) : Nat := s.flash.eccAddr + 2 ^ 29 * s.flash.eccKind.toNat

/-- R499: a unit is read: what its status counts and records. -/
def noteUnit (s : State) (u : Nat) : State :=
  let st := unitStatus s u
  if st = 0 then s
  else
    let ue := st.testBit 1
    let un := st.testBit 2
    let kind : BitVec 3 := if ue then 2 else if un then 4 else 1
    let s1 := updFlash (fun f =>
      { f with ce := if st.testBit 0 then inc16 f.ce else f.ce, ue := if ue then inc16 f.ue else f.ue,
               unrelReads := if un then inc32 f.unrelReads else f.unrelReads, eccAddr := 16 * u, eccKind := kind }) s
    if ue && secondPast s.flash.eccEvent s then
      raise 0x8B30 (le 4 (eccAddrReg s1) ++ le 2 s1.flash.ue ++ le 2 0) (updFlash (fun f => { f with eccEvent := some s.clk.mtime }) s1)
    else s1

/-- Units that `n` bytes from `a` touch. -/
def unitsOf (a n : Nat) : List Nat := if n = 0 then [] else List.range' (a / 16) ((a + n - 1) / 16 - a / 16 + 1)

/-- R501: a program in progress comes to the end of a unit before a read is served: how far it is, is open. -/
def programOn (p : Nat) (s : State) : State :=
  match planeSt s p with
  | .programming o =>
    let f := fresh s
    let n := min o.data.length (o.done + 16 + 16 * (f.1 % 16))
    let part := (o.data.take n).drop o.done
    setPlane p (.programming { o with done := n }) (setWritten ((o.addr + o.done) / 16) (part.length / 16) (flashStore (o.addr + o.done) part f.2))
  | _ => s

/-- R501: an erase is suspended; what its block holds then is open. -/
def suspendErase (p : Nat) (s : State) : State :=
  match planeSt s p with
  | .erasing o _ => spoilBlock (o.addr / blk) (setPlane p (.suspended o) (updFlash (fun f => { f with suspends := inc32 f.suspends }) s))
  | _ => s

/-- R501: the plane lets a read be served, `sus` telling whether the read suspends an erase; none when it waits for the erase's end. -/
def serveRead (p : Nat) (sus : Bool) (s : State) : Option State :=
  match planeSt s p with
  | .programming _ => some (programOn p s)
  | .erasing _ _ => if sus then some (suspendErase p s) else none
  | _ => some s

/-- A read of `n` bytes at `a` in one plane: the data, the statuses met, and the state. -/
def flashRead (a n : Nat) (sus : Bool) (s : State) : Option (State × List Byte × Nat) :=
  match serveRead (planeOf s (a / blk)) sus s with
  | none => none
  | some t =>
    let us := unitsOf a n
    some (us.foldl noteUnit t, flashBytes t a n, us.foldl (fun x u => x ||| unitStatus t u) 0)

/-! ### The erase journal (R507 to R510) -/

def originCode : FMaster → Nat
  | .app => 0 | .net => 1 | .loader => 2 | .cipher => 3

/-- R509: a full journal rotates; entries without a mark are carried forward. -/
def rotateJournal (f : Flash) : Flash :=
  let kept := f.journal.filter (fun e => !e.mark)
  { f with jActive := !f.jActive, jSeq := (f.jSeq + kept.length) % 2 ^ 32, rotations := inc32 f.rotations,
           journal := (List.range kept.length).map (fun i =>
             let e := at_ { seq := 0, block := 0, ecnt := 0, origin := 0, mark := false } kept i
             { e with seq := (f.jSeq + 1 + i) % 2 ^ 32, origin := e.origin % 128 + 128 }) }

/-- R507, R509 steps 1 and 2: the entry is written and the block's counter raised; FLASH_WEAR at 100,000. -/
def journalErase (b origin : Nat) (s : State) : State :=
  let s1 := if 64 ≤ s.flash.journal.length then updFlash rotateJournal s else s
  let n := sat 0xFFFFFF (ecntOf s b + 1)
  let s2 := updFlash (fun f =>
    { f with jSeq := (f.jSeq + 1) % 2 ^ 32, ecnt := tset 0 b n f.ecnt,
             journal := f.journal ++ [{ seq := (f.jSeq + 1) % 2 ^ 32, block := b, ecnt := n, origin := origin, mark := false }] }) s1
  if 100000 ≤ n ∧ !s2.flash.worn.contains b then
    raise 0x8B31 (le 2 b ++ le 2 0 ++ le 4 n) (updFlash (fun f => { f with worn := b :: f.worn }) s2)
  else s2

/-- R509 step 4: the newest entry of the block gets its mark. -/
def markErase (b : Nat) (s : State) : State :=
  updFlash (fun f =>
    let last := (f.journal.filter (fun e => e.block == b)).getLast?
    { f with journal := f.journal.map (fun e => if some e = last then { e with mark := true } else e),
             incomplete := f.incomplete.filter (fun x => x != b) }) s

/-- An erase that runs through: entry, counter, erased block, mark. -/
def eraseWhole (m : FMaster) (s : State) (b : Nat) : State :=
  updFlash (fun f => { f with erases := inc32 f.erases }) (markErase b (blankBlock b (journalErase b (originCode m) s)))

/-- R510: a block with an entry that no mark completes, and that no later complete erase made good. -/
def journalIncomplete : List JEntry → List Nat
  | [] => []
  | e :: r =>
    let rest := journalIncomplete r
    if e.mark || r.any (fun x => x.block == e.block && x.mark) || rest.contains e.block then rest else e.block :: rest

/-- R510 at start-up: the blocks found and their counters; those of lowest SEQ beyond 16 are erased when the loader does it. -/
def journalStart (loader : Bool) (s : State) : State :=
  let bad := journalIncomplete s.flash.journal
  let s1 := s.flash.journal.foldl (fun a e => if !e.mark && decide (ecntOf a e.block < e.ecnt) then updFlash (fun f => { f with ecnt := tset 0 e.block e.ecnt f.ecnt }) a else a) s
  let s2 := updFlash (fun f => { f with incomplete := bad }) s1
  if loader then (bad.take (bad.length - 16)).foldl (eraseWhole .loader) s2 else s2

/-! ### Commands to the controller (R503, R504) -/

/-- R503 error codes. -/
def errBUSY : Nat := 1
def errALIGN : Nat := 2
def errRANGE : Nat := 3
def errLOCKED : Nat := 4
def errSOURCE : Nat := 5
def errINCOMPLETE : Nat := 6
def errNOTBLANK : Nat := 7

/-- R503 check 2. -/
def programAligned (addr len : Nat) : Bool := addr % 16 == 0 && decide (16 ≤ len ∧ len ≤ 256) && len % 16 == 0 && decide (addr % blk + len ≤ blk)

/-- R503 checks 3 and 4. -/
def regionError (s : State) (m : FMaster) (b : Nat) : Nat :=
  if blockCount s ≤ b ∨ !(regionOf s b).writable m then errRANGE
  else if regionOf s b = .app ∧ s.flash.lockApp ∧ m ≠ .loader then errLOCKED
  else 0

def opOf (s : State) (m : FMaster) : Bool :=
  s.flash.waiting.any (fun o => o.master == m) || [s.flash.p0, s.flash.p1].any (fun p => match p.op with | some o => o.master == m | none => false)

def countRefused (s : State) : State := updFlash (fun f => { f with refused := inc32 f.refused }) s

/-- The end of a command of the application core: DONE and ERR. -/
def appOpDone (err : Nat) (s : State) : State := updFlash (fun f => { f with busy := false, done := true, err := err }) s

def jobResult (reason done : Nat) : List Byte := le 1 reason ++ le 1 done ++ le 2 0

/-- R515: a mailbox program or erase ends; `reason` 0 when all of it succeeded. -/
def jobEnds (j : FJob) (reason block : Nat) (s : State) : State :=
  complete j.slot (if reason = 0 then 0 else stFLASH) (if reason = 0 then 0 else block % 65536)
    (jobResult reason (if j.erase then j.done else if reason = 0 then 1 else 0)) (updFlash (fun f => { f with jobs := [] }) s)

/-- R503 checks 6 and 7, and the start of an accepted command on its plane. -/
def startOp (o : FOp) (s : State) : State :=
  let b := o.addr / blk
  let p := planeOf s b
  if o.erase then
    setPlane p (.erasing o s.clk.mtime) (spoilBlock b (journalErase b (originCode o.master) s))
  else
    let data := match o.src with | some (w, n) => rdBytes s (sharedBase + 4 * w) n | none => o.data
    let err := if s.flash.incomplete.contains b then errINCOMPLETE
      else if (unitsOf o.addr data.length).any (fun u => !unitErased s u) then errNOTBLANK else 0
    if err = 0 then setPlane p (.programming { o with data := data, done := 0 }) s
    else
      let t := countRefused s
      match o.master with
      | .app => appOpDone err t
      | _ => (match t.flash.jobs with | j :: _ => jobEnds j err b t | [] => t)

/-- R504: an accepted command starts on an idle plane, else waits. -/
def acceptOp (o : FOp) (s : State) : State :=
  let p := planeOf s (o.addr / blk)
  if planeSt s p = .idle ∧ !s.flash.waiting.any (fun w => planeOf s (w.addr / blk) == p) then startOp o s
  else updFlash (fun f => { f with waiting := f.waiting ++ [o] }) s

/-! ### FLASHC (R512) -/

/-- A write of FLASHC_CMD. -/
def flashcCmd (v : Word) (s : State) : State :=
  let op := v.toNat % 4
  if bits v.toNat 16 16 ≠ 0xF1A5 ∨ (op ≠ 1 ∧ op ≠ 2) then s
  else
    let f := s.flash
    let b := f.addr / blk
    let erase : Bool := op == 2
    let err := if opOf s .app then errBUSY
      else if (if erase then f.addr % blk != 0 else !programAligned f.addr f.len) then errALIGN
      else if regionError s .app b ≠ 0 then regionError s .app b
      else if !erase ∧ (f.waddr < 0x400 ∨ 0x8000 < 4 * f.waddr + f.len) then errSOURCE
      else 0
    if err = errBUSY then countRefused (updFlash (fun f => { f with done := true, err := errBUSY }) s)
    else if err ≠ 0 then countRefused (appOpDone err s)
    else acceptOp { master := .app, erase := erase, addr := f.addr, data := [], src := if erase then none else some (f.waddr, f.len), done := 0 }
      (updFlash (fun f => { f with busy := true }) s)

def flashcCtl (s : State) : Nat := b2n s.flash.autosus + 2 * b2n s.flash.errfault + 4 * b2n s.flash.ien

def flashcStat (s : State) : Nat :=
  let f := s.flash
  b2n f.busy + 2 * b2n f.done + 4 * f.err + 64 * planeCode f.p0 + 256 * planeCode f.p1 + 1024 * b2n (f.waiting.any (fun o => o.master == .app))

/-- R512 BSEL: a query starts. -/
def bselWrite (v : Word) (s : State) : State :=
  updFlash (fun f => { f with bsel := v.toNat % 2 ^ 14, bstatReady := false, query := true }) s

/-- R498: LOCKAPP is set and never cleared by a write. -/
def lockWrite (v : Word) (s : State) : State := updFlash (fun f => { f with lockApp := f.lockApp || bit v 0 }) s

/-! ### Records and mailbox commands (R513 to R518) -/

def planeBytes (s : State) : Nat := Config.plane1 s.dev.variant

/-- Bytes of the three regions of R517. -/
def appBase : Nat := 0x230000
def user1Base (s : State) : Nat := appBase + 1024 * appKib s
def user2Base (s : State) : Nat := planeBytes s + 0x420000

def flashRec (s : State) : List Byte :=
  let f := s.flash
  le 1 (planeCode f.p0) ++ le 1 (planeCode f.p1) ++ le 2 f.incomplete.length ++ le 4 f.jSeq ++ le 2 f.ce ++ le 2 f.ue ++ le 4 (eccAddrReg s) ++
    le 4 appBase ++ le 4 (1024 * appKib s) ++ le 4 (user1Base s) ++ le 4 (planeBytes s - user1Base s) ++ le 4 (user2Base s) ++
    le 4 (2 * planeBytes s - user2Base s)

def flashStatsRec (s : State) : List Byte :=
  let f := s.flash
  [f.programs, f.programBytes, f.erases, f.suspends, f.refused, f.unrelReads, f.rotations].flatMap (le 4)

/-- R518: the survey body of unit 0x0B. -/
def flashSurvey (s : State) : List Byte := flashRec s ++ flashStatsRec s

def flashStateGet : CoreFn := fun _ _ s => okR s (flashRec s)

/-- R513: what a mailbox requester may read. -/
def mailboxReads (s : State) (a n : Nat) : Bool :=
  decide (a + n ≤ blockCount s * blk) &&
    (List.range' (a / blk) ((a + n - 1) / blk - a / blk + 1)).all (fun b => (regionOf s b).mailbox || regionOf s b == .staging)

/-- R514: a read of both planes is made of a read in each. -/
def readAcross (a n : Nat) (s : State) : State × List Byte × Nat :=
  let edge := planeBytes s
  let n0 := if a < edge then min n (edge - a) else 0
  let r0 := (flashRead a n0 true s).getD (s, [], 0)
  if n0 = n then r0
  else
    let r1 := (flashRead (a + n0) (n - n0) true r0.1).getD (r0.1, [], 0)
    (r1.1, r0.2.1 ++ r1.2.1, r0.2.2 ||| r1.2.2)

def flashReadCmd : CoreFn := fun _ p s =>
  let a := u32 p 0
  let n := u16 p 4
  guardR s [(!(decide (1 ≤ n ∧ n ≤ 224)) || mailboxReads s a n, 0), (decide (1 ≤ n ∧ n ≤ 224), 4), rsv p 6 2] fun _ =>
    let r := readAcross a n s
    okR r.1 (le 1 r.2.2 ++ le 3 0 ++ r.2.1)

/-- A refusal under checks 2 to 4 of R503 counts in REFUSED. -/
def refusedR (r : Res) (off : Nat) : Res := if r.st = stPARAM ∧ r.det ≤ off then { r with s := countRefused r.s } else r

/-- R513, R515: a mailbox requester may program or erase the block now. -/
def mailboxBlock (s : State) (b : Nat) : Bool := (regionOf s b).mailbox && regionError s .net b == 0 && decide (b < blockCount s)

def flashProgram : CoreFn := fun c p s =>
  let a := u32 p 0
  let n := u16 p 4
  refusedR (guardR s [(a % 16 == 0 && mailboxBlock s (a / blk), 0), (decide (16 ≤ n ∧ n ≤ 224) && n % 16 == 0 && decide (a % blk + n ≤ blk), 4),
      (decide (u8 p 6 ≤ 1), 6), rsv p 7 1] fun _ =>
    pendR c s fun slot =>
      acceptOp { master := .net, erase := false, addr := a, data := slice p 8 n, src := none, done := 0 }
        (updFlash (fun f => { f with jobs := [{ slot := slot, erase := false, verify := u8 p 6 == 1, addr := a, count := 1, done := 0, data := slice p 8 n }] }) s)) 4

def flashErase : CoreFn := fun c p s =>
  let b := u16 p 0
  let n := u8 p 2
  refusedR (guardR s [((List.range (min n 16)).all (fun i => mailboxBlock s (b + i)), 0), (decide (1 ≤ n ∧ n ≤ 16), 2), (decide (u8 p 3 ≤ 1), 3)] fun _ =>
    pendR c s fun slot =>
      acceptOp { master := .net, erase := true, addr := b * blk, data := [], src := none, done := 0 }
        (updFlash (fun f => { f with jobs := [{ slot := slot, erase := true, verify := u8 p 3 == 1, addr := b, count := n, done := 0, data := [] }] }) s)) 0

def flashBlockGet : CoreFn := fun _ p s =>
  let b := u16 p 0
  let n := u8 p 2
  guardR s [(decide (b + (if 1 ≤ n ∧ n ≤ 32 then n else 1) ≤ blockCount s), 0), (decide (1 ≤ n ∧ n ≤ 32), 2), rsv p 3 1] fun _ =>
    okR s (le 2 b ++ le 1 n ++ le 1 0 ++ (List.range n).flatMap (fun i => le 4 (ecntOf s (b + i) + 2 ^ 24 * blockState s (b + i))))

def flashStatsGet : CoreFn := fun _ p s =>
  guardR s [(decide (u8 p 0 ≤ 1), 0), rsv p 1 3] fun _ =>
    okR (if u8 p 0 = 1 then updFlash (fun f =>
        { f with programs := 0, programBytes := 0, erases := 0, suspends := 0, refused := 0, unrelReads := 0, rotations := 0, ce := 0, ue := 0 }) s
      else s) (flashStatsRec s)

def execFlashStateGet (v : Srv) (s : State) : Out := .next (serve 0x0B00 flashStateGet v s)
def execFlashRead (v : Srv) (s : State) : Out := .next (serve 0x0B10 flashReadCmd v s)
def execFlashProgram (v : Srv) (s : State) : Out := .next (serve 0x0B11 flashProgram v s)
def execFlashErase (v : Srv) (s : State) : Out := .next (serve 0x0B12 flashErase v s)
def execFlashBlockGet (v : Srv) (s : State) : Out := .next (serve 0x0B13 flashBlockGet v s)
def execFlashStatsGet (v : Srv) (s : State) : Out := .next (serve 0x0B18 flashStatsGet v s)

/-! ### The controller's own steps -/

/-- FLASHC is written with OP 1. -/
def execFlashcProgram (v : Word) (s : State) : Out := .next (if mayAccess s .app && v.toNat % 4 == 1 then flashcCmd v s else s)

/-- FLASHC is written with OP 2. -/
def execFlashcErase (v : Word) (s : State) : Out := .next (if mayAccess s .app && v.toNat % 4 == 2 then flashcCmd v s else s)

/-- R504: the oldest waiting command of a plane reaches it. -/
def execFlashCommandStart (plane : Nat) (s : State) : Out :=
  .next <| if planeSt s plane ≠ .idle then s
  else match s.flash.waiting.find? (fun o => planeOf s (o.addr / blk) == plane) with
    | none => s
    | some o => startOp o (updFlash (fun f => { f with waiting := f.waiting.erase o }) s)

/-- R515 VERIFY: the range read back agrees with DATA and no unit reads worse than CE. -/
def verifies (j : FJob) (s : State) : State × Bool :=
  match flashRead j.addr j.data.length true s with
  | none => (s, false)
  | some (t, d, st) => (t, d == j.data && decide (st ≤ 1))

/-- R505, R515: a program ends. -/
def execFlashProgramDone (plane : Nat) (r : FlashEnd) (s : State) : Out :=
  .next <| match planeSt s plane with
  | .programming o =>
    let rest := o.data.drop o.done
    let u := o.addr / 16
    let n := o.data.length / 16
    let s1 := setWritten u n (flashStore (o.addr + o.done) rest s)
    let s2 := leaveErrors u n r (setPlane plane .idle s1)
    let s3 := updFlash (fun f => { f with programs := inc32 f.programs, programBytes := sat 0xFFFFFFFF (f.programBytes + o.data.length) }) s2
    (match o.master with
     | .app => appOpDone 0 s3
     | _ =>
       match s3.flash.jobs with
       | [] => s3
       | j :: _ =>
         if j.verify then let v := verifies j s3; jobEnds j (if v.2 then 0 else 8) (o.addr / blk) v.1
         else jobEnds j 0 0 s3)
  | _ => s

/-- R509, R515: an erase ends. -/
def execFlashEraseDone (plane : Nat) (r : FlashEnd) (s : State) : Out :=
  .next <| match planeSt s plane with
  | .erasing o _ =>
    let b := o.addr / blk
    let s1 := leaveErrors (256 * b) 256 r (blankBlock b (setPlane plane .idle s))
    let s2 := updFlash (fun f => { f with erases := inc32 f.erases }) (markErase b s1)
    (match o.master with
     | .app => appOpDone 0 s2
     | _ =>
       match s2.flash.jobs with
       | [] => s2
       | j :: _ =>
         if j.verify && !blockBlank s2 b then jobEnds j 8 b s2
         else
           let k := { j with done := j.done + 1 }
           if k.count ≤ k.done then jobEnds k 0 0 s2
           else acceptOp { o with addr := (k.addr + k.done) * blk } (updFlash (fun f => { f with jobs := [k] }) s2))
  | _ => s

/-- R501: a read of the network core suspends an erase. -/
def execEraseSuspended (plane : Nat) (s : State) : Out := .next (suspendErase plane s)

/-- R501: no read of the plane waits: the erase resumes. -/
def execEraseResume (plane : Nat) (s : State) : Out :=
  .next <| match planeSt s plane with
  | .suspended o => setPlane plane (.erasing o s.clk.mtime) s
  | _ => s

def execFlashcBsel (v : Word) (s : State) : Out := .next (if mayAccess s .app then bselWrite v s else s)

/-- R511, R512: a query ends. -/
def execBlockQueryDone (s : State) : Out :=
  .next <| if !s.flash.query then s
  else updFlash (fun f => { f with query := false, bstatReady := true, bstatEcnt := ecntOf s f.bsel, bstatState := blockState s f.bsel }) s

def execFlashcLock (v : Word) (s : State) : Out := .next (if mayAccess s .app then lockWrite v s else s)

/-- The RC fields of FLASHC_ECCCNT are read. -/
def ecccntRead (s : State) : State := updFlash (fun f => { f with ce := 0, ue := 0 }) s

def execFlashcEcccntRead (s : State) : Out := .next (if mayAccess s .app then ecccntRead s else s)

/-! ### Resets (R498, R506, R510, R512) -/

/-- R506: a reset cuts off what a plane is doing. -/
def cutPlane (p : Nat) (s : State) : State :=
  match planeSt s p with
  | .idle => s
  | .programming o =>
    let f := fresh s
    let left := (o.data.length - o.done) / 16
    let k := o.done + 16 * (f.1 % max 1 left)
    let part := (o.data.take k).drop o.done
    let s1 := setWritten ((o.addr + o.done) / 16) (part.length / 16) (flashStore (o.addr + o.done) part f.2)
    if left = 0 then setPlane p .idle s else setPlane p .idle (spoilUnit ((o.addr + k) / 16) s1)
  | .erasing o _ => setPlane p .idle (spoilBlock (o.addr / blk) s)
  | .suspended o => setPlane p .idle (spoilBlock (o.addr / blk) s)

/-- Every reset other than CORE: operations are cut off and FLASHC returns to its reset values. `counters` tells whether the
statistics restart too. -/
def flashReset (counters : Bool) (s : State) : State :=
  updFlash (fun f =>
    let g := { f with waiting := [], jobs := [], autosus := true, errfault := false, ien := false, addr := 0, waddr := 0, len := 0, busy := false, done := false,
                      err := 0, ce := 0, ue := 0, eccAddr := 0x3FFFFFF, eccKind := 0, rdLast := 0, stkUe := false, stkUnrel := false, bsel := 0, bstatEcnt := 0,
                      bstatState := 0, bstatReady := false, query := false, lockApp := false }
    if counters then { g with programs := 0, programBytes := 0, erases := 0, suspends := 0, refused := 0, unrelReads := 0, rotations := 0 } else g)
    (cutPlane 1 (cutPlane 0 s))

end Sys2Proof.Machine
end

