-- ==== Sys2Proof/Machine/ShotOps.lean ====
section
/-! DEFINITION. What other units need of shots: their records, their end, and triggers that fall with another event (R85, R92 to R94, R108). -/

namespace Sys2Proof.Machine

def shotOf (s : State) (n : Nat) : Shot := at_ Shot.reset s.shots.buf n
def updShot (n : Nat) (f : Shot → Shot) (s : State) : State := { s with shots := { s.shots with buf := s.shots.buf.set n (f (shotOf s n)) } }

/-- R108: RESULT of the completion event 0x8182. -/
def shotResult (n : Nat) (b : Shot) (swap us est edet : Nat) : List Byte :=
  le 1 n ++ le 1 b.trigger ++ le 2 (unitMask b.entries) ++ le 8 swap ++ le 4 us ++ le 2 est ++ le 2 edet

/-- R108: µs from the trigger, rounded up. -/
def shotUs (s : State) (b : Shot) : Nat := cdiv ((s.clk.mtime + mtMod - b.trigAt % mtMod) % mtMod * 1000000) (2 ^ 24)

/-- R85, R108: a fired shot ends: the buffer is freed, SHOT_DONE tells it (log 49) and the completion event is sent. -/
def shotEnd (n : Nat) (applied : Bool) (st det swap us est edet : Nat) (s : State) : State :=
  let b := shotOf s n
  let s1 := updShot n (fun _ => .reset) s
  let s2 := { s1 with shots := { s1.shots with done := setBit s1.shots.done n true,
                                               applied := if applied then setBit s1.shots.applied n true else s1.shots.applied } }
  complete b.slot st det (shotResult n b swap us est edet) s2

/-- R84, R109: an ARMED shot ends unapplied by SHOT_ABORT or by a CORE reset. -/
def shotDropped (n : Nat) (s : State) : State := shotEnd n false stMISFIRE 0xFFFF 0 0 0 0 s

/-- R92, R461: the trigger of an ARMED shot falls; in NAP it wakes the device (R103). The firmware clears its latch at the trigger. -/
def shotFalls (n : Nat) (s : State) : State :=
  (if netRuns s then id else latchSet 9) <| updShot n (fun b => { b with state := .quiescing, trigAt := s.clk.mtime, begun := false, saving := false }) s

/-- R92: WHEN of the RTC trigger in seconds. -/
def Shot.rtcWhen (b : Shot) : Nat := dateSeconds (dateOf (le 8 b.whenAt) 0)

/-- R92: the trigger condition of an ARMED shot holds now; `idle` tells that the radio has no exchange. While a shot is ARMED `trigAt` holds
the MTIME of its acceptance. -/
def shotDue (s : State) (idle : Bool) (b : Shot) : Bool :=
  match b.trigger with
  | 0 => true
  | 1 => idle
  | 2 => mtLater s.sched.lastRefill b.trigAt
  | 3 => mtReached b.whenAt s.clk.mtime
  | _ => !s.rtc.osf && decide (b.rtcWhen ≤ dateSeconds s.rtc.now.date)

/-- Every ARMED shot with this trigger whose condition holds, in ascending id. -/
def shotsFall (trigger : Nat) (s : State) : State :=
  (List.range 4).foldl (fun a n => let b := shotOf a n; if b.state == .armed && b.trigger == trigger && shotDue a false b then shotFalls n a else a) s

/-- R94: shots ARMED under the RTC trigger when OSF becomes set. -/
def shotsUntrusted (s : State) : State :=
  (List.range 4).foldl (fun a n => let b := shotOf a n; if b.state == .armed && b.trigger == 4 then shotEnd n false stTIME 0 0 0 0 0 a else a) s

end Sys2Proof.Machine
end

