-- ==== Sys2Proof/Machine/ResetOps.lean ====
section
/-! DEFINITION. What a reset takes away, and the option load of step 2 (R473 to R491). -/

namespace Sys2Proof.Machine

/-! ### Kinds (R477, R479) -/

/-- R479. -/
def resetCode : ResetKind → Nat
  | .por => 1 | .bor => 2 | .pin => 3 | .wdt => 4 | .nwdt => 5 | .sys => 6 | .core => 7 | .wake => 8 | .ldr => 9

/-- R477: the first of several causes is taken. -/
def resetRank : ResetKind → Nat
  | .por => 0 | .bor => 1 | .pin => 2 | .nwdt => 3 | .wdt => 4 | .ldr => 5 | .sys => 6 | .core => 8 | .wake => 9

/-- R479: every cause is entered in HIST. -/
def enterHist (k : ResetKind) (s : State) : State := updBoot (fun b => { b with hist := setBit b.hist (resetCode k - 1) true }) s

/-! ### The reference stops (R31, R34, R690) -/

/-- The calibration that the slow rate uses. -/
def slowChosen (c : Clk) : Nat := if c.scalValid then c.scalCount else 1500000

/-- R28, R34, R690: the reference stops without a handover: MTIME holds until the next slow-clock edge, and has a gap when no slow clock
runs. -/
def refLost (s : State) : State :=
  updClk (fun c =>
    let stops : Bool := !c.lfxrdy && c.rate != .held
    { c with xordy := false, plllock := false, rootsrc := false, slowCount := slowChosen c, rate := .held, gap := c.gap || stops, sync := c.sync && !stops,
             slow := false }) s

/-! ### The application side (R476) -/

def Shots.appReset (x : Shots) : Shots := { x with done := 0, applied := 0, ien := 0 }

/-- R554, R561: a reset that reaches a core releases its freeze. -/
def RtcCore.thaw (c : RtcCore) : RtcCore := { c with frz := false, stale := false, age := 0 }

/-- R591, R592: the wire holder of the port lock is reset, and the PORTW registers with it. -/
def Port.wireReset (p : Port) (app : Bool) : Port :=
  { p with lock := if p.lock == .field then .field else if app && p.lock == .net then .net else .free, prio := false, grant := false,
           block := 0, cmd := none, done := false, err := 0, fieldEvt := false, lockEvt := false, ien := 0, buf := List.replicate 8 0 }

/-- R578: a block write that a reset cuts short: how far its journal had come, and what the block then holds, is open. -/
def portCutOne (b : Nat) (l : List Byte) (s : State) : State :=
  let f := fresh s
  let complete : Bool := f.1 % 2 == 1
  let g := freshBytes 32 f.2
  { g.2 with port := { g.2.port with journal := some { block := b, bytes := l, complete := complete },
                                     mem := if complete then wrTab g.2.port.mem (32 * b) g.1 else g.2.port.mem } }

/-- R578: the wire's write that runs, and the firmware's when the network core is reset too. -/
def portCut (net : Bool) (s : State) : State :=
  let s1 := if s.port.cmd = some true then portCutOne s.port.block (s.port.buf.flatMap (le 4)) s else s
  match s.port.job with
  | some j => if net then (match j.blocks with | b :: _ => portCutOne j.block b s1 | [] => s1) else s1
  | none => s1

/-- The application core and its units return to their reset values (R476, R491, R603). -/
def appUnitsReset (s : State) : State :=
  { s with core := .reset, se0 := { Se.reset with cts := s.se0.cts }, se1 := { Se.reset with cts := s.se1.cts },
           adc := { Adc.reset with code25 := s.adc.code25, slope := s.adc.slope }, tmr := List.replicate 4 .reset, wdg := .reset, shots := s.shots.appReset,
           mbx := { s.mbx with ien := 0, dblate := 0, reqwr := 0, notown := 0 },
           qm := { s.qm with resultApp := 0x80000000, queue := tmap .reset (fun q => { q with landApp := none }) s.qm.queue,
                             stalls := s.qm.stalls.filter (fun x => x.master != .app) },
           pwr := { s.pwr with sleepDepth := .none, appDepth := .none }, rtc := { s.rtc with app := s.rtc.app.thaw } }

/-! ### What each domain loses -/

/-- AON RAM (R19). -/
def inAon (a : Nat) : Bool := decide (0x30000000 ≤ a ∧ a < 0x30004000)

/-- R339: every reset other than CORE discards the reservations. -/
def Tally.dropped (t : Tally) : Tally := { t with resv := [], nextId := 0 }

/-- Unit statistics and refusal accumulators of the tally (R352, R354). -/
def Tally.zeroed (t : Tally) : Tally :=
  { t with band := t.band.map (fun b => { b with refused := 0, ackDenied := 0, lbtBusy := 0, lbtGiveup := 0 }), outsideRefused := 0, outsideSent := 0,
           cutShort := 0, refBands := 0, refLast := 0xFF, refUs := 0, refEvent := none, ready := false }

/-- The mailboxes without channel states, events and pending commands; counters, failures and lockouts stay (R58, R491). -/
def Mbx.dropped (m : Mbx) (wake : Bool) : Mbx :=
  let q (x : EvQueue) : EvQueue :=
    if wake then { events := [], lost := sat 0xFFFF (x.lost + x.events.length), seq := 0, mask := x.mask } else .reset
  { m with chan := List.replicate 8 .idle, netrdy := false, ien := 0, dblate := 0, reqwr := 0, notown := 0, rr := 1, pend := [], q6 := q m.q6, q7 := q m.q7,
           survey := none }

/-- R491: what a POR, BOR, PIN, WDT at SYS scope, NWDT, SYS or LDR reset takes, AON state kept. -/
def bigLoss (s0 : State) : State :=
  let s := flashReset true (appUnitsReset (portCut true (refLost s0)))
  { s with
    clk := { s.clk with rootfail := false, sync := false, refFailed := false, refTry := false },
    mbx := s.mbx.dropped false, hostp := .reset, shots := .reset,
    radio := { Radio.reset with cal := s.radio.cal, everCal := s.radio.everCal, temp := s.radio.temp, vbat := s.radio.vbat },
    lanes := .reset,
    canary := { s.canary with next := none, phase := .listen, repeatOf := none, send := none },
    link := .reset, timing := .reset, tally := s.tally.dropped.zeroed, qm := .reset, sched := .reset,
    cipher := { Cipher.reset with ctr := s.cipher.ctr, backing := s.cipher.backing },
    pwr := { s.pwr with drain := none, changing := false, phase := .awake, seeking := .none, who := .net, counted := false, hostWait := none,
                        wakeEn := s.pwr.wakeEnSaved.getD s.pwr.wakeEn, wakeEnSaved := none, latchAt := none, netTimer := none },
    pads := { s.pads with live := .reset, shadow := none },
    boot := { s.boot with coreRestart := false, released := false, activation := false, delayed := none, debug := 0 },
    upd := { s.upd with job := none },
    rtc := { s.rtc with net := s.rtc.net.thaw },
    port := { s.port.wireReset false with mbxReq := none, mbxResp := none, job := none },
    mem := tkeep inAon s.mem }

/-! ### HIBERNATE (R463, R491) -/

/-- App RAM bank of an address (R19). -/
def appBank (a : Nat) : Nat := (a - 0x20000000) / 0x10000

/-- R463: the RAM bytes that HIBERNATE keeps. -/
def ramKept (p : Pwr) (a : Nat) : Bool := inAon a || (decide (0x20000000 ≤ a ∧ a < 0x20080000) && bit p.retainApp (appBank a))

/-- R372: the packet's cells all lie in retained pool banks. -/
def Packet.kept (p : Pwr) (x : Packet) : Bool := x.cells.all (fun c => p.cfg.poolRetain.testBit (c / 1024))

/-- R372, R463: the queues after HIBERNATE; their configuration is lost with network RAM bank 0. -/
def Qm.wake (p : Pwr) (m : Qm) : Qm :=
  let lost := sumList (m.queue.map (fun q => (q.2.packets.filter (fun x => !x.kept p)).length))
  let keep (q : Queue) : Queue :=
    { (if bit p.retainNet 0 then q else .reset) with
      packets := q.packets.filter (fun x => x.kept p), broken := false, overrun := false, stallExpired := false, stallAborted := false, stallIntr := false,
      kindErr := false, badPush := false, highWater := q.highWater, landApp := none, landHost := none }
  let queue := tmap .reset keep m.queue
  { m with queue := queue, used := m.used.filter (fun c => queue.any (fun q => q.2.packets.any (fun x => x.cells.contains c))),
           reserve := if bit p.retainNet 0 then m.reserve else 0, resultApp := 0x80000000, resultHost := 0x80000000, stalls := [],
           stats := { m.stats with lostWake := sat 0xFFFFFFFF (m.stats.lostWake + lost) } }

/-- What HIBERNATE and the WAKE reset take (R463, R464, R491). -/
def wakeLoss (s0 : State) : State :=
  let s := flashReset false (appUnitsReset (portCut true s0))
  let p := s0.pwr
  let bank0 := bit p.retainNet 0
  { s with
    clk := { s.clk with xordy := false, plllock := false, rootsrc := false },
    mbx := s.mbx.dropped true, hostp := .reset, shots := .reset,
    radio := { Radio.reset with cal := s.radio.cal, everCal := s.radio.everCal, temp := s.radio.temp, vbat := s.radio.vbat, stats := s.radio.stats,
                                cfg := if bank0 then s.radio.cfg else .reset, home := if bank0 then s.radio.home else tune868,
                                div := if bank0 then s.radio.cfg.div else .reset, ext := if bank0 then s.radio.cfg.ext else .reset, last := s.radio.last },
    lanes := { Lanes.reset with lane := s.lanes.lane.map (fun l => { Lane.reset with cfg := if bank0 then l.next.getD l.cfg else .reset, stats := l.stats }),
                                profile := if bank0 then s.lanes.profile else Lanes.reset.profile },
    canary := { s.canary with send := none },
    link := { s.link with cfg := if bank0 then s.link.cfg else .reset, nbr := tkeep (fun i => p.cfg.nbrRetain.testBit (i / 1024)) s.link.nbr,
                          route := if bank0 then s.link.route else [], parent := if bank0 then s.link.parent else .blank,
                          bcastSeq := if bank0 then s.link.bcastSeq else 0, released := [], flight := [], rx := [], join := none, drop := .zero, deferred := [] },
    timing := { s.timing with cfg := if bank0 then s.timing.cfg else .reset, chseq := if bank0 then s.timing.chseq else [], chseqOld := [],
                              sync := if bit p.retainNet 3 then s.timing.sync else [], stepSum := if bank0 then s.timing.stepSum else 0, pendingStep := [],
                              calendar := [], window := none, nextK := if bank0 then s.timing.nextK else 0, resync := [], listen := none },
    tally := s.tally.dropped, qm := s.qm.wake p,
    sched := { s.sched with flow := if bank0 then s.sched.flow else [], shaper := if bank0 then s.sched.shaper else [] },
    cipher := { Cipher.reset with ctr := s.cipher.ctr, backing := s.cipher.backing, stats := s.cipher.stats },
    pwr := { s.pwr with drain := none, changing := false, phase := .awake, seeking := .none, appDepth := s0.pwr.appDepth, hostWait := none,
                        wakeEn := p.wakeEnSaved.getD p.wakeEn, wakeEnSaved := none, latchAt := none, netTimer := none },
    boot := { s.boot with coreRestart := false, released := false, delayed := none, forced := false },
    rtc := { s.rtc with net := s.rtc.net.thaw },
    port := { s.port.wireReset false with mbxReq := none, mbxResp := none, job := none },
    mem := tkeep (ramKept p) s.mem }

/-! ### Option load (R484 to R490) -/

def oByte (b : OptBlock) (a : Nat) : Nat := (tget 0 a b.bytes).toNat
def oWord (b : OptBlock) (a k : Nat) : Nat := unle ((List.range k).map (fun i => tget 0 (a + i) b.bytes))
def oPut (b : OptBlock) (a : Nat) (l : List Byte) : OptBlock := { b with bytes := wrTab b.bytes a l }

/-- R484: every field of a block lies within its range; the offset of the first byte of the first field that does not. -/
def optRange (v : Variant) (b : OptBlock) : List (Bool × Nat) :=
  let kib := oWord b 0x010 4
  let vec := oWord b 0x014 4
  [(decide (oWord b 0x000 4 = 0x4F504D36), 0x000), (decide (oWord b 0x004 2 = 1), 0x004), (decide (oByte b 0x008 < 128), 0x008), (decide (oByte b 0x009 < 2), 0x009),
   (decide (oByte b 0x00A < 2), 0x00A), (decide (oByte b 0x00B < 2), 0x00B), (decide (32 ≤ oByte b 0x00C ∧ oByte b 0x00C < 64), 0x00C),
   (decide (oByte b 0x00D < 6), 0x00D), (decide (64 ≤ kib ∧ kib ≤ (if v = .face then 4096 else 8192)) && kib % 64 == 0, 0x010),
   (decide (vec < kib * 1024) && vec % 256 == 0, 0x014), (decide (oByte b 0x060 < 4), 0x060)]

/-- R485. -/
def optValid (v : Variant) (b : OptBlock) : Bool := b.crcOk && (firstBad (optRange v b)).isNone

/-- R486: the one-way fields as the more advanced of two blocks. -/
def optMerge (a b : OptBlock) : OptBlock :=
  let m := oPut a 0x060 (le 1 (oByte a 0x060 ||| oByte b 0x060))
  let m := oPut m 0x064 (le 4 (max (oWord a 0x064 4) (oWord b 0x064 4)))
  oPut m 0x068 (le 4 (max (oWord a 0x068 4) (oWord b 0x068 4)))

/-- R486, R490: the block in force at step 2, its copy, and MERGED. -/
def optLoad (s : State) : OptBlock × Nat × Bool :=
  let v := s.dev.variant
  match optValid v s.boot.copy1, optValid v s.boot.copy2 with
  | true, true => let m := optMerge s.boot.copy1 s.boot.copy2; (m, 1, decide (m ≠ s.boot.copy1))
  | true, false => (s.boot.copy1, 1, false)
  | false, true => (s.boot.copy2, 2, false)
  | false, false => (.safe, 3, false)

/-- Step 2 of R480: the option block is loaded into the shadow registers; the RAMs have been zero-filled. -/
def optionLoad (s : State) : State :=
  let r := optLoad s
  let own := BitVec.ofNat 7 (oByte r.1 0x008)
  { s with
    boot := { s.boot with opt := r.1, optBase := none, optCopy := r.2.1, merged := r.2.2, repaired := false, imgFull := false, migrated := false, setDef := false,
                          forced := r.2.1 == 3 },
    mbx := { s.mbx with own := own, mirror := (oByte r.1 0x009).testBit 0 },
    clk := { s.clk with tcxo := (oByte r.1 0x00A).testBit 0 },
    pwr := { s.pwr with allowed := BitVec.ofNat 6 (oByte r.1 0x00C), hostPart := own != 0 } }

/-! ### Taking a reset (R477, R478) -/

/-- Start-up begins at step 2 unless something still holds the reset (R474, R475, R481). -/
def beginStart (s : State) : State :=
  if s.boot.bor || s.boot.nrst || s.boot.backup || s.boot.aonLost then s
  else updBoot (fun b => { b with stage := .reference }) (optionLoad s)

/-- R460: the last-wake record of a device that slept. -/
def lastWake (s : State) : State :=
  let low := ((List.range 10).find? (fun n => bit s.pwr.latch n)).getD 0
  let t := s.pwr.latchAt.getD (s.clk.mtime, rtcSeconds s)
  updPwr (fun p => { p with lwSource := 0x10 + low, lwDepth := (match p.seeking with | .nap => 2 | .hibernate => 3 | _ => 0),
                            lwKind := if p.counted then 1 else 2, lwMtime := t.1, lwRtc := t.2, latchAt := none }) s

/-- A reset of kind BOR, PIN, WDT at SYS scope, NWDT, SYS or LDR is asserted (R477, R478). A cause that falls while an earlier reset is
still asserted is entered in HIST, and the higher of the two is taken. `act` marks an activation (R536). -/
def takeReset (k : ResetKind) (act : Bool) (s0 : State) : State :=
  let s := enterHist k s0
  let held : Bool := s.boot.stage == .held
  if held && decide (resetRank s.boot.kind ≤ resetRank k) then
    updRtc (fun r => { r with actHeld := r.actHeld || act }) (updBoot (fun b => { b with simul := true }) s)
  else
    let t := bigLoss s
    let ldr : Bool := k == .ldr
    beginStart { t with
      boot := { t.boot with stage := .held, kind := k, causeApp := resetCode k, causeNet := resetCode k, simul := held, activation := act },
      pwr := { t.pwr with mode := if ldr then .service else t.pwr.mode, nextMode := if ldr then none else t.pwr.nextMode } }

/-! ### CORE (R476, R84, R83) -/

/-- R84: the application core's shots that are OPEN or ARMED. -/
def dropAppShot (s : State) (n : Nat) : State :=
  let b := shotOf s n
  if b.owner ≠ some .app then s
  else match b.state with
    | .opened => updShot n (fun _ => .reset) s
    | .armed => shotDropped n s
    | _ => s

/-- R476: a CORE cause; `code` is what SYSCTL_RSTCAUSE.APP reads (4 for a WDT at CORE scope). It has no effect before the core has first been
released. -/
def coreReset (code : Nat) (s : State) : State :=
  if !s.boot.released then s
  else
    let s1 := (List.range 4).foldl dropAppShot s
    let s2 := appUnitsReset (portCut false s1)
    let prep : Bool := s.pwr.phase == .preparing && s.pwr.who == .app
    { s2 with
      mbx := { s2.mbx with chan := (List.range 8).map (fun n => if n < 7 && !bit s.mbx.own n then .idle else at_ .idle s.mbx.chan n) },
      port := s2.port.wireReset true,
      pwr := { s2.pwr with phase := if prep then .awake else s2.pwr.phase, seeking := if prep then .none else s2.pwr.seeking },
      boot := { s2.boot with causeApp := code, simul := false, hist := setBit s2.boot.hist (code - 1) true, coreRestart := true } }

end Sys2Proof.Machine
end

