-- ==== Sys2Proof/Machine/Rtc.lean ====
section
/-! DEFINITION. The calendar clock (R546 to R568) and TIME_SYNC (R320, R327). -/

namespace Sys2Proof.Machine

/-! ### Events and the activation match -/

/-- R568: RTC_ALARM, or RTC_ALERT with its reason. An RTC_ALERT of reason 1 or 2 carries the time at which the firmware sees the flag. -/
def rtcEvent (alarm : Bool) (code secs : Nat) (s : State) : State :=
  if alarm then raise 0x8D30 (le 1 code ++ le 3 0 ++ le 4 secs) s
  else raise 0x8D31 (le 1 code ++ le 3 0 ++ le 4 (if code = 3 then s.rtc.bkstamp else rtcSeconds s)) s

/-- R568: an event is raised now, or once the network core runs. -/
def rtcTell (alarm : Bool) (code secs : Nat) (s : State) : State :=
  if netRuns s then rtcEvent alarm code secs s else updRtc (fun r => { r with due := r.due ++ [(alarm, code, secs)] }) s

/-- The events that waited for the network core. -/
def rtcTellDue (s : State) : State := s.rtc.due.foldl (fun a e => rtcEvent e.1 e.2.1 e.2.2 a) (updRtc (fun r => { r with due := [] }) s)

/-- R545: UPDATE_STATUS is raised, or follows SYS_READY. -/
def updateTell (status : Nat) (s : State) : State :=
  let v := (s.upd.head.map (fun h => h.version)).getD 0
  let code : Nat := match s.upd.state with
    | .empty => 0 | .receiving => 1 | .verified => 2 | .committed => 3 | .scheduled => 4 | .installing => 5 | .invalid => 6
  if netRuns s then raise 0x8C40 (le 2 status ++ le 1 s.upd.lastResult ++ le 1 code ++ le 4 v) s
  else updUpd (fun u => { u with due := u.due ++ [(status, u.lastResult, code, v)] }) s

/-- R537: the calendar can no longer be trusted for a scheduled activation: the match is disarmed and the file installs at the next
start-up. -/
def disarmUntrusted (s : State) : State :=
  if s.rtc.act.isNone then s
  else updateTell stTIME (updUpd (fun u => { u with state := .committed, lastResult := 10 }) (updRtc (fun r => { r with act := none }) s))

/-- R536, R548: the activation match falls: an LDR reset marked as activation, or ACTHELD while the device is in backup retention. -/
def activate (s : State) : State :=
  let s1 := updRtc (fun r => { r with act := none }) s
  if s.boot.backup then updRtc (fun r => { r with actHeld := true }) s1
  else
    let slept : Bool := s.pwr.phase == .asleep
    let s2 := updPwr (fun p => { p with latch := setBit p.latch 6 true }) s1
    takeReset .ldr true (if slept then lastWake s2 else s2)

/-- R552: OSF is set; the first time since it was cleared raises RTC_ALERT. -/
def setOsf (s : State) : State :=
  let s1 := disarmUntrusted (shotsUntrusted (updRtc (fun r => { r with osf := true, osfTold := true }) s))
  if s.rtc.osfTold then s1 else rtcTell false 1 0 s1

/-! ### Counting (R549, R551) -/

/-- All carries of a second roll-over, and whether it passed the end of 2199. -/
def RtcTime.roll (t : RtcTime) : RtcTime × Bool :=
  let t := { t with subsec := 0 }
  if t.sec < 59 then ({ t with sec := t.sec + 1 }, false)
  else
    let t := { t with sec := 0 }
    if t.min < 59 then ({ t with min := t.min + 1 }, false)
    else
      let t := { t with min := 0 }
      if t.hour < 23 then ({ t with hour := t.hour + 1 }, false)
      else
        let t := { t with hour := 0, wday := (t.wday + 1) % 7 }
        if t.day < daysIn t.year t.mon then ({ t with day := t.day + 1 }, false)
        else
          let t := { t with day := 1 }
          if t.mon < 12 then ({ t with mon := t.mon + 1 }, false)
          else if t.year < 2199 then ({ t with mon := 1, year := t.year + 1 }, false)
          else ({ t with mon := 1, year := 2000 }, true)

/-- One slow-clock tick: the new time, whether it is a second roll-over, and whether it wraps (R549). -/
def RtcTime.tick (t : RtcTime) : RtcTime × Bool × Bool :=
  if t.subsec < 32767 then ({ t with subsec := t.subsec + 1 }, false, false) else let r := t.roll; (r.1, true, r.2)

/-! ### Alarms (R559) -/

def alarmOf (s : State) (n : Nat) : Alarm := if n = 0 then s.rtc.alm0 else s.rtc.alm1

/-- Every field the mask selects agrees; fields in the order SEC, MIN, HOUR, DAY, MON, YEAR. -/
def Alarm.hits (a : Alarm) (t : RtcTime) : Bool :=
  a.en && (List.range 6).all (fun i => !bit a.mask i || at_ 0 a.vals i == at_ 0 [t.sec, t.min, t.hour, t.day, t.mon, t.year] i)

/-- R548, R559: an alarm matches. -/
def alarmMatch (s : State) (n : Nat) : State :=
  if !(alarmOf s n).hits s.rtc.now then s
  else
    let s1 := updRtc (fun r => { r with alf := setBit r.alf n true }) s
    if s.boot.backup then s1 else rtcTell true n (rtcSeconds s1) (latchSet (1 + n) s1)

def alarmMatches (s : State) : State := alarmMatch (alarmMatch s 0) 1

/-- R92, R536, R559: what a second roll-over does once the counters show the new time. -/
def rolledOver (wrapped : Bool) (s : State) : State :=
  let s1 := shotsFall 4 (alarmMatches s)
  let s2 := if wrapped then rtcTell false 2 0 (updRtc (fun r => { r with ovf := true }) s1) else s1
  match s.rtc.act with
  | some d => if dateSeconds s.rtc.now.date = dateSeconds d then activate s2 else s2
  | none => s2

/-! ### Commits (R556 to R558) -/

/-- R556: the staged fields that FIELDS selects replace those of a time. -/
def RtcTime.compose (t g : RtcTime) (f : BitVec 8) : RtcTime :=
  { subsec := if bit f 0 then g.subsec else t.subsec, sec := if bit f 1 then g.sec else t.sec, min := if bit f 2 then g.min else t.min,
    hour := if bit f 3 then g.hour else t.hour, wday := if bit f 4 then g.wday else t.wday, day := if bit f 5 then g.day else t.day,
    mon := if bit f 6 then g.mon else t.mon, year := if bit f 7 then g.year else t.year }

/-- R556 step 3, with the offset of the field in RTC_TIME_SET: none when the time is valid. -/
def RtcTime.bad (t : RtcTime) : Option Nat :=
  firstBad [(decide (2000 ≤ t.year ∧ t.year ≤ 2199), 4), (decide (1 ≤ t.mon ∧ t.mon ≤ 12), 6), (decide (1 ≤ t.day ∧ t.day ≤ daysIn t.year t.mon), 7),
    (decide (t.hour < 24), 8), (decide (t.min < 60), 9), (decide (t.sec < 60), 10), (decide (t.subsec < 32768), 12), (decide (t.wday < 7), 14)]

/-- R557: FIELDS selects SEC, MIN, HOUR, DAY, MON and YEAR. -/
def fullCommit (f : BitVec 8) : Bool := f &&& 0xEE == 0xEE

/-- R557, R94, R537, R559: the effects of a valid commit that moved the clock from `old`. -/
def committed (f : BitVec 8) (old : Nat) (s : State) : State :=
  let s1 := if fullCommit f then updRtc (fun r => { r with osf := false, osfTold := false }) s else s
  let s2 := shotsFall 4 (alarmMatches s1)
  let now := dateSeconds s.rtc.now.date
  match s.rtc.act with
  | none => s2
  | some d => if dateSeconds d ≤ now then activate s2 else if now + 2 ≤ old then disarmUntrusted s2 else s2

def updRtcCore (net : Bool) (f : RtcCore → RtcCore) (s : State) : State :=
  updRtc (fun r => if net then { r with net := f r.net } else { r with app := f r.app }) s
def rtcCore (s : State) (net : Bool) : RtcCore := if net then s.rtc.net else s.rtc.app

/-- R556, R558: the tick of a commit. The network core's commit applies when both are pending; the application core's is then lost. -/
def commitTick (s : State) : State :=
  let both : Bool := s.rtc.net.fields != 0 && s.rtc.app.fields != 0
  let net : Bool := s.rtc.net.fields != 0
  let c := rtcCore s net
  let old := dateSeconds s.rtc.now.date
  let t := if s.rtc.run then s.rtc.now.tick else (s.rtc.now, false, false)
  let x := t.1.compose c.stage c.fields
  let ok : Bool := x.bad.isNone
  let s1 := updRtc (fun r => { r with now := if ok then x else t.1 }) s
  let s2 := updRtcCore net (fun y => { y with fields := 0, werr := y.werr || !ok }) s1
  let s3 := if both then updRtcCore false (fun y => { y with fields := 0, wlost := true }) s2 else s2
  let s4 := if ok && t.2.2 then rtcTell false 2 0 (updRtc (fun r => { r with ovf := true }) s3) else s3
  if ok then committed c.fields old s4 else if t.2.1 then rolledOver t.2.2 s4 else s4

/-! ### Reading (R554) -/

/-- The field of the time register at offset 4k. -/
def RtcTime.reg (t : RtcTime) (k : Nat) : Nat := at_ 0 [t.subsec, t.sec, t.min, t.hour, t.wday, t.day, t.mon, t.year] k

/-- R554: a read of a time register captures or returns the core's shadow; RTC_YEAR releases it. -/
def rtcRead (net : Bool) (k : Nat) (s : State) : State × Nat :=
  let s1 := if (rtcCore s net).frz then s else updRtcCore net (fun c => { c with shadow := s.rtc.now, frz := true, stale := false, age := 0 }) s
  let v := (rtcCore s1 net).shadow.reg k
  (if k = 7 then updRtcCore net (fun c => { c with frz := false }) s1 else s1, v)

/-- R556: a write of a time register goes to the staging field, unless a commit is pending. -/
def rtcStage (net : Bool) (k v : Nat) (s : State) : State :=
  if (rtcCore s net).fields != 0 then s
  else updRtcCore net (fun c =>
    let g := c.stage
    { c with stage := match k with
        | 0 => { g with subsec := v % 2 ^ 15 } | 1 => { g with sec := v % 2 ^ 6 } | 2 => { g with min := v % 2 ^ 6 } | 3 => { g with hour := v % 2 ^ 5 }
        | 4 => { g with wday := v % 2 ^ 3 } | 5 => { g with day := v % 2 ^ 5 } | 6 => { g with mon := v % 2 ^ 4 } | 7 => { g with year := v % 2 ^ 12 }
        | _ => g }) s

/-- R556: a write of RTC_SET. -/
def rtcSet (net : Bool) (v : Nat) (s : State) : State :=
  if (rtcCore s net).fields != 0 then s else updRtcCore net (fun c => { c with fields := BitVec.ofNat 8 v }) s

/-- RTC_STAT as a core reads it (R561). -/
def rtcStat (s : State) (net : Bool) : Nat :=
  let c := rtcCore s net
  let r := s.rtc
  b2n c.frz + 2 * b2n c.stale + 4 * b2n (c.fields != 0) + 8 * b2n c.werr + 16 * b2n r.osf + 32 * b2n r.ovf + 64 * b2n r.bksw + 128 * r.alf.toNat +
    512 * b2n r.act.isSome + 1024 * b2n r.actHeld + 2048 * b2n c.wlost + 4096 * b2n r.run

/-- R561: a write of RTC_STAT by a core. -/
def rtcStatWrite (net : Bool) (v : Word) (s : State) : State :=
  updRtcCore net (fun c => { c with werr := c.werr && !bit v 3, wlost := c.wlost && !bit v 11 })
    (updRtc (fun r => { r with ovf := r.ovf && !bit v 5, bksw := r.bksw && !bit v 6, alf := r.alf &&& ~~~(v.extractLsb' 7 2) }) s)

/-! ### Commands (R562 to R567) -/

def timeRec (s : State) : List Byte :=
  let t := s.rtc.now
  dateBytes t.date ++ le 2 t.subsec ++ le 1 t.wday ++ le 1 (b2n s.rtc.osf + 2 * b2n s.rtc.ovf + 4 * b2n s.rtc.bksw) ++ le 4 (rtcSeconds s)

def rtcStateRec (s : State) : List Byte :=
  le 4 (rtcStat s true) ++ le 4 s.rtc.bkstamp ++ le 4 (match s.rtc.act with | some d => sat 0xFFFFFFFE (dateSeconds d) | none => 0xFFFFFFFF) ++ le 4 0

def alarmRec (s : State) (n : Nat) : List Byte :=
  let a := alarmOf s n
  let v (i : Nat) : Nat := at_ 0 a.vals i
  le 1 n ++ le 1 (b2n a.en) ++ le 1 a.mask.toNat ++ le 1 0 ++ dateBytes [v 5, v 4, v 3, v 2, v 1, v 0]

/-- R567: the survey body of unit 0x0D. -/
def rtcSurvey (s : State) : List Byte := timeRec s ++ rtcStateRec s ++ alarmRec s 0 ++ alarmRec s 1

def rtcStateGet : CoreFn := fun _ _ s => okR s (rtcStateRec s)
def rtcTimeGet : CoreFn := fun _ _ s => okR s (timeRec s)

/-- R564: a time staged by the firmware and committed on the next tick. -/
def rtcTimeSet : CoreFn := fun _ p s =>
  let g : RtcTime := { subsec := u16 p 12, sec := u8 p 10, min := u8 p 9, hour := u8 p 8, wday := u8 p 14, day := u8 p 7, mon := u8 p 6, year := u16 p 4 }
  guardR s [(decide (u8 p 0 ≠ 0), 0), rsv p 1 3, rsv p 11 1, rsv p 15 1] fun _ =>
    let t := (if s.rtc.run then s.rtc.now.tick else (s.rtc.now, false, false)).1
    let s1 := commitTick (updRtcCore true (fun c => { c with stage := g, fields := BitVec.ofNat 8 (u8 p 0) }) s)
    match (t.compose g (BitVec.ofNat 8 (u8 p 0))).bad with
    | some o => badR s1 o
    | none => okR s1 (timeRec s1)

/-- R565: the selected fields lie within R549 and the others are zero. -/
def alarmChecks (p : List Byte) : List (Bool × Nat) :=
  let on (i : Nat) : Bool := (u8 p 2).testBit i
  let f (i v lo hi off : Nat) : Bool × Nat := (if on i then decide (lo ≤ v ∧ v ≤ hi) else v == 0, off)
  let y := if on 5 then u16 p 4 else 2000
  let days := if on 4 then daysIn y (u8 p 6) else 31
  [f 5 (u16 p 4) 2000 2199 4, f 4 (u8 p 6) 1 12 6, f 3 (u8 p 7) 1 days 7, f 2 (u8 p 8) 0 23 8, f 1 (u8 p 9) 0 59 9, f 0 (u8 p 10) 0 59 10]

def rtcAlarmSet : CoreFn := fun _ p s =>
  guardR s ([(decide (u8 p 0 ≤ 1), 0), (decide (u8 p 1 ≤ 1), 1), (decide (u8 p 2 < 64), 2), rsv p 3 1] ++ alarmChecks p ++ [rsv p 11 1]) fun _ =>
    let a : Alarm := { vals := [u8 p 10, u8 p 9, u8 p 8, u8 p 7, u8 p 6, u16 p 4], mask := BitVec.ofNat 6 (u8 p 2), en := u8 p 1 == 1 }
    let s1 := updRtc (fun r => if u8 p 0 = 0 then { r with alm0 := a } else { r with alm1 := a }) s
    okR s1 (alarmRec s1 (u8 p 0))

def rtcAlarmGet : CoreFn := fun _ p s => guardR s [(decide (u8 p 0 ≤ 1), 0), rsv p 1 3] fun _ => okR s (alarmRec s (u8 p 0))

def rtcFlagsClear : CoreFn := fun _ p s =>
  guardR s [(decide (u8 p 0 < 16), 0), rsv p 1 3] fun _ =>
    let f := BitVec.ofNat 4 (u8 p 0)
    okR (updRtc (fun r => { r with ovf := r.ovf && !bit f 0, bksw := r.bksw && !bit f 1, alf := r.alf &&& ~~~(f.extractLsb' 2 2) }) s) []

/-- R320: EPOCH plus MTIME at the next slow-clock tick, in ticks of 2^-24 s. -/
def networkTime (s : State) : Nat := dateSeconds s.timing.cfg.epoch * 2 ^ 24 + (s.clk.mtime + 512) % mtMod

/-- R320: the time TIME_SYNC stages. -/
def networkRtc (s : State) : RtcTime :=
  let n := networkTime s
  let d := secondsDate (n / 2 ^ 24)
  { subsec := n / 512 % 32768, sec := at_ 0 d 5, min := at_ 0 d 4, hour := at_ 0 d 3, wday := 0, day := at_ 0 d 2, mon := at_ 0 d 1, year := at_ 0 d 0 }

def timeSync : CoreFn := fun _ _ s =>
  if !s.clk.sync then errR s stTIME 0
  else if lastSecond < networkTime s / 2 ^ 24 then badR s 0
  else
    let s1 := commitTick (updRtcCore true (fun c => { c with stage := networkRtc s, fields := 0xEF }) s)
    okR s1 (dateBytes s1.rtc.now.date ++ le 2 s1.rtc.now.subsec ++ le 2 0)

def execTimeSync (v : Srv) (s : State) : Out := .next (serve 0x0620 timeSync v s)
def execRtcStateGet (v : Srv) (s : State) : Out := .next (serve 0x0D00 rtcStateGet v s)
def execRtcTimeGet (v : Srv) (s : State) : Out := .next (serve 0x0D01 rtcTimeGet v s)
def execRtcTimeSet (v : Srv) (s : State) : Out := .next (serve 0x0D02 rtcTimeSet v s)
def execRtcAlarmSet (v : Srv) (s : State) : Out := .next (serve 0x0D03 rtcAlarmSet v s)
def execRtcAlarmGet (v : Srv) (s : State) : Out := .next (serve 0x0D04 rtcAlarmGet v s)
def execRtcFlagsClear (v : Srv) (s : State) : Out := .next (serve 0x0D05 rtcFlagsClear v s)

/-! ### Register accesses and the clock's own steps -/

/-- A core can reach its RTC registers (R16). -/
def rtcAccess (s : State) (net : Bool) : Bool := if net then netRuns s else mayAccess s .app

/-- R554: a read of the time register at offset 4k. -/
def execRtcTimeRead (net : Bool) (k : Nat) (s : State) : Out := .next (if rtcAccess s net && decide (k < 8) then (rtcRead net k s).1 else s)

/-- R556: a write of RTC_SET. -/
def execRtcSet (net : Bool) (v : Word) (s : State) : Out := .next (if rtcAccess s net then rtcSet net v.toNat s else s)

/-- R554: a write of RTC_THAW. -/
def rtcThaw (net : Bool) (v : Word) (s : State) : State := if bit v 0 then updRtcCore net RtcCore.thaw s else s

def execRtcThaw (net : Bool) (v : Word) (s : State) : Out := .next (if rtcAccess s net then rtcThaw net v s else s)

/-- R556: the slow-clock tick on which a pending commit falls. -/
def execRtcCommit (s : State) : Out :=
  .next (if s.rtc.run && !s.boot.aonLost && (s.rtc.net.fields != 0 || s.rtc.app.fields != 0) then commitTick s else s)

/-- R549: a second roll-over. -/
def execRtcSecondRollover (s : State) : Out :=
  .next <|
    if !s.rtc.run || s.boot.aonLost then s
    else
      let t := s.rtc.now.roll
      rolledOver t.2 (updRtc (fun r => { r with now := t.1 }) s)

/-- R552, R690: the slow clock has stopped. MTIME stops with it when it counts on it. -/
def slowStops (s : State) : State :=
  setOsf (updClk (fun c =>
    let stops : Bool := c.rate == .slow
    { c with lfxrdy := false, rate := if stops then .held else c.rate, gap := c.gap || stops, sync := c.sync && !stops }) (updRtc (fun r => { r with run := false }) s))

def execOscStop (s : State) : Out := .next (if s.clk.lfxrdy && !s.boot.aonLost then slowStops s else s)

/-- R554: a shadow has held for more than 1 s. -/
def execShadowStale (net : Bool) (s : State) : Out := .next (if (rtcCore s net).frz then updRtcCore net (fun c => { c with stale := true }) s else s)

end Sys2Proof.Machine
end

