-- ==== Sys2Proof/Machine/SchedOps.lean ====
section
/-! DEFINITION. The scheduler: blocking states, stamps, tokens, the wheel and the release decision (R381 to R399). -/

namespace Sys2Proof.Machine

def flowOf (s : State) (i : Nat) : Flow := tget Flow.reset i s.sched.flow
def putFlow (i : Nat) (f : Flow) (s : State) : State := updSched (fun x => { x with flow := tset Flow.reset i f x.flow }) s
def shaperOf (s : State) (i : Nat) : Shaper := tget Shaper.reset i s.sched.shaper
def putShaper (i : Nat) (h : Shaper) (s : State) : State := updSched (fun x => { x with shaper := tset Shaper.reset i h x.shaper }) s
def schedStat (f : SchedStats → SchedStats) (s : State) : State := updSched (fun x => { x with stats := f x.stats }) s

/-! ### Virtual time (R388 to R390) -/

/-- Modulus of V, F_LAST and the stamps. -/
def vMod : Nat := 2 ^ 40

/-- R390: time `a` is earlier than time `b`. -/
def vEarlier (a b : Nat) : Bool :=
  let d := (b + vMod - a % vMod) % vMod
  decide (1 ≤ d ∧ d < 2 ^ 39)

/-- R390 later_of. -/
def laterOf (a b : Nat) : Nat := if vEarlier a b then b else a

/-- R388: a packet's cost. -/
def cost (length weight : Nat) : Nat := cdiv (length * 256) weight

/-- R390: more than 2^38 behind V. -/
def farBehind (v x : Nat) : Bool :=
  let d := (v + vMod - x % vMod) % vMod
  decide (2 ^ 38 < d ∧ d < 2 ^ 39)

/-! ### Heads and blocking states (R385) -/

/-- R384: the flow is enabled and serves a TX queue. -/
def flowServes (s : State) (f : Flow) : Bool := f.cfg.enable == 1 && queuePresent s f.cfg.queue && (queueOf s f.cfg.queue).kind == 1

/-- The packet at the head of the flow's queue. -/
def flowHead (s : State) (f : Flow) : Option Packet :=
  if queuePresent s f.cfg.queue && !(queueOf s f.cfg.queue).broken then (queueOf s f.cfg.queue).packets.head? else none

/-- R387: the packet's next hop has FLAGS.RDV. -/
def packetRdv (s : State) (p : Packet) : Bool := match hopOf s p.bytes with | .nbr i _ => (nbrOf s i).rdv | _ => false

/-- R276: the packet is unicast to a neighbour that has a frame in flight. -/
def packetBusy (s : State) (p : Packet) : Bool := match hopOf s p.bytes with | .nbr i _ => nbrBusy s i | _ => false

/-- R392: the flow's shaper holds it. -/
def shaperHolds (s : State) (f : Flow) : Bool :=
  decide (f.cfg.shaper < 128) && (shaperOf s f.cfg.shaper).cfg.enable == 1 && decide ((shaperOf s f.cfg.shaper).tokens < 1)

/-- R276, R381, R445, R450: releases are possible at all. -/
def releasing (s : State) : Bool := linkModes s && s.pwr.drain.isNone && working s 9 && working s 5
def atLimit (s : State) : Bool := decide (Config.framesInFlight s.dev.variant ≤ inFlight s)

/-- R385: the blocking state of a flow. TALLY ends at the flow's time on the wheel, TALLY_NEVER when the bands or the head change. -/
def flowBlock (s : State) (f : Flow) : Nat :=
  if !flowServes s f then 2
  else match flowHead s f with
    | none => 1
    | some p =>
      if f.block = 4 ∨ f.block = 5 then f.block
      else if !linkModes s then 7
      else if shaperHolds s f then 3
      else if atLimit s then 7
      else if packetBusy s p then 6
      else if !gateOpen s && !packetRdv s p then 7
      else 0

/-- One refill period in ticks, 1 ms (R391). -/
def refillTicks (n : Nat) : Nat := usTicks (1000 * n)

/-- R392: the refill edge at which the flow's shaper first holds a token; none with RATE 0. -/
def shaperTime (s : State) (f : Flow) : Option Nat :=
  let h := shaperOf s f.cfg.shaper
  if h.cfg.rate = 0 then none else some (mtAdd s.sched.lastRefill (refillTicks (cdiv (1 - h.tokens).toNat h.cfg.rate) : Nat))

/-- R389: the head of a weighted flow's queue holds a stamp. -/
def stamped (s : State) (f : Flow) : Flow :=
  if f.cfg.strict = 1 ∨ !flowServes s f then f
  else match flowHead s f with
    | none => { f with stamp := none }
    | some p =>
      if f.stamp.isSome then f
      else
        let v := (laterOf f.fLast s.sched.v + cost p.bytes.length f.cfg.weight) % vMod
        { f with stamp := some v, fLast := v }

/-- A flow is looked at again: its stamp, its blocking state, its entry on the wheel, and HOLD_SHAPER and HOLD_NBR (R405). -/
def scanFlow (s : State) (i : Nat) : State :=
  let f := stamped s (flowOf s i)
  let b := flowBlock s f
  let g := { f with block := b, eligible := if b = 3 then shaperTime s f else if b = 4 then f.eligible else none }
  schedStat (fun x => { x with holdShaper := if b = 3 ∧ f.block ≠ 3 then inc32 x.holdShaper else x.holdShaper,
                               holdNbr := if b = 6 ∧ f.block ≠ 6 then inc32 x.holdNbr else x.holdNbr }) (putFlow i g s)

/-- Every flow is looked at again, in ascending index. -/
def schedScan (s : State) : State := (s.sched.flow.map Prod.fst).foldl scanFlow s

/-! ### The release decision (R382, R383, R386, R387, R389, R395 to R397) -/

/-- Indexes of the flows that could release, ascending. -/
def readyFlows (s : State) : List Nat := (s.sched.flow.filter (fun f => decide (f.2.block = 0))).map Prod.fst

/-- The weighted flow with the earlier stamp, the lower index winning a tie. -/
def earlierFlow (s : State) (a : Option Nat) (i : Nat) : Option Nat :=
  match a with
  | none => some i
  | some j => if vEarlier ((flowOf s i).stamp.getD 0) ((flowOf s j).stamp.getD 0) then some i else some j

/-- The flow whose head is released next: strict flows, then heads for rendezvous, then weighted flows. -/
def schedPick (s : State) : Option Nat :=
  let ready := readyFlows s
  match ready.find? (fun i => (flowOf s i).cfg.strict == 1) with
  | some i => some i
  | none =>
    match ready.find? (fun i => match flowHead s (flowOf s i) with | some p => packetRdv s p | none => false) with
    | some i => some i
    | none => ready.foldl (earlierFlow s) none

/-- R395: carrier, as a tuning, that a packet's first transmission will take. -/
def packetTune (s : State) (p : Packet) : Nat :=
  match hopOf s p.bytes with
  | .nbr i _ =>
    let e := nbrOf s i
    if e.rdv then (match nextRdv s (nbrSched e) with | some k => (nbrSched e).tune s k | none => s.radio.home) else s.radio.home
  | _ => s.radio.home

/-- R395: predicted on-air time of a packet; none for one that ends with BAD_DESC or NH_DOWN. -/
def packetUs (s : State) (p : Packet) : Option Nat :=
  match hopOf s p.bytes with
  | .badDesc => none
  | .nhDown => none
  | h => some (predictUs s (hopProfile s h) (frameOctets s h (pLen p.bytes)))

/-- R396: the flow's head is refused: `b` the band, `t` the predicted time. -/
def refuseFlow (i : Nat) (b : Option Nat) (t : Nat) (s : State) : State :=
  let f := flowOf s i
  let fits := match b with | some b => fitsInMs s b t false | none => 0xFFFFFFFF
  let never : Bool := fits == 0xFFFFFFFF
  let reason := if b = none then 2 else if never then 3 else 1
  let bucket := usTicks (250 * (ticksUs s.clk.mtime / 250 + 1))
  let at_ := mtAdd s.clk.mtime (usTicks (1000 * fits) : Nat)
  let g := { f with block := if never then 5 else 4, refReason := reason, refBand := b.getD 0xFF, refUs := t, refMtime := s.clk.mtime,
                    eligible := if never then none else some (if mtLater bucket at_ then bucket else at_) }
  updSched (fun x =>
    { x with blkCount := if never then inc16 x.blkCount else x.blkCount, blkFlow := if never then i else x.blkFlow,
             blkBand := if never then b.getD 0xFF else x.blkBand, blkReason := if never then reason else x.blkReason,
             stats := { x.stats with holdTally := if never then x.stats.holdTally else inc32 x.stats.holdTally,
                                     holdNever := if never then inc32 x.stats.holdNever else x.stats.holdNever } })
    (putFlow i g s)

/-- R390: a weighted flow far behind V is set to V; VT_CLAMP counts each setting. -/
def clampFlow (s : State) (i : Nat) : State :=
  let f := flowOf s i
  let v := s.sched.v
  let a := farBehind v f.fLast
  let b := match f.stamp with | some x => farBehind v x | none => false
  if f.cfg.strict = 1 ∨ (!a && !b) then s
  else
    schedStat (fun x => { x with vtClamp := sat 0xFFFFFFFF (x.vtClamp + b2n a + b2n b) })
      (putFlow i { f with fLast := if a then v else f.fLast, stamp := if b then some v else f.stamp } s)

/-- R381, R386 to R392: the head of flow `i` is released to the link controller. -/
def releaseFlow (i : Nat) (p : Packet) (s : State) : State :=
  let f := flowOf s i
  let rdv := packetRdv s p
  let n := p.bytes.length
  let wfq : Bool := f.cfg.strict != 1 && !rdv
  let s1 := updQueue f.cfg.queue (fun q => { q with packets := q.packets.drop 1 }) s
  let s2 := updLink (fun l => { l with released := l.released ++ [{ flow := i, queue := f.cfg.queue, rdv := rdv, packet := p }] }) s1
  let s3 := putFlow i { f with stamp := none, released := inc32 f.released, releasedBytes := sat 0xFFFFFFFF (f.releasedBytes + n) } s2
  let h := shaperOf s f.cfg.shaper
  let s4 := if f.cfg.shaper < 128 ∧ h.cfg.enable = 1 then putShaper f.cfg.shaper { h with tokens := h.tokens - (n : Int) } s3 else s3
  let s5 := updSched (fun x =>
    { x with v := if wfq then f.stamp.getD x.v else x.v,
             stats := { x.stats with relStrict := if f.cfg.strict = 1 then inc32 x.stats.relStrict else x.stats.relStrict,
                                     relRdv := if f.cfg.strict ≠ 1 ∧ rdv then inc32 x.stats.relRdv else x.stats.relRdv,
                                     relWfq := if wfq then inc32 x.stats.relWfq else x.stats.relWfq } }) s4
  schedScan ((List.range 256).foldl clampFlow s5)

/-- R395, R396: the decision: heads the tally refuses are set aside until one can be released. -/
def schedDecide : Nat → State → State
  | 0, s => s
  | n + 1, s =>
    match schedPick s with
    | none => s
    | some i =>
      match flowHead s (flowOf s i) with
      | none => s
      | some p =>
        match packetUs s p with
        | none => releaseFlow i p s
        | some t =>
          match judge s (tuneExact (packetTune s p)) t false with
          | (_, true) => releaseFlow i p s
          | (b, false) => schedDecide n (schedScan (refuseFlow i b t s))

/-! ### Refills and the wheel (R391, R393, R394, R398) -/

/-- A change of configuration takes effect: TOKENS is clamped, and starts at BURST when ENABLE rises (R393). -/
def Shaper.install (h : Shaper) (c : ShaperCfg) : Shaper :=
  { h with cfg := c, next := none, tokens := if h.cfg.enable = 0 ∧ c.enable = 1 then (c.burst : Int) else min h.tokens (c.burst : Int) }

/-- One refill edge of a shaper: the refill, then a change that waited for it. -/
def Shaper.refill (h : Shaper) : Shaper :=
  let r := { h with tokens := if h.cfg.enable = 1 then min (h.tokens + (h.cfg.rate : Int)) (h.cfg.burst : Int) else h.tokens, activeRate := h.cfg.rate }
  match h.next with
  | some c => r.install c
  | none => r

/-- R391: one refill edge. -/
def schedRefill (s : State) : State :=
  schedScan (updSched (fun x => { x with lastRefill := s.clk.mtime, shaper := tmap Shaper.reset Shaper.refill x.shaper }) s)

/-- R398: refills of `n` edges that a NAP passed over, clamped to BURST. -/
def refillMany (n : Nat) (s : State) : State :=
  updSched (fun x => { x with shaper := tmap Shaper.reset (fun h =>
    if h.cfg.enable = 1 then { h with tokens := min (h.tokens + (n * h.cfg.rate : Nat)) (h.cfg.burst : Int) } else h) x.shaper }) s

/-- The flow's time on the wheel has come: it is examined again. -/
def wheelFlow (s : State) (i : Nat) : State :=
  let f := flowOf s i
  match f.eligible with
  | some t => if mtReached t s.clk.mtime then scanFlow (putFlow i { f with block := if f.block = 4 then 0 else f.block, eligible := none } s) i else s
  | none => s

/-! ### Resets (R399) -/

/-- R399: V, stamps, tokens and the wheel start anew, and the head of every queue that survived is stamped. -/
def schedRestart (s : State) : State :=
  schedScan (updSched (fun x =>
    { x with v := 0, lastRefill := s.clk.mtime,
             flow := tmap Flow.reset (fun f => { f with block := 2, fLast := 0, stamp := none, eligible := none, refReason := 0, refBand := 0xFF, refUs := 0, refMtime := 0 }) x.flow,
             shaper := tmap Shaper.reset (fun h => { h with tokens := (h.cfg.burst : Int) }) x.shaper }) s)

end Sys2Proof.Machine
end

