-- ==== Sys2Proof/Machine/Timing.lean ====
section
/-! DEFINITION. The timing unit: sync records, drift, steps of MTIME, guards, windows and the link calendar (R298 to R319). -/

namespace Sys2Proof.Machine

def syncOf (s : State) (i : Nat) : SyncRec := tget SyncRec.zero i s.timing.sync
def putSync (i : Nat) (r : SyncRec) (s : State) : State := updTiming (fun t => { t with sync := tset SyncRec.zero i r t.sync }) s
def timingStat (f : TimingStats → TimingStats) (s : State) : State := updTiming (fun t => { t with stats := f t.stats }) s

/-! ### Steps (R308) -/

/-- The number of the next own window not yet opened or passed over, after MTIME has moved back (R311). -/
def ownRewind (s : State) : State :=
  match nextRdv s (ownSched s) with
  | some k => updTiming (fun t => { t with nextK := min t.nextK k }) s
  | none => s

/-- R308: a step to own MTIME takes effect; `src` is the neighbour it came from, 0xFFFF TIMING_MTIME_SET. A shot whose
MTIME it passes is triggered at the step (R94), and so is APPTIMER (R462). -/
def applyStep (d : Int) (src : Nat) (s : State) : State :=
  let s1 := ownRewind (updClk (fun c => { c with mtime := mtAdd c.mtime d, sync := true }) s)
  let s2 := appTimer <| shotsFall 3 (updTiming (fun t => { t with stepSum := t.stepSum + d, stats := { t.stats with steps := inc32 t.stats.steps } }) s1)
  if 2 ^ 24 < d.natAbs then raise 0x8662 (lei 8 d ++ le 2 src ++ le 2 0) s2 else s2

/-- R308: a step is applied at the end of any frame exchange in progress. -/
def requestStep (d : Int) (src : Nat) (s : State) : State :=
  if exchange s then updTiming (fun t => { t with pendingStep := t.pendingStep ++ [(d, src)] }) s else applyStep d src s

/-- What the steps that wait will add. -/
def waitingStep (s : State) : Int := (s.timing.pendingStep.map Prod.fst).foldl (· + ·) 0

/-! ### Sync events and drift (R306, R307, R309) -/

/-- Bits [31:0] of a sum. -/
def low32 (i : Int) : Nat := (i % (2 ^ 32 : Nat)).toNat

/-- A difference of two 32-bit values, signed. -/
def diff32 (a b : Nat) : Int := signed 32 ((a + 2 ^ 32 - b % 2 ^ 32) % 2 ^ 32)

/-- The nearest integer, halves away from zero. -/
def roundDiv (num den : Int) : Int := if den = 0 then 0 else roundAway (if den < 0 then -num else num) den.natAbs

/-- The quotient by 4, toward zero. -/
def truncDiv4 (x : Int) : Int := if x < 0 then -((x.natAbs / 4 : Nat) : Int) else (x.natAbs / 4 : Nat)

/-- R307: a drift sample, when one is taken. -/
def driftSample (s : State) (i : Nat) (o : Int) : Option Int :=
  let r := syncOf s i
  let since := (s.clk.mtime + mtMod - r.mtime) % mtMod
  if !r.valid ∨ 8388607 ≤ o.natAbs ∨ since < 10 * 2 ^ 24 then none
  else
    let ds := diff32 (low32 (s.timing.stepSum + waitingStep s)) r.stepAt
    let elapsed := (since : Int) + waitingStep s - ds
    some (roundDiv (1000000000 * (o - r.toff + ds)) elapsed)

/-- R307, R309: a sample moves DRIFT_PPB and, from own time source with AUTOTRIM, TRIM_PPB. -/
def takeSample (i : Nat) (x : Int) (s : State) : State :=
  let r := syncOf s i
  let e := nbrOf s i
  let d := if r.driftValid then e.drift + truncDiv4 (x - e.drift) else x
  let s1 := putSync i { r with driftValid := true } (putNbr i { e with drift := clampI (-8388607) 8388607 d } s)
  if timeSource s = some i ∧ bit s.timing.cfg.flags 2 then
    updTiming (fun t => { t with cfg := { t.cfg with trimPpb := clampI (-100000) 100000 (t.cfg.trimPpb + x) } }) s1
  else s1

/-- R306: a sync event with neighbour `i` and observed offset `o`. A LOST entry's record restarts from the event (R319). -/
def syncEvent (i : Nat) (o : Int) (s : State) : State :=
  let e := nbrOf s i
  let s0 := if e.state = .lost then putSync i .zero (putNbr i { e with state := .active, miss := 0, fails := 0 } s) else s
  let s1 := match driftSample s0 i o with | some x => takeSample i x s0 | none => s0
  let src : Bool := timeSource s1 == some i
  let toff := if src ∨ bit e.flags 1 then 0 else o
  let d := waitingStep s1 + (if src then o else 0)
  let r := syncOf s1 i
  let s2 := putSync i { r with mtime := mtAdd s1.clk.mtime d, valid := true, toff := toff, stepAt := low32 (s1.timing.stepSum + d) } s1
  if src then requestStep o i s2 else s2

/-! ### Guard (R313) -/

/-- R313: the guard for a window centred at `ck` against a time source. -/
def guardUs (s : State) (src : Option Nat) (ck : Nat) : Nat :=
  let c := s.timing.cfg
  match src with
  | none => c.guardCapUs
  | some i =>
    let e := nbrOf s i
    let r := syncOf s i
    if !r.valid ∨ !s.clk.sync ∨ 5 ≤ e.miss then c.guardCapUs
    else
      let since := (ck + mtMod - r.mtime) % mtMod
      min ((c.baseUs + cdiv ((e.drift.natAbs + 100 * c.bound) * since * 1000000) (2 ^ 24 * 1000000000)) * 2 ^ e.miss) c.guardCapUs

/-- R314: lane 0's detection span in µs. -/
def detectUs (s : State) : Nat :=
  let c := (laneOf s 0).cfg
  match c.phy with
  | 1 => cdiv (80 * 1000000) (max 1 c.rate)
  | 2 => 720
  | _ => match seamIdx c.rate with
    | some i => cdiv (64 * 1000000) (at_ (0, 0, 1) seamTable i).2.2
    | none => 0

/-! ### The calendar (R310) -/

/-- The horizon of the wheel: 4,096 ms. -/
def calHorizon : Nat := usTicks 4096000

/-- The number of the next own window not yet opened or passed over. -/
def ownNext (s : State) : Option Nat := if s.timing.cfg.ownPeriod = 0 ∨ s.pwr.mode ≠ .leaf then none else some s.timing.nextK

/-- What the calendar holds now, with the exact times. -/
def calWanted (s : State) : List (Nat × CalKind) :=
  (match ownNext s with
   | some k => [((ownSched s).centre k, CalKind.ownWindow k)]
   | none => []) ++
  s.link.flight.filterMap (fun f => match f.phase with | .window t => some (t, CalKind.transmit f.id) | _ => none) ++
  (if bit s.timing.cfg.flags 1 then s.link.nbr.filterMap (fun e =>
      if e.2.state = .active ∧ e.2.rdv ∧ bit e.2.flags 1 then (nextRdv s (nbrSched e.2)).map (fun k => ((nbrSched e.2).centre k, CalKind.keepalive e.1)) else none)
    else []) ++
  s.timing.resync.map (fun r => (r.due, CalKind.resyncStep r.nbr)) ++
  (match s.timing.listen with | some l => [(l.1, CalKind.resyncListen)] | none => [])

/-- R310: the calendar is brought to what it holds; an event enters the wheel when it lies within the horizon, else the overflow list. -/
def calRefresh (s : State) : State :=
  if quiescing s 6 then s
  else updTiming (fun t => { t with calendar := (calWanted s).map (fun e =>
    { at_ := e.1, kind := e.2,
      wheel := mtReached (mtAdd e.1 (-(calHorizon : Int))) s.clk.mtime || t.calendar.any (fun c => c.kind == e.2 && c.at_ == e.1 && c.wheel) }) }) s

/-- Own windows start anew: the first one at least 2 ms ahead (R311). -/
def ownRestart (s : State) : State := updTiming (fun t => { t with nextK := (nextRdv s (ownSched s)).getD 0 }) s

/-! ### LOST and RESYNC (R315, R317, R330) -/

/-- A neighbour becomes LOST; `side` 0 is the sender's, 1 the listener's. -/
def becomeLost (i side : Nat) (s : State) : State :=
  raise 0x8661 (le 2 i ++ le 1 side ++ le 1 0)
    (timingStat (fun x => { x with lost := inc32 x.lost }) (updNbr i (fun e => { e with state := .lost }) s))

/-- R330 LINK_RESYNC. -/
def resyncEvent (i outcome : Nat) (tcorr : Int) (s : State) : State :=
  raise 0x8660 (le 2 i ++ le 1 outcome ++ le 1 (nbrOf s i).fails ++ lei 4 tcorr) s

/-- TCORR that marks no measurement (R305). -/
def tcorrNone : Int := -8388608

def resyncOf (s : State) (i : Nat) : Option Resync := s.timing.resync.find? (fun r => r.nbr == i)
def putResync (r : Resync) (s : State) : State :=
  updTiming (fun t => { t with resync := t.resync.map (fun x => if x.nbr = r.nbr then r else x) }) s
def dropResync (i : Nat) (s : State) : State := updTiming (fun t => { t with resync := t.resync.filter (fun r => r.nbr != i) }) s

/-- R326: the completion of TIMING_RESYNC. -/
def resyncComplete (i outcome : Nat) (tcorr : Int) (s : State) : State :=
  match resyncOf s i with
  | some r =>
    match r.slot with
    | some n => complete n 0 0 (le 1 outcome ++ le 3 0 ++ lei 4 tcorr) (putResync { r with slot := none } s)
    | none => s
  | none => s

/-- R317: an attempt starts; its wake is due at once. -/
def resyncStart (i : Nat) (slot : Option Nat) (s : State) : State :=
  timingStat (fun x => { x with resyncStarted := inc32 x.resyncStarted })
    (updTiming (fun t => { t with resync := t.resync.filter (fun r => r.nbr != i) ++ [{ nbr := i, slot := slot, stage := 1, beacons := 0, due := s.clk.mtime }] })
      (updNbr i (fun e => { e with state := .resync }) s))

/-- R317: the attempt is postponed, not counted; `outcome` is what TIMING_RESYNC reports. -/
def resyncPostpone (i outcome : Nat) (s : State) : State :=
  match resyncOf s i with
  | none => s
  | some _ =>
    let s1 := resyncComplete i outcome tcorrNone s
    resyncEvent i 2 tcorrNone (updTiming (fun t => { t with resync := t.resync.map (fun r =>
      if r.nbr = i then { r with stage := 0, beacons := 0, due := mtAdd s.clk.mtime (t.cfg.resyncIntervalS * 2 ^ 24 : Nat) } else r) }) s1)

/-- R317: a beacon of the attempt was acknowledged with a valid TCORR. -/
def resyncSuccess (i : Nat) (tcorr : Int) (s : State) : State :=
  let s1 := resyncComplete i 0 tcorr s
  let s2 := putSync i { syncOf s1 i with driftValid := false } (updNbr i (fun e => { e with drift := 0, miss := 0, fails := 0, state := .active }) s1)
  resyncEvent i 0 tcorr (timingStat (fun x => { x with resyncOk := inc32 x.resyncOk }) (dropResync i s2))

/-- R317: a beacon of the attempt failed. The third failure ends the attempt; the fifth attempt that fails loses the neighbour. -/
def resyncFailed (i : Nat) (s : State) : State :=
  match resyncOf s i with
  | none => s
  | some r =>
    if r.beacons < 3 then putResync { r with due := mtAdd s.clk.mtime (usTicks 20000 : Nat) } s
    else
      let s1 := resyncComplete i 2 tcorrNone s
      let s2 := updNbr i (fun e => { e with fails := min 15 (e.fails + 1) }) (timingStat (fun x => { x with resyncFailed := inc32 x.resyncFailed }) s1)
      let s3 := resyncEvent i 1 tcorrNone s2
      if 5 ≤ (nbrOf s3 i).fails then becomeLost i 0 (dropResync i s3)
      else updTiming (fun t => { t with resync := t.resync.map (fun x =>
        if x.nbr = i then { x with stage := 0, beacons := 0, due := mtAdd s.clk.mtime (t.cfg.resyncIntervalS * 2 ^ 24 : Nat) } else x) }) s3

end Sys2Proof.Machine
end

