-- ==== Sys2Proof/Machine/LinkActs.lean ====
section
/-! DEFINITION. What the link controller does with frames in flight: securing, placing, handing to the radio, failed attempts and outcomes
(R263, R275 to R279, R311, R312, R316, R317, R340, R342), and its three settings (R288, R289, R291). -/

namespace Sys2Proof.Machine

/-! ### Outcomes (R279, R297) -/

/-- R297 LINK_TX_DONE. -/
def txDone (nbr seq outcome attempts queue : Nat) (s : State) : State :=
  raise 0x8561 (le 2 nbr ++ le 2 seq ++ le 1 outcome ++ le 1 attempts ++ le 2 queue) s

/-- R279: the counter of an outcome. -/
def countOutcome (outcome : Nat) (x : LinkStats) : LinkStats :=
  match outcome with
  | 0 => { x with txOk := inc32 x.txOk }
  | 1 => { x with txFail := inc32 x.txFail }
  | 2 => { x with keyExhausted := inc32 x.keyExhausted }
  | 3 => { x with badDesc := inc32 x.badDesc }
  | _ => { x with nhDown := inc32 x.nhDown }

/-- The radio forgets a frame that it holds and has not begun (R127, R339). -/
def unhold (id : Nat) (s : State) : State :=
  match s.radio.held with
  | some q => if q.who = .frame id then tallyRelease q.resv (updRadio (fun r => { r with held := none, lbtPhase := 0 }) s) else s
  | none => s

/-- R326: OUTCOME of TIMING_BEACON for an outcome of R279. -/
def beaconOutcome (f : Flight) (outcome : Nat) : Nat := if outcome = 0 then (if f.ar then 0 else 1) else 2

/-- A frame in flight ends: its cells are freed, its counters move, and whoever waits for it is told. -/
def endFlight (id outcome : Nat) (tcorr : Int) (s : State) : State :=
  match flightOf s id with
  | none => s
  | some f =>
    let s1 := releaseCells f.cells (dropFlight id (unhold id s))
    let s2 := updRadio (fun r => { r with awaiting := if r.awaiting = some id then none else r.awaiting }) s1
    let s3 := linkStat (countOutcome outcome) s2
    let s4 := match f.nbr with
      | some i => if outcome = 0 ∧ f.ar then updNbr i (fun e => { e with txOk := inc16 e.txOk }) s3
        else if outcome = 1 then updNbr i (fun e => { e with txFail := inc16 e.txFail }) s3 else s3
      | none => s3
    match f.kind with
    | .packet q notify => if notify then txDone (f.nbr.getD 0xFFFF) f.seq outcome f.attempts q s4 else s4
    | .beacon slot => complete slot (if outcome = 2 then stKEYEXH else 0) 0 (le 1 (beaconOutcome f outcome) ++ le 3 0 ++ lei 4 tcorr) s4
    | .joinReply slot => complete slot 0 0 (le 1 (beaconOutcome f outcome) ++ le 3 0) s4
    | _ => s4

/-- R326: TIMING_BEACON ends because the tally refused it (3) or it was late (4). -/
def endBeacon (id code : Nat) (s : State) : State :=
  match flightOf s id with
  | none => s
  | some f =>
    let s1 := releaseCells f.cells (dropFlight id (unhold id s))
    match f.kind with
    | .beacon slot => complete slot 0 0 (le 1 code ++ le 3 0 ++ lei 4 tcorrNone) s1
    | _ => s1

/-- R263, R279: frames to a neighbour that is FREE or LOST end with NH_DOWN; a beacon may go to a LOST one (R319). -/
def nbrDown (i : Nat) (s : State) : State :=
  let lost : Bool := (nbrOf s i).state == .lost
  (s.link.flight.filter (fun f => f.nbr == some i && !(lost && (match f.kind with | .beacon _ => true | _ => false)))).foldl
    (fun a f => endFlight f.id 4 tcorrNone a) s

/-! ### Placing and securing (R263, R275, R311) -/

/-- R311: a frame is placed in its neighbour's next rendezvous, number `least` or later. -/
def placeFrom (least id : Nat) (s : State) : State :=
  match flightOf s id with
  | none => s
  | some f =>
    let x := nbrSched (nbrOf s (f.nbr.getD 0))
    match nextRdv s x with
    | none => updFlight id (fun f => { f with phase := .ready s.clk.mtime }) s
    | some k0 =>
      let k := max k0 least
      updFlight id (fun f => { f with phase := .window (mtAdd (x.centre k) (-(leadTicks (profileOf s f.profile) : Nat))), rdv := some k, tune := x.tune s k }) s

def placeWindow (id : Nat) (s : State) : State := placeFrom 0 id s

/-- A secured frame waits for its window, for its neighbour, or for the radio. -/
def readyFlight (id : Nat) (s : State) : State :=
  match flightOf s id with
  | none => s
  | some f =>
    let held : Bool := f.kind != .resyncBeacon && (match f.nbr with | some i => (nbrOf s i).state == .resync | none => false)
    if held then updFlight id (fun f => { f with phase := .resync }) s
    else if f.windowed then placeWindow id s
    else updFlight id (fun f => { f with phase := .ready s.clk.mtime }) s

/-- R417, R418, R427: the frame's COUNTER is drawn; it waits, or is refused with outcome 2. -/
def secureFlight (id : Nat) (s : State) : State :=
  match flightOf s id with
  | none => s
  | some f =>
    match f.keySlot, f.counter with
    | some k, none =>
      if quiescing s 0x0A then updFlight id (fun f => { f with phase := .securing }) s
      else
        match drawFC k s with
        | (t, .wait) => updFlight id (fun f => { f with phase := .securing }) t
        | (t, .refuse) => endFlight id 2 tcorrNone t
        | (t, .value c) =>
          readyFlight id (updFlight id (fun f => { f with counter := some c, key := (slotOf s k).key })
            (cipherStat (fun x => { x with secured := inc32 x.secured }) (maskUse (2 * (f.head.length + f.body.length)) t)))
    | _, _ => readyFlight id s

/-- R311: a neighbour's schedule changed: frames that wait for its windows move. -/
def replaceWindows (i : Nat) (s : State) : State :=
  (s.link.flight.filter (fun f => f.nbr == some i && (match f.phase with | .window _ => true | _ => false))).foldl (fun a f => placeWindow f.id a) s

/-! ### Failed attempts (R278, R279, R312, R316, R317) -/

/-- Attempts a frame may use. -/
def maxAttempts (s : State) (f : Flight) : Nat :=
  match f.kind with
  | .packet _ _ => s.link.cfg.maxRetries + 1
  | .joinReply _ => if f.ar then s.link.cfg.maxRetries + 1 else 1
  | _ => 1

/-- R278: the wait before a retry, drawn from the engine's generator: a free value within its bounds. -/
def backoffFlight (id : Nat) (f : Flight) (s : State) : State :=
  let bound := min (s.link.cfg.boBaseUs * 2 ^ (f.attempts - 1)) (s.link.cfg.boMaxMs * 1000)
  let r := fresh (genUse s)
  updFlight id (fun f => { f with phase := .backoff (mtAdd s.clk.mtime (usTicks (r.1 % (bound + 1)) : Nat)) }) r.2

/-- R317: the neighbour's third missed rendezvous starts a resynchronisation; frames in flight to it are held. -/
def missRdv (i : Nat) (s : State) : State :=
  let s1 := timingStat (fun x => { x with rdvMissed := inc32 x.rdvMissed }) (updNbr i (fun e => { e with miss := min 15 (e.miss + 1) }) s)
  if 3 ≤ (nbrOf s1 i).miss ∧ (nbrOf s1 i).state = .active then
    let s2 := resyncStart i none s1
    updLink (fun l => { l with flight := l.flight.map (fun f =>
      match f.phase with
      | .window _ => if f.nbr = some i then { f with phase := .resync } else f
      | _ => f) }) s2
  else s1

/-- R312: a window transmission moves to the next rendezvous without using an attempt. -/
def deferRdv (id : Nat) (s : State) : State :=
  let least := match flightOf s id with | some f => (match f.rdv with | some k => k + 1 | none => 0) | none => 0
  placeFrom least id (timingStat (fun x => { x with rdvDeferred := inc32 x.rdvDeferred }) s)

/-- R312: the transmission would overlap an own window, which goes first. -/
def ownOverlap (s : State) (start us : Nat) : Bool :=
  let lap (ck guard : Nat) : Bool :=
    mtLater (mtAdd ck (usTicks guard : Nat)) start && mtLater (mtAdd start (usTicks us : Nat)) (mtAdd ck (-(usTicks (guard + detectUs s) : Nat) : Int))
  s.pwr.mode == .leaf &&
    ((match s.timing.window with | some w => lap w.ck w.guardUs | none => false) ||
     (match ownNext s with | some k => let ck := (ownSched s).centre k; lap ck (guardUs s (timeSource s) ck) | none => false))

/-- An attempt has failed: no acknowledgement, a wrong one, or (`late`) TX_LATE. -/
def attemptFailed (id : Nat) (late : Bool) (s : State) : State :=
  match flightOf s id with
  | none => s
  | some f =>
    let s0 := updRadio (fun r => { r with awaiting := if r.awaiting = some id then none else r.awaiting }) s
    let s1 := if late then linkStat (fun x => { x with txLate := inc32 x.txLate }) s0 else s0
    let nbr := f.nbr.getD 0
    match f.kind with
    | .resyncBeacon =>
      if late then resyncPostpone nbr 4 (endBeacon id 4 s1)
      else
        let s2 := resyncFailed nbr (endFlight id 1 tcorrNone s1)
        if (nbrOf s2 nbr).state = .lost then nbrDown nbr s2 else s2
    | _ =>
      if late ∧ f.windowed then deferRdv id (updFlight id (fun f => { f with attempts := f.attempts - 1 }) s1)
      else if late && (match f.kind with | .beacon _ => true | _ => false) then endBeacon id 4 s1
      else
        let s2 := if f.windowed then missRdv nbr s1 else s1
        if maxAttempts s f ≤ f.attempts then endFlight id 1 tcorrNone s2
        else if f.windowed then readyFlight id s2
        else backoffFlight id f s2

/-! ### The network core's own frames (R301, R367) -/

/-- A frame the network core originates takes its cells from the pool, and waits to be taken; none when the pool is too low. -/
def originate (kind : FlightKind) (nbr : Option Nat) (head body : List Byte) (keySlot : Option Nat) (seq : Nat) (ar timed : Bool)
    (profile tune : Nat) (windowed : Bool) (s : State) : Option State :=
  let n := cellsFor (8 + body.length)
  if freeCells s < n then none
  else
    let r := allocCells n s
    let f : Flight := { id := s.link.nextId, kind := kind, phase := .origin, nbr := nbr, cells := r.2, head := head, body := body,
                        keySlot := keySlot, counter := none, key := [], psdu := [], seq := seq, ar := ar, timed := timed, ret := 0, profile := profile,
                        tune := tune, attempts := 0, begun := false, windowed := windowed, rdv := none, flow := none }
    some (updLink (fun l => { l with flight := l.flight ++ [f], nextId := l.nextId + 1 }) r.1)

/-- R301: a beacon's payload; `tx` is the MTIME at which its SFD ends. -/
def beaconBody (s : State) (tx : Nat) : List Byte :=
  let c := s.timing.cfg
  le 1 0x10 ++ le 1 (b2n s.clk.sync + 2 * b2n (bit c.flags 0)) ++ le 2 0 ++ le 8 tx ++ le 4 (if c.ownPeriod = 0 then 0 else c.ownPeriod + 2 ^ 24 * c.ownChseq) ++
    le 4 c.ownOffset

/-- A TIME_BEACON to an entry, or to every neighbour (R301, R316, R317, R326). -/
def beaconTo (kind : FlightKind) (nbr : Option Nat) (tune : Nat) (windowed : Bool) (s : State) : Option State :=
  let src := srcField s
  let sam : Bool := !ownAssigned s
  match nbr with
  | some i =>
    let e := nbrOf s i
    let ext : Bool := e.short == unassigned
    let sec : Bool := e.txKey != 0xFF
    (originate kind (some i) (frameHead (frameFc 2 sec true ext sam false s.link.cfg.micLen true) e.txSeq s.link.cfg.net (if ext then e.eui64 else le 4 e.short) src)
      (beaconBody s 0) (if sec then some e.txKey else none) e.txSeq true true e.profile tune windowed s).map
      (updNbr i (fun e => { e with txSeq := (e.txSeq + 1) % 4096 }))
  | none =>
    let b := s.link.cfg.bcastKey
    let sec : Bool := b != 0xFF
    (originate kind none (frameHead (frameFc 2 sec false false sam false s.link.cfg.micLen true) s.link.bcastSeq s.link.cfg.net (le 4 broadcast) src)
      (beaconBody s 0) (if sec then some b else none) s.link.bcastSeq false true s.link.cfg.bcastProfile tune false s).map
      (updLink (fun l => { l with bcastSeq := (l.bcastSeq + 1) % 4096 }))

/-! ### The settings of the link (R288, R289, R291) -/

/-- R289: an entry becomes FREE. -/
def freeNbr (i : Nat) (s : State) : State :=
  let s1 := resyncComplete i 2 tcorrNone s
  nbrDown i (putSync i .zero (dropResync i (putNbr i .blank s1)))

/-- R288: the configuration that a request spells. -/
def linkCfgOf (p : List Byte) : LinkCfg :=
  { ownShort := u32 p 0, net := u8 p 4, maxRetries := u8 p 5, joinOpen := u8 p 6, bcastProfile := u8 p 7, boBaseUs := u16 p 8, boMaxMs := u16 p 10,
    rxQueue := u16 p 12, unroutedQueue := u16 p 14, bcastKey := u8 p 16, micLen := u8 p 17, pendHoldMs := u16 p 18,
    groups := (List.range 8).map (fun i => u32 p (20 + 4 * i)) }

/-- R289: the entry that a request gives, the fields that MASK selects. -/
def nbrSetOf (old : Nbr) (mask : Nat) (x : List Byte) : Nbr :=
  let on (b : Nat) : Bool := mask.testBit b
  let f := BitVec.ofNat 8 (u8 x 13)
  let e1 := { old with short := if on 0 then u32 x 0 else old.short, eui64 := if on 1 then slice x 4 8 else old.eui64,
                       state := if on 2 then (if u8 x 12 = 1 then .active else .free) else old.state,
                       flags := (if on 3 then (old.flags &&& 0xB0) ||| (f &&& 0x4F) else old.flags),
                       lq := if on 4 then u8 x 14 else old.lq, profile := if on 5 then u8 x 15 else old.profile,
                       txKey := if on 6 then u8 x 16 else old.txKey, queue := if on 7 then u16 x 28 else old.queue,
                       rdvPeriod := if on 8 then u32 x 44 else old.rdvPeriod, rdvOffset := if on 8 then u32 x 48 else old.rdvOffset,
                       txSeq := if on 9 then u16 x 20 else old.txSeq }
  let e2 := if on 10 then { e1 with rxKey := u8 x 17, rxKeyPrev := 0xFF, hwmValid := false, prevValid := false, dupWin := [], bitmap := 0, lastAck := 0 } else e1
  let e3 := if on 11 then { e2 with flags := (e2.flags &&& 0xCF) ||| (f &&& 0x30) } else e2
  let e4 := if on 12 then { e3 with rxOk := 0, txOk := 0, txFail := 0, retries := 0 } else e3
  if e4.state = .free then .blank else e4

/-- R289: an entry is written. -/
def installNbr (i mask : Nat) (x : List Byte) (s : State) : State :=
  let old := nbrOf s i
  let e := nbrSetOf old mask x
  if e.state = .free then freeNbr i s
  else
    let s1 := putNbr i e s
    let s2 := if old.state = .free ∨ (old.state = .lost ∧ e.state = .active) then putSync i .zero s1 else s1
    let s3 := if old.state = .resync ∧ e.state = .active then dropResync i (resyncComplete i 2 tcorrNone s2) else s2
    if mask.testBit 8 then replaceWindows i s3 else s3

def routeSetOf (p : List Byte) : Route := { valid := u8 p 4, size := u8 p 5, hopLimit := u8 p 6, base := u32 p 8, nextHop := u16 p 12 }

/-- A setting of the link takes effect. -/
def applyLinkSet (op : Nat) (p : List Byte) (s : State) : State :=
  match op with
  | 0x0501 => updLink (fun l => { l with cfg := linkCfgOf p }) s
  | 0x0510 => installNbr (u16 p 0) (u32 p 4) (slice p 8 64) s
  | _ =>
    if u16 p 0 = 0xFFFF then updLink (fun l => { l with parent := routeSetOf p }) s
    else updLink (fun l => { l with route := tset Route.blank (u16 p 0) (routeSetOf p) l.route }) s

/-- R287: settings that waited for the end of a frame exchange. -/
def applyDeferred (s : State) : State :=
  if exchange s then s
  else s.link.deferred.foldl (fun a d => applyLinkSet d.1 d.2 a) (updLink (fun l => { l with deferred := [] }) s)

/-! ### Handing frames to the radio (R127, R278, R312, R340, R342, R383) -/

/-- PSDU octets of a frame in flight. -/
def flightOctets (f : Flight) : Nat :=
  f.head.length + f.body.length + (if f.keySlot.isSome then 5 + 4 * 2 ^ bits (u16 f.head 0) 8 2 else 0) + 4

def flightUs (s : State) (f : Flight) : Nat := predictUs s f.profile (flightOctets f)

/-- R342, R397: the tally refused a frame in flight. -/
def refusedFlight (f : Flight) (band : Option Nat) (us since : Nat) (s : State) : State :=
  let s1 := match f.flow, f.attempts with
    | some i, 0 =>
      schedStat (fun x => { x with refusedInflight := inc32 x.refusedInflight })
        (putFlow i { flowOf s i with refReason := 4, refBand := band.getD 0xFF, refUs := us, refMtime := s.clk.mtime } s)
    | _, _ => s
  match f.kind with
  | .resyncBeacon => resyncPostpone (f.nbr.getD 0) 3 (endBeacon f.id 3 s1)
  | .beacon _ => if f.windowed then deferRdv f.id s1 else endBeacon f.id 3 s1
  | _ =>
    if f.windowed then deferRdv f.id s1
    else updFlight f.id (fun f => { f with phase := .refused since }) s1

/-- A frame is offered to the tally and, when it fits, handed to the radio. -/
def submitFlight (f : Flight) (timed : Option Nat) (since : Nat) (s : State) : State :=
  if (profileOf s f.profile).phy = 0 then endFlight f.id 3 tcorrNone s
  else
    let us := flightUs s f
    match tallyTake (tuneExact f.tune) us false s with
    | (t, b, none) => refusedFlight f b us since t
    | (t, _, some resv) =>
      radioSubmit { who := .frame f.id, timed := timed, tune := f.tune, carrier := tuneExact f.tune, power := none, ant := txAntenna s f.nbr, us := us,
                    ar := f.ar, ret := f.ret, resv := resv, lbt := 0 }
        (updFlight f.id (fun f => { f with phase := .radio, attempts := f.attempts + 1 }) t)

/-- R246, R317: a wake send is offered to the tally and, when it fits, handed to the radio. -/
def submitWake (w : WakeSend) (s : State) : State :=
  match tallyTake (tuneExact (hzTune w.hz)) (28000 * w.rep) false s with
  | (t, b, none) =>
    let t1 := wakeDone w stBUDGET (b.getD 0xFF) 0 t
    (match w.resync with | some i => resyncPostpone i 3 t1 | none => t1)
  | (t, _, some resv) => radioSubmit (wakeTx s w resv) (updCanary (fun c => { c with send := some { w with submitted := true } }) t)

/-- R269, R312, R383: a transmission the radio holds and has not begun gives way; its reservation is released. -/
def unsubmit (s : State) : State :=
  match s.radio.held with
  | none => s
  | some q =>
    let s1 := tallyRelease q.resv (updRadio (fun r => { r with held := none, lbtPhase := 0 }) s)
    match q.who with
    | .frame id =>
      updFlight id (fun f => { f with attempts := f.attempts - 1, phase := match q.timed with | some t => .window t | none => .ready 0 }) s1
    | .wake => updCanary (fun c => { c with send := c.send.map (fun w => { w with submitted := false }) }) s1
    | _ => s1

/-- What may be handed to the radio next: rank, order within the rank, neighbour, frame and its start. -/
structure Offer where
  rank : Nat
  order : Nat
  nbr : Nat
  flight : Flight
  timed : Option Nat
  deriving DecidableEq, Repr

def Offer.before (a b : Offer) : Bool :=
  decide (a.rank < b.rank) || (a.rank == b.rank && (decide (a.order < b.order) || (a.order == b.order && decide (a.nbr < b.nbr))))

/-- R383: how a frame in flight stands for the radio now. -/
def offerOf (s : State) (f : Flight) : Option Offer :=
  let first : Bool := f.attempts == 0
  let origin : Bool := match f.kind with | .packet _ _ => false | _ => true
  let untimed (since : Nat) : Offer :=
    if first then ⟨if origin then 3 else 4, f.id, 0, f, none⟩ else ⟨2, since, f.nbr.getD 0, f, none⟩
  match f.phase with
  | .window t => if mtReached (mtAdd t (-(ms2 : Int))) s.clk.mtime then some ⟨0, t, f.nbr.getD 0, f, some t⟩ else none
  | .ready since => some (untimed since)
  | .refused since => if (judge s (tuneExact f.tune) (flightUs s f) false).2 then some (untimed since) else none
  | _ => none

/-- The offer that goes first. -/
def bestOffer (s : State) : Option Offer :=
  s.link.flight.foldl (fun a f =>
    match offerOf s f, a with
    | none, _ => a
    | some o, none => some o
    | some o, some b => if o.before b then some o else some b) none

/-- A wake send that waits for the radio and whose time has come. -/
def wakeDue (s : State) : Option WakeSend :=
  match s.canary.send with
  | some w => if !w.submitted && (w.whenAt == 0 || mtReached (mtAdd w.whenAt (-(ms2 : Int))) s.clk.mtime) then some w else none
  | none => none

/-- R383: an offer in a rendezvous window takes the place of an untimed transmission that the radio has not begun, but for an acknowledgement. -/
def takeBack (window : Bool) (s : State) : State :=
  match s.radio.held with
  | some q => if window && q.timed.isNone && (match q.who with | .ack _ => false | _ => true) then unsubmit s else s
  | none => s

/-- R127, R383: the radio is given what goes next, while it can accept it. -/
def linkSubmit : Nat → State → State
  | 0, s => s
  | n + 1, s =>
    let o := bestOffer s
    let window : Bool := match o with | some x => x.rank == 0 | none => false
    let s := takeBack window s
    if !radioFree s || !linkModes s || !working s 5 || !working s 2 then s
    else if window then (match o with
      | some x => linkSubmit n (if ownOverlap s x.order (flightUs s x.flight) then deferRdv x.flight.id s else submitFlight x.flight x.timed x.order s)
      | none => s)
    else match wakeDue s, o with
      | some w, _ => if quiescing s 4 then s else linkSubmit n (submitWake w s)
      | none, some x => linkSubmit n (submitFlight x.flight x.timed x.order s)
      | none, none => s

/-! ### Advancing what waits -/

/-- R383: the network core's own frames are taken first, in order. -/
def takeOrigin (s : State) (f : Flight) : State :=
  if f.phase ≠ .origin ∨ atLimit s ∨ !releasing s then s
  else
    let e := nbrOf s (f.nbr.getD 0)
    let beacon : Bool := match f.kind with | .beacon _ => true | .resyncBeacon => true | _ => false
    if f.nbr.isSome ∧ (e.state = .free ∨ (e.state = .lost ∧ !beacon)) then endFlight f.id 4 tcorrNone s
    else if (match f.nbr with | some i => nbrBusy s i && f.kind != .resyncBeacon | none => false) || (!f.windowed && !gateOpen s) then s
    else secureFlight f.id (schedStat (fun x => { x with relOrigin := inc32 x.relOrigin }) s)

/-- Frames that wait for securing, or for their neighbour to leave RESYNC, are looked at again. -/
def wakeFlight (s : State) (f : Flight) : State :=
  match f.phase with
  | .securing => secureFlight f.id s
  | .resync => if (nbrOf s (f.nbr.getD 0)).state = .active then readyFlight f.id s else s
  | _ => s

/-- R317: a resynchronisation wake that is due takes the canary's sender. -/
def resyncWake (s : State) : State :=
  if s.canary.send.isSome ∨ !linkModes s then s
  else match s.timing.resync.find? (fun r => r.stage == 1) with
    | none => s
    | some r =>
      updCanary (fun c => { c with send := some { slot := none, resync := some r.nbr, address := (nbrOf s r.nbr).short, group := 0, rep := s.timing.cfg.resyncRepeat,
                                                  hz := wakeHz s s.timing.cfg.resyncWakeHz, power := none, ant := 0, whenAt := 0, submitted := false, start := none } }) s

/-- Everything the link controller can now do without waiting: settings, securing, taking, handing to the radio, and the flows'
blocking states. -/
def linkKick (s : State) : State :=
  let s1 := applyDeferred s
  let s2 := s1.link.flight.foldl wakeFlight s1
  let s3 := s2.link.flight.foldl takeOrigin s2
  radioKick (schedScan (calRefresh (linkSubmit 300 (resyncWake s3))))

end Sys2Proof.Machine
end

