-- ==== Sys2Proof/Machine/LinkRx.lean ====
section
/-! DEFINITION. Receiving: the steps of R267, acknowledgements, delivery, forwarding, joining and beacons (R259 to R273, R281 to R286,
R301, R304, R305, R315, R318, R319). -/

namespace Sys2Proof.Machine

/-! ### Reading a frame (R253 to R261) -/

/-- The fields of a data or command frame. -/
structure Rxf where
  type : Nat
  sec : Bool
  ar : Bool
  dam : Bool
  sam : Bool
  mesh : Bool
  micLen : Nat
  timed : Bool
  pend : Bool
  seq : Nat
  net : Nat
  dst : List Byte
  src : List Byte
  hops : Nat
  final : Nat
  origin : Nat
  slot : Nat
  counter : Nat
  aad : List Byte
  /-- payload as received -/ payload : List Byte
  mic : List Byte
  deriving DecidableEq, Repr

def isAckFrame (psdu : List Byte) : Bool := u16 psdu 0 % 8 == 1

/-- R260, R261: a CMD payload is well formed. -/
def cmdOk (p : List Byte) : Bool :=
  let n := p.length
  let id := u8 p 0
  if n = 0 then false
  else if id = 1 then decide (8 ≤ n) && decide (u8 p 2 ≤ 32) && decide (8 + u8 p 2 ≤ n)
  else if id = 2 then decide (20 ≤ n) && decide (u8 p 16 ≤ 64) && decide (20 + u8 p 16 ≤ n)
  else if id = 0x10 then
    decide (20 ≤ n) && decide (u8 p 15 ≤ 15) && (u32 p 12 % 2 ^ 24 == 0 || decide (u32 p 16 * 256000 < u32 p 12 % 2 ^ 24 * 2 ^ 24))
  else decide (0x10 ≤ id ∧ id ≤ 0x1F) || decide (0x80 ≤ id)

/-- R261: the format of a received frame; none when it is BAD_FRAME. A secured CMD payload is checked after its MIC. -/
def parseFrame (psdu : List Byte) : Option Rxf :=
  let n := psdu.length - 4
  let fc := u16 psdu 0
  let type := fc % 8
  let sec := fc.testBit 3
  let dam := fc.testBit 5
  let sam := fc.testBit 6
  let mesh := fc.testBit 7
  let micLen := bits fc 8 2
  let dl := if dam then 8 else 4
  let sl := if sam then 8 else 4
  let dst := slice psdu 4 dl
  let src := slice psdu (4 + dl) sl
  let m := 4 + dl + sl
  let h := m + (if mesh then 9 else 0)
  let a := h + (if sec then 5 else 0)
  let mic := if sec then 4 * 2 ^ micLen else 0
  let d := unle dst
  let f : Rxf := { type := type, sec := sec, ar := fc.testBit 4, dam := dam, sam := sam, mesh := mesh, micLen := micLen, timed := fc.testBit 10,
                   pend := fc.testBit 11, seq := u16 psdu 2 % 4096, net := u16 psdu 2 / 4096, dst := dst, src := src, hops := u8 psdu m,
                   final := u32 psdu (m + 1), origin := u32 psdu (m + 5), slot := u8 psdu h, counter := u32 psdu (h + 1), aad := psdu.take a,
                   payload := slice psdu a (n - mic - a), mic := slice psdu (n - mic) mic }
  let ok := decide (8 ≤ psdu.length) && (type == 0 || type == 2) && micLen != 3 && (sec || micLen == 0) && decide (fc / 2 ^ 12 = 0) &&
    !(mesh && (dam || sam)) && decide (a + mic ≤ n) && (dam || decide (d < 2 ^ 25)) && (sam || decide (unle src < 2 ^ 25)) &&
    (!mesh || (decide (f.hops < 64) && decide (f.final < 2 ^ 25) && decide (f.origin < 2 ^ 25) && !(isGroup d || d == broadcast))) &&
    (sec || type != 2 || cmdOk f.payload)
  if ok then some f else none

/-- The frame goes to one node. -/
def Rxf.unicast (f : Rxf) : Bool := f.dam || !(isGroup (unle f.dst) || unle f.dst == broadcast)

/-- R285: an unsecured JOIN_REQ that a node with JOIN_OPEN accepts. -/
def joinReqOk (s : State) (f : Rxf) : Bool := !f.sec && f.type == 2 && u8 f.payload 0 == 1 && f.sam && s.link.cfg.joinOpen == 1

/-- R284: an unsecured JOIN_REPLY to the own EUI-64 whose TOKEN matches the running join. -/
def joinReplyOk (s : State) (f : Rxf) : Bool :=
  !f.sec && f.type == 2 && u8 f.payload 0 == 2 && f.sam && f.dam && f.dst == s.dev.eui64 &&
    (match s.link.join with | some j => u32 f.payload 4 == j.token | none => false)

/-- R267 step 5. -/
def forMe (s : State) (f : Rxf) : Bool :=
  if f.dam then f.dst == s.dev.eui64
  else (unle f.dst == s.link.cfg.ownShort && ownAssigned s) || unle f.dst == broadcast || subscribed s (unle f.dst)

/-- R267 step 6: the source's entry. -/
def sourceOf (s : State) (f : Rxf) : Option Nat :=
  if f.sam then findEui s f.src else if assignable (unle f.src) then findShort s (unle f.src) else none

/-- R272: COUNTER passes the replay window. -/
def replayOk (e : Nbr) (slot c : Nat) : Bool :=
  if slot = e.rxKey ∧ e.hwmValid then
    decide (e.hwm < c) || (decide (e.hwm ≤ c + 16) && decide (c < e.hwm) && !bit e.bitmap (e.hwm - 1 - c))
  else if slot = e.rxKeyPrev ∧ e.prevValid then decide (e.hwmPrev < c)
  else true

/-- R272: the replay state after the MIC has passed. -/
def replayUpdate (e : Nbr) (slot c : Nat) : Nbr :=
  if slot = e.rxKey ∧ e.hwmValid then
    if e.hwm < c then
      let d := c - e.hwm
      { e with bitmap := if 17 ≤ d then 0 else (e.bitmap <<< d) ||| BitVec.ofNat 16 (2 ^ (d - 1)), hwm := c }
    else setBit e.bitmap (e.hwm - 1 - c) true |> fun b => { e with bitmap := b }
  else if slot = e.rxKeyPrev ∧ e.prevValid then { e with hwmPrev := c }
  else { e with rxKeyPrev := e.rxKey, hwmPrev := e.hwm, prevValid := e.hwmValid, rxKey := slot, hwm := c, bitmap := 0, hwmValid := true }

/-- R265: q of a frame with this SNR, in 0.25 dB. -/
def linkQuality (snr : Int) : Nat := (clampI 0 255 (40 + snr / 2)).toNat

/-- R265, R271: what a delivered or forwarded frame changes in its source's entry. -/
def countReceived (x : RxFrame) (f : Rxf) (s : State) : State :=
  match x.nbr with
  | none => s
  | some i =>
    updNbr i (fun e =>
      let q := linkQuality x.quality.snr
      let lq := if e.rxOk = 0 ∧ e.lq = 0 then q else (7 * e.lq + q + 4) / 8
      let e1 := { e with lq := lq, flags := setBit (setBit e.flags 4 (x.quality.flags.testBit 0)) 5 true, rxOk := inc16 e.rxOk }
      let e2 := if f.unicast then { e1 with dupWin := (f.seq :: e1.dupWin).take 4 } else e1
      if f.sec then replayUpdate e2 f.slot f.counter else e2) s

/-! ### Received frames as they are held -/

def rxOf (s : State) (id : Nat) : Option RxFrame := s.link.rx.find? (fun x => x.id == id)

/-- R114: the acknowledgement owed first. -/
def owedRefresh (s : State) : State :=
  updRadio (fun r => { r with owed := (s.link.rx.find? (fun x => decide (x.ack ≠ .none))).map (fun x => x.id) }) s

def updRx (id : Nat) (g : RxFrame → RxFrame) (s : State) : State :=
  owedRefresh (updLink (fun l => { l with rx := l.rx.map (fun x => if x.id = id then g x else x) }) s)

/-- The frame is done with: its cells are freed; it is kept only while its acknowledgement is due or on its way. -/
def closeRx (id : Nat) (s : State) : State :=
  match rxOf s id with
  | none => s
  | some x =>
    let s1 := releaseCells x.cells s
    if x.ack = .none then owedRefresh (updLink (fun l => { l with rx := l.rx.filter (fun y => y.id != id) }) s1)
    else updRx id (fun y => { y with phase := .closed, cells := [] }) s1

/-- R297: a drop of the forwarding path is remembered for LINK_DROP. -/
def noteDrop (g : DropAcc → DropAcc) (f : Rxf) (s : State) : State :=
  updLink (fun l => { l with drop := { g l.drop with lastFinalDst := if f.mesh then f.final else l.drop.lastFinalDst } }) s

/-! ### Delivery and forwarding (R274, R281, R282) -/

/-- R274: the octets a delivered frame begins with. -/
def rxDescriptor (x : RxFrame) (f : Rxf) (bodyLen : Nat) : List Byte :=
  le 2 (x.nbr.getD 0xFFFF) ++ le 2 (bodyLen % 2048 + 2048 * b2n f.sec + 4096 * b2n f.mesh + 8192 * b2n (!f.unicast) + 16384 * b2n f.sam) ++
    le 1 x.lane ++ le 1 (linkQuality x.quality.snr) ++ le 2 (f.seq + 4096 * f.type)

/-- The mesh header as octets. -/
def meshHeader (hops final origin : Nat) : List Byte := le 1 hops ++ le 4 final ++ le 4 origin

/-- A frame's cells are linked into a queue as a packet; cells it no longer needs are freed. None when the queue refuses. -/
def enqueueFrame (x : RxFrame) (q : Nat) (bytes : List Byte) (s : State) : Option State :=
  let n := cellsFor bytes.length
  if !queuePresent s q || (queueOf s q).broken || !admitsLinked s q n then none
  else
    let s1 := releaseCells (x.cells.drop n) (updRx x.id (fun y => { y with cells := [] }) s)
    some (linkPacket q { cells := x.cells.take n, bytes := bytes, ue := false } s1)

/-- R282: a frame is delivered to a queue; a queue that refuses it counts RX_QFULL. -/
def deliverTo (q : Nat) (unrouted : Bool) (x : RxFrame) (f : Rxf) (payload : List Byte) (s : State) : State :=
  let body := (if f.mesh then meshHeader f.hops f.final f.origin else []) ++ payload
  match enqueueFrame x q (rxDescriptor x f body.length ++ body) s with
  | none => noteDrop (fun d => { d with rxQfull := inc16 d.rxQfull }) f (linkStat (fun c => { c with rxQfull := inc32 c.rxQfull }) s)
  | some t =>
    let t1 := countReceived x f t
    if unrouted then noteDrop (fun d => { d with noRoute := inc16 d.noRoute }) f (linkStat (fun c => { c with noRoute := inc32 c.noRoute }) t1)
    else linkStat (fun c => { c with rxDelivered := inc32 c.rxDelivered }) t1

/-- R282: a frame goes on toward its final destination. -/
def forwardFrame (x : RxFrame) (f : Rxf) (payload : List Byte) (s : State) : State :=
  let drop (g : DropAcc → DropAcc) (c : LinkStats → LinkStats) : State := noteDrop g f (linkStat c s)
  if !(s.pwr.mode == .relay || s.pwr.mode == .wide) || !ownAssigned s then
    drop (fun d => { d with fwdOff := inc16 d.fwdOff }) (fun c => { c with fwdOff := inc32 c.fwdOff })
  else if f.hops = 0 then drop (fun d => { d with hopsExpired := inc16 d.hopsExpired }) (fun c => { c with hopsExpired := inc32 c.hopsExpired })
  else match (lookup s f.final).route with
    | none => deliverTo s.link.cfg.unroutedQueue true x f payload s
    | some r =>
      let e := nbrOf s r.nextHop
      if !nbrUp e then drop (fun d => { d with nhDown := inc16 d.nhDown }) (fun c => { c with nhDown := inc32 c.nhDown })
      else
        let body := meshHeader (f.hops - 1) f.final f.origin ++ payload
        match enqueueFrame x e.queue (le 2 r.nextHop ++ le 2 (body.length % 2048 + 2048 * b2n f.ar + 4096) ++ le 4 0 ++ body) s with
        | none => drop (fun d => { d with fwdQfull := inc16 d.fwdQfull }) (fun c => { c with fwdQfull := inc32 c.fwdQfull })
        | some t => linkStat (fun c => { c with rxForwarded := inc32 c.rxForwarded }) (countReceived x f t)

/-! ### Joining (R284, R285) -/

/-- R285: a JOIN_REQ is reported, once in 10 s for one EUI-64 and TOKEN. -/
def joinReported (x : RxFrame) (f : Rxf) (payload : List Byte) (s : State) : State :=
  let token := u32 payload 4
  let recent (m : List Byte × Nat × Nat) : Bool := mtLater (mtAdd m.2.2 (10 * 2 ^ 24 : Nat)) s.clk.mtime
  if s.link.joinSeen.any (fun m => m.1 == f.src && m.2.1 == token && recent m) then s
  else
    let n := u8 payload 2
    raise 0x8560 (f.src ++ le 4 token ++ le 1 (u8 payload 1) ++ le 1 f.net ++ le 1 x.lane ++ le 1 n ++ lei 2 x.quality.rssi ++ lei 2 x.quality.snr ++ slice payload 8 n)
      (updLink (fun l => { l with joinSeen := (f.src, token, s.clk.mtime) :: l.joinSeen.filter (fun m => recent m && !(m.1 == f.src && m.2.1 == token)) }) s)

/-- R284, R293: the join ends; `r` holds the RESULT of its completion event. -/
def joinEnd (r : List Byte) (s : State) : State :=
  match s.link.join with
  | none => s
  | some j =>
    let s1 := (s.link.flight.filter (fun f => f.kind == .joinReq && decide (f.phase = .origin))).foldl (fun a f => releaseCells f.cells (dropFlight f.id a)) s
    complete j.slot 0 0 r (updLink (fun l => { l with join := none }) s1)

/-- R284: a matching JOIN_REPLY. -/
def joinReplied (f : Rxf) (p : List Byte) (s : State) : State :=
  let ok : Bool := u8 p 1 == 0
  let short := u32 p 8
  let parent := u32 p 12
  let n := u8 p 16
  let result := le 1 (b2n (!ok)) ++ le 1 (u8 p 2) ++ le 1 (u8 p 3) ++ le 1 n ++ le 4 short ++ le 4 parent ++ f.src ++ slice p 20 n
  let s1 := joinEnd result s
  if !ok then s1
  else
    let others := (s.link.nbr.filter (fun e => decide (e.2.state ≠ .free) && (e.1 == 0 || e.2.eui64 == f.src || e.2.short == parent))).map Prod.fst
    let s2 := others.foldl (fun a i => freeNbr i a) s1
    let entry : Nbr := { Nbr.blank with state := .active, flags := 1, short := parent, eui64 := f.src, profile := s.link.cfg.bcastProfile }
    let s3 := putSync 0 .zero (putNbr 0 entry s2)
    updLink (fun l => { l with cfg := { l.cfg with ownShort := short, net := u8 p 2 % 16 },
                               parent := { valid := 1, size := 0, hopLimit := u8 p 3, base := 0, nextHop := 0 } }) s3

/-! ### Timing (R301, R304 to R306, R315, R318, R319) -/

/-- R304: the expected stamp of a TIMED frame, its payload in clear. -/
def expectedStamp (x : RxFrame) (f : Rxf) (payload : List Byte) : Option Nat :=
  if !f.timed then none
  else if f.type = 2 ∧ u8 payload 0 = 0x10 then some (u64 payload 4 % mtMod)
  else x.window

/-- A signed difference of two times. -/
def mtDiff (a b : Nat) : Int := signed 56 ((a + mtMod - b % mtMod) % mtMod)

/-- R305. -/
def tcorrOf (x : RxFrame) (f : Rxf) (payload : List Byte) : Int :=
  match expectedStamp x f payload with
  | some e => clampI (-8388607) 8388607 (mtDiff e x.quality.stamp)
  | none => tcorrNone

/-- R315: a frame of the time source falls in the own window that is open. -/
def keepWindow (x : RxFrame) (s : State) : State :=
  match s.timing.window, x.window with
  | some w, some ck => if w.ck = ck ∧ x.nbr = timeSource s ∧ x.nbr.isSome then updTiming (fun t => { t with window := some { w with kept := true } }) s else s
  | _, _ => s

/-- R301: a neighbour publishes its schedule. -/
def beaconSchedule (i : Nat) (p : List Byte) (s : State) : State :=
  let e := nbrOf s i
  let n := { e with rdvPeriod := u32 p 12, rdvOffset := u32 p 16, flags := setBit e.flags 2 (u32 p 12 % 2 ^ 24 != 0) }
  let s1 := putNbr i n s
  if n.rdvPeriod ≠ e.rdvPeriod ∨ n.rdvOffset ≠ e.rdvOffset then replaceWindows i s1 else s1

/-- R306, R315, R318, R319: what a frame that passed step 11 does for the timing unit. -/
def timingReceived (x : RxFrame) (f : Rxf) (payload : List Byte) (s : State) : State :=
  match x.nbr with
  | none => s
  | some i =>
    let beacon : Bool := f.type == 2 && u8 payload 0 == 0x10
    let synced : Bool := (u8 payload 1).testBit 0
    let sync : Bool := (expectedStamp x f payload).isSome && (!beacon || synced)
    let s0 := keepWindow x s
    let s1 := if beacon then beaconSchedule i payload s0 else s0
    let s2 := if sync then syncEvent i (tcorrOf x f payload) s1
      else if (nbrOf s1 i).state = .lost ∧ !(nbrOf s1 i).rdv then updNbr i (fun e => { e with state := .active, miss := 0, fails := 0 }) s1
      else s1
    if beacon ∧ timeSource s2 = some i ∧ s2.timing.listen.isSome then
      let s3 := updTiming (fun t => { t with listen := none }) s2
      updNbr i (fun e => { e with miss := 0, fails := 0, state := if e.state = .lost then .active else e.state }) s3
    else s2

/-! ### Acceptance: steps 11 and 12 of R267 -/

/-- R273: the radio rests in RX for PEND_HOLD_MS. -/
def holdPend (s : State) : State :=
  updRadio (fun r => { r with pendHold := some (mtAdd s.clk.mtime (usTicks (1000 * s.link.cfg.pendHoldMs) : Nat), r.tune) }) s

/-- A frame that passed step 11 is delivered, forwarded or consumed. -/
def acceptFrame (x : RxFrame) (f : Rxf) (payload : List Byte) (s : State) : State :=
  if f.type = 2 ∧ !cmdOk payload then closeRx x.id (linkStat (fun c => { c with badFrame := inc32 c.badFrame }) s)
  else
    let s0 := if f.pend then holdPend s else s
    let id := u8 payload 0
    if f.type = 2 ∧ id = 1 then
      closeRx x.id ((if joinReqOk s f then joinReported x f payload else id_) (countReceived x f s0))
    else if f.type = 2 ∧ id = 2 then
      closeRx x.id ((if joinReplyOk s f then joinReplied f payload else id_) (countReceived x f s0))
    else
      let s1 := timingReceived x f payload s0
      if f.type = 2 ∧ id < 0x80 then closeRx x.id (countReceived x f s1)
      else if !f.mesh then closeRx x.id (deliverTo s.link.cfg.rxQueue false x f payload s1)
      else if (f.final = s.link.cfg.ownShort ∧ ownAssigned s) ∨ subscribed s f.final ∨ f.final = broadcast then
        closeRx x.id (deliverTo s.link.cfg.rxQueue false x f payload s1)
      else if !assignable f.final then closeRx x.id (linkStat (fun c => { c with badFrame := inc32 c.badFrame }) s1)
      else closeRx x.id (forwardFrame x f payload s1)
where id_ (t : State) : State := t

/-! ### Steps 3 to 10 (R267 to R271) -/

/-- A frame stops at one of the steps: it is dropped without an acknowledgement. -/
def dropRx (id : Nat) (g : LinkStats → LinkStats) (s : State) : State := closeRx id (linkStat g s)

/-- The source EUI-64 under which a frame is checked (R258). -/
def sourceEui (s : State) (x : RxFrame) (f : Rxf) : List Byte :=
  if f.sam then f.src else match x.nbr with | some i => (nbrOf s i).eui64 | none => List.replicate 8 0

/-- The payload in clear, and whether the MIC is right. -/
def openFrame (s : State) (x : RxFrame) (f : Rxf) : List Byte × Bool :=
  if f.sec then ccmDecrypt (slotOf s f.slot).key (linkNonce (sourceEui s x f) f.counter f.micLen) f.aad f.payload f.mic else (f.payload, true)

/-- R267: a delivered frame is examined up to step 10. An unsecured one goes on to step 12. -/
def receiveFrame (x : RxFrame) (s : State) : State :=
  match parseFrame x.psdu with
  | none => dropRx x.id (fun c => { c with badFrame := inc32 c.badFrame }) s
  | some f =>
    let join : Bool := joinReqOk s f || joinReplyOk s f
    if f.net ≠ s.link.cfg.net ∧ !join then dropRx x.id (fun c => { c with otherNet := inc32 c.otherNet }) s
    else if !forMe s f then dropRx x.id (fun c => { c with notMine := inc32 c.notMine }) s
    else
      let src := if join then none else sourceOf s f
      if src.isNone ∧ !join then dropRx x.id (fun c => { c with noNbr := inc32 c.noNbr }) s
      else
        let e := nbrOf s (src.getD 0)
        let y := { x with nbr := src }
        if f.unicast ∧ src.isSome ∧ e.dupWin.contains f.seq then
          let s1 := keepWindow y (linkStat (fun c => { c with dupRx := inc32 c.dupRx }) s)
          closeRx x.id (updRx x.id (fun _ => { y with dup := true, ack := if f.ar then .due else .none }) s1)
        else if src.isSome ∧ bit e.flags 3 ∧ !f.sec then dropRx x.id (fun c => { c with unsecured := inc32 c.unsecured }) s
        else if f.sec ∧ s.cipher.halt then
          dropRx x.id (fun c => { c with keyBad := inc32 c.keyBad }) (cipherStat (fun c => { c with haltDrop := inc32 c.haltDrop }) s)
        else if f.sec ∧ (f.slot < 2 ∨ !slotPermits s f.slot 1) then dropRx x.id (fun c => { c with keyBad := inc32 c.keyBad }) s
        else if f.sec ∧ !replayOk e f.slot f.counter then dropRx x.id (fun c => { c with replay := inc32 c.replay }) s
        else
          let s1 := updRx x.id (fun _ => { y with phase := if f.sec then .micPending else .fresh, ack := if f.ar ∧ f.unicast then .due else .none }) s
          if f.sec || quiescing s 5 then updRx x.id (fun z => { z with phase := .micPending }) s1
          else match rxOf s1 x.id with
            | some z => acceptFrame z f f.payload s1
            | none => s1

/-! ### The acknowledgement (R259, R268, R269, R271) -/

/-- R268: the tuning on which a frame's acknowledgement goes out. -/
def ackTune (s : State) (lane : Nat) : Nat :=
  if laneFollows s && lane == 0 && lockedState s.radio.state then s.radio.tune else hzTune (laneCentre s lane)

/-- R218: on-air time of the acknowledgement of a frame. -/
def ackUs (s : State) (x : RxFrame) (long : Bool) : Nat :=
  let c := (laneOf s x.lane).cfg
  airTime c.phy c.rate x.mcs 8 (x.quality.flags.testBit 1) (if long then 10 else 6)

/-- R268, R271, R305: the form of an acknowledgement: LONG, PEND and TCORR. -/
def ackForm (s : State) (x : RxFrame) (f : Rxf) : Bool × Bool × Int :=
  let i := x.nbr.getD 0
  let last := (nbrOf s i).lastAck
  if x.dup ∧ x.nbr.isSome ∧ last.testBit 26 then (last.testBit 24, last.testBit 25, signed 24 (last % 2 ^ 24))
  else
    let pend := x.nbr.isSome && moreFor s i
    (f.timed || pend, pend, if f.timed then tcorrOf x f (openFrame s x f).1 else tcorrNone)

/-- R259: the octets of an acknowledgement, for the frame whose acknowledgement has been committed in its form. -/
def ackPsdu (x : RxFrame) : List Byte :=
  let body := le 2 (1 + 8 * b2n x.long + 16 * (u16 x.psdu 2 % 4096)) ++ (if x.long then le 1 (b2n x.pend) ++ lei 3 x.tcorr else [])
  body ++ le 4 (crc32 body)

/-- R218: what an acknowledgement radiates: the PHY, rate and PHYCFG of the frame, its coding, whitening and MCS. -/
def ackAir (s : State) (x : RxFrame) : Air :=
  let c := (laneOf s x.lane).cfg
  let coded := x.quality.flags.testBit 1
  let white := x.quality.flags.testBit 2
  frameAir c.phy c.rate x.mcs 8 (c.phycfg % 16 + 16 * b2n coded + 32 * (c.phycfg / 32 % 4) + 128 * b2n (!white)) s.lanes.seed (ackPsdu x)

/-- R269: the radio is transmitting, turning around, or committed to another acknowledgement. -/
def ackCollides (s : State) : Bool :=
  s.radio.onAir.isSome || s.radio.state == .tx || s.radio.goal == some .txready ||
    (match s.radio.held with | some q => (match q.who with | .ack _ => true | _ => false) | none => false)

/-- R269: the decision point of a frame's acknowledgement. -/
def decideAck (x : RxFrame) (f : Rxf) (s : State) : State :=
  let no (t : State) : State :=
    let t1 := updRx x.id (fun y => { y with ack := .none }) t
    if x.phase = .closed then closeRx x.id t1 else t1
  if ackCollides s then no (linkStat (fun c => { c with ackCollide := inc32 c.ackCollide }) s)
  else
    let form := ackForm s x f
    let tune := ackTune s x.lane
    let us := ackUs s x form.1
    match tallyTake (tuneExact tune) us true s with
    | (t, _, none) => no t
    | (t, _, some resv) =>
      let t1 := updRx x.id (fun y => { y with ack := .committed, long := form.1, pend := form.2.1, tcorr := form.2.2 }) (unsubmit t)
      radioSubmit { who := .ack x.id, timed := none, tune := tune, carrier := tuneExact tune, power := none, ant := x.quality.flags % 2, us := us,
                    ar := false, ret := 0, resv := resv, lbt := 0 } t1

/-- R268, R273: the acknowledgement has been sent. -/
def ackSent (id : Nat) (s : State) : State :=
  match rxOf s id with
  | none => s
  | some x =>
    let s1 := match x.nbr with
      | some i => updNbr i (fun e => { e with lastAck := (x.tcorr % (2 ^ 24 : Nat)).toNat + 2 ^ 24 * b2n x.long + 2 ^ 25 * b2n x.pend + 2 ^ 26 }) s
      | none => s
    let s2 := updRx id (fun y => { y with ack := .none }) (linkStat (fun c => { c with ackSent := inc32 c.ackSent }) s1)
    let s3 := if x.pend then holdPend s2 else s2
    if x.phase = .closed then closeRx id s3 else s3

/-- A committed acknowledgement that could not be sent (R119). -/
def ackAbandoned (id : Nat) (s : State) : State :=
  match rxOf s id with
  | none => s
  | some x =>
    let s1 := updRx id (fun y => { y with ack := .none }) s
    if x.phase = .closed then closeRx id s1 else s1

/-! ### The MIC (R270) -/

/-- The MIC check of a frame ends. A double-bit error in its cells drops it (R371). -/
def micEnds (x : RxFrame) (f : Rxf) (ecc : PopEcc) (s : State) : State :=
  let r := readEcc x.cells ecc s
  let s1 := if f.sec then cipherStat (fun c => { c with checked := inc32 c.checked }) (maskUse (2 * x.psdu.length) r.1) else r.1
  let cancel (t : State) : State := updRx x.id (fun y => { y with ack := if y.ack = .due then .none else y.ack }) t
  if r.2 then closeRx x.id (cancel (qmStat (fun c => { c with ueDropped := inc32 c.ueDropped }) s1))
  else
    let o := openFrame s x f
    if o.2 then acceptFrame x f o.1 s1
    else
      let late : Bool := x.ack == .committed
      closeRx x.id (cancel (linkStat (fun c =>
        { c with micFail := if late then c.micFail else inc32 c.micFail, micLateFail := if late then inc32 c.micLateFail else c.micLateFail }) s1))

/-! ### Acknowledgements received (R259, R277, R306, R316) -/

/-- R277: an acknowledgement arrives for the frame that waits for it. -/
def ackReceived (x : RxFrame) (id : Nat) (s : State) : State :=
  let s0 := owedRefresh (updLink (fun l => { l with rx := l.rx.filter (fun y => y.id != x.id) }) (releaseCells x.cells s))
  match flightOf s0 id with
  | none => updRadio (fun r => { r with awaiting := none }) s0
  | some f =>
    let fc := u16 x.psdu 0
    let long := fc.testBit 3
    let ok : Bool := fc / 16 == f.seq && x.psdu.length == (if long then 10 else 6)
    if !ok then attemptFailed id false s0
    else
      let i := f.nbr.getD 0
      let tcorr : Int := if long then signed 24 (unle (slice x.psdu 3 3)) else tcorrNone
      let s1 := updRadio (fun r => { r with awaiting := none }) s0
      let s2 := if long ∧ (u8 x.psdu 2).testBit 0 then holdPend s1 else s1
      let s3 := if f.windowed then
          timingStat (fun c => { c with rdvKept := inc32 c.rdvKept }) (updNbr i (fun e => { e with miss := 0, fails := 0 }) s2)
        else s2
      let s4 := endFlight id 0 tcorr s3
      let s5 := if f.timed ∧ tcorr ≠ tcorrNone ∧ f.nbr.isSome then syncEvent i (-tcorr) s4 else s4
      if f.kind = .resyncBeacon then
        (if tcorr ≠ tcorrNone then resyncSuccess i tcorr s5
         else
           let s6 := resyncFailed i s5
           if (nbrOf s6 i).state = .lost then nbrDown i s6 else s6)
      else s5

end Sys2Proof.Machine
end

