-- ==== Sys2Proof/Machine/Link.lean ====
section
/-! DEFINITION. The link controller's commands and its own steps (R267 to R297). -/

namespace Sys2Proof.Machine

/-! ### Records (R288, R291, R295, R296) -/

def linkCfgRec (c : LinkCfg) : List Byte :=
  le 4 c.ownShort ++ le 1 c.net ++ le 1 c.maxRetries ++ le 1 c.joinOpen ++ le 1 c.bcastProfile ++ le 2 c.boBaseUs ++ le 2 c.boMaxMs ++
    le 2 c.rxQueue ++ le 2 c.unroutedQueue ++ le 1 c.bcastKey ++ le 1 c.micLen ++ le 2 c.pendHoldMs ++ c.groups.flatMap (le 4)

def routeRec (s : State) (i : Nat) : List Byte :=
  let r := if i = 0xFFFF then s.link.parent else routeOf s i
  le 2 i ++ le 2 0 ++ le 1 r.valid ++ le 1 r.size ++ le 1 r.hopLimit ++ le 1 0 ++ le 4 r.base ++ le 2 r.nextHop ++ le 2 0

def linkStatsRec (x : LinkStats) : List Byte :=
  [x.rxDelivered, x.rxForwarded, x.txOk, x.txRetry, x.txFail, x.txLate, x.ackSent, x.ackCollide, x.dupRx, x.micFail, x.micLateFail, x.replay,
    x.keyBad, x.unsecured, x.noNbr, x.badFrame, x.otherNet, x.notMine, x.hopsExpired, x.noRoute, x.nhDown, x.fwdOff, x.fwdQfull, x.rxQfull,
    x.keyExhausted, x.badDesc].flatMap (le 4)

def linkRec (s : State) : List Byte :=
  let fwd : Bool := (s.pwr.mode == .relay || s.pwr.mode == .wide) && ownAssigned s
  le 4 s.link.cfg.ownShort ++ s.dev.eui64 ++ le 1 s.link.cfg.net ++ le 1 (modeCode s.pwr.mode) ++
    le 1 (b2n fwd + 2 * b2n s.link.join.isSome + 4 * s.link.cfg.joinOpen) ++ le 1 0 ++ le 2 (inFlight s) ++
    le 2 (Config.framesInFlight s.dev.variant) ++ le 2 (s.link.nbr.filter (fun e => decide (e.2.state ≠ .free))).length ++ le 2 (nbrCount s) ++
    le 2 (s.link.route.filter (fun r => r.2.valid == 1)).length ++ le 2 (Config.routeRanges s.dev.variant) ++ le 2 s.link.bcastSeq ++ le 2 0

/-- R296: the survey body of unit 0x05. -/
def linkSurvey (s : State) : List Byte := linkCfgRec s.link.cfg ++ linkRec s ++ linkStatsRec s.link.stats

/-! ### Settings (R287 to R292) -/

/-- R287: a setting outside a shot waits for the end of a frame exchange; PERSIST saves the configuration as changed. -/
def linkSet (c : Ctx) (p : List Byte) (opts : Nat) (reply : State → List Byte) (s : State) : Res :=
  let t := applyLinkSet c.op p s
  if exchange s && !c.shot then
    let w := persistR c (u8 p opts == 1) 0 (okR t [])
    let u := { s with upd := if u8 p opts = 1 then w.s.upd else s.upd, link := { s.link with deferred := s.link.deferred ++ [(c.op, p)] } }
    { w with s := u, body := if w.st = 0 then reply u else [] }
  else
    let t := if c.shot then t else linkKick t
    persistR c (u8 p opts == 1) 0 (okR t (reply t))

def linkStateGet : CoreFn := fun _ _ s => okR s (linkRec s)
def linkCfgGet : CoreFn := fun _ _ s => okR s (linkCfgRec s.link.cfg)

/-- A slot that may secure or check link frames, or none (R262, R267, R288). -/
def linkSlot (k : Nat) : Bool := decide (2 ≤ k ∧ k ≤ 63) || k == 0xFF

def linkCfgSet : CoreFn := fun c p s =>
  let n := linkCfgOf p
  let taken : Bool := assignable n.ownShort && (findShort s n.ownShort).isSome
  guardR s ([((assignable n.ownShort || n.ownShort == unassigned) && !taken, 0), (decide (n.net ≤ 15), 4), (decide (n.maxRetries ≤ 15), 5),
    (decide (n.joinOpen ≤ 1), 6), (decide (n.bcastProfile ≤ 15), 7), (decide (1 ≤ n.boBaseUs), 8), (decide (1 ≤ n.boMaxMs), 10),
    (queuePresent s n.rxQueue, 12), (queuePresent s n.unroutedQueue, 14), (linkSlot n.bcastKey, 16), (decide (n.micLen ≤ 2), 17)] ++
    (List.range 8).map (fun i => (u32 p (20 + 4 * i) == 0 || isGroup (u32 p (20 + 4 * i)), 20 + 4 * i)) ++
    [c.optsOk p 52, rsv p 53 3]) fun _ =>
    linkSet c p 52 (fun t => linkCfgRec t.link.cfg) s

/-- R266: entries that carry FLAGS.PERSIST. -/
def persistCount (s : State) : Nat := (s.link.nbr.filter (fun e => e.2.persist)).length

/-- R289: the checks of an entry, in the order of their fields. -/
def nbrChecks (s : State) (p : List Byte) : List (Bool × Nat) :=
  let i := u16 p 0
  let mask := u32 p 4
  let x := slice p 8 64
  let on (b : Nat) : Bool := mask.testBit b
  let e := nbrSetOf (nbrOf s i) mask x
  let other (t : Nbr → Bool) : Bool := s.link.nbr.any (fun y => y.1 != i && decide (y.2.state ≠ .free) && t y.2)
  let up : Bool := decide (e.state ≠ .free)
  [(decide (i < nbrCount s), 0), (decide (mask < 2 ^ 13), 4),
    ((!on 0 || assignable (u32 x 0) || u32 x 0 == unassigned) &&
      !(up && e.short != unassigned && (other (fun y => y.short == e.short) || (ownAssigned s && e.short == s.link.cfg.ownShort))), 8),
    (!(up && (other (fun y => y.eui64 == e.eui64) || e.eui64 == s.dev.eui64)), 12),
    (!on 2 || decide (u8 x 12 ≤ 1), 20),
    ((!(on 3 || on 11) || decide (u8 x 13 < 128)) && !(e.persist && !(nbrOf s i).persist && decide (256 ≤ persistCount s)), 21),
    (!on 5 || decide (u8 x 15 ≤ 15), 23), (!on 6 || linkSlot (u8 x 16), 24), (!on 10 || linkSlot (u8 x 17), 25),
    (!on 9 || decide (u16 x 20 < 4096), 28), (!on 7 || queuePresent s (u16 x 28), 36), (!on 8 || decide (u8 x 47 ≤ 15), 52),
    (!on 8 || u32 x 44 % 2 ^ 24 == 0 || decide (u32 x 48 * 256 < u32 x 44 % 2 ^ 24 * 2 ^ 24 / 1000), 56)]

def nbrRec (s : State) (i : Nat) : List Byte := le 2 i ++ le 2 0 ++ nbrBytes (nbrOf s i)

def nbrSet : CoreFn := fun c p s =>
  let n := nbrChecks s p
  guardR s (n.take 1 ++ [c.optsOk p 2, rsv p 3 1] ++ n.drop 1) fun _ => linkSet c p 2 (fun t => nbrRec t (u16 p 0)) s

def nbrGet : CoreFn := fun _ p s =>
  let i := u16 p 0
  let k := u8 p 2
  guardR s [(decide (i < nbrCount s), 0), (decide (1 ≤ k ∧ k ≤ 3), 2), rsv p 3 1] fun _ =>
    let n := min k (nbrCount s - i)
    okR s (le 2 i ++ le 1 n ++ le 1 0 ++ (List.range n).flatMap (fun j => nbrBytes (nbrOf s (i + j))))

def nbrFind : CoreFn := fun _ p s =>
  let ext : Bool := u8 p 0 == 1
  guardR s [(decide (u8 p 0 ≤ 1), 0), rsv p 1 3, (ext || (decide (u32 p 4 < 2 ^ 25) && zeros p 8 4), 4)] fun _ =>
    let r := if ext then findEui s (slice p 4 8) else findShort s (u32 p 4)
    okR s (le 2 (r.getD 0xFFFF) ++ le 2 0)

def routeSet : CoreFn := fun c p s =>
  let i := u16 p 0
  let r := routeSetOf p
  let par : Bool := i == 0xFFFF
  let on : Bool := r.valid == 1
  let same : Bool := s.link.route.any (fun y => y.1 != i && y.2.valid == 1 && y.2.base == r.base && y.2.size == r.size)
  guardR s [(par || decide (i < Config.routeRanges s.dev.variant), 0), c.optsOk p 2, rsv p 3 1, (decide (r.valid ≤ 1), 4),
    (!on || decide (r.size ≤ if par then 0 else 25), 5), (!on || decide (1 ≤ r.hopLimit ∧ r.hopLimit ≤ 63), 6), rsv p 7 1,
    (decide (r.base < 2 ^ 25) && (!on || (if par then r.base == 0 else r.base % 2 ^ r.size == 0 && !same)), 8),
    (!on || decide (r.nextHop < nbrCount s), 12), rsv p 14 2] fun _ =>
    linkSet c p 2 (fun t => routeRec t i) s

def routeGet : CoreFn := fun _ p s =>
  guardR s [(u16 p 0 == 0xFFFF || decide (u16 p 0 < Config.routeRanges s.dev.variant), 0), rsv p 2 2] fun _ => okR s (routeRec s (u16 p 0))

def routeLookup : CoreFn := fun _ p s =>
  guardR s [(decide (u32 p 0 < 2 ^ 25), 0)] fun _ =>
    let out (kind index hop limit : Nat) : List Byte := le 1 kind ++ le 1 0 ++ le 2 index ++ le 2 hop ++ le 1 limit ++ le 1 0
    okR s (if !assignable (u32 p 0) then out 4 0 0 0
      else match lookup s (u32 p 0) with
        | .isLocal => out 0 0 0 0
        | .range i r => out 1 i r.nextHop r.hopLimit
        | .parent r => out 2 0xFFFF r.nextHop r.hopLimit
        | .unrouted => out 3 0 0 0)

/-! ### Joining (R284, R286, R293, R294) -/

/-- R284: one JOIN_REQ is originated. -/
def sendJoinReq (j : Join) (s : State) : Option State :=
  (originate .joinReq none (frameHead (frameFc 2 false false false true false 0 false) s.link.bcastSeq 0 (le 4 broadcast) s.dev.eui64)
    (le 1 1 ++ le 1 j.role ++ le 1 j.data.length ++ le 1 0 ++ le 4 j.token ++ j.data) none s.link.bcastSeq false false s.link.cfg.bcastProfile s.radio.home
    false s).map (updLink (fun l => { l with bcastSeq := (l.bcastSeq + 1) % 4096 }))

def linkJoin : CoreFn := fun c p s =>
  let n := u8 p 12
  guardR s [((profileOf s s.link.cfg.bcastProfile).phy != 0, 0), (decide (1 ≤ u8 p 4 ∧ u8 p 4 ≤ 16), 4), (decide (u8 p 5 ≤ 1), 5),
    (decide (100 ≤ u16 p 6 ∧ u16 p 6 ≤ 60000), 6), (decide (1 ≤ u16 p 8 ∧ u16 p 8 ≤ 3600), 8), rsv p 10 2, (decide (n ≤ 32), 12), rsv p 13 3] fun _ =>
    if !linkModes s then modeR s
    else if ownAssigned s ∨ s.link.join.isSome then busyR s 5
    else
      let j (slot : Nat) : Join :=
        { slot := slot, token := u32 p 0, left := u8 p 4 - 1, intervalMs := u16 p 6, nextAt := mtAdd s.clk.mtime (usTicks (1000 * u16 p 6) : Nat),
          endAt := mtAdd s.clk.mtime (u16 p 8 * 2 ^ 24 : Nat), role := u8 p 5, data := slice p 16 n }
      match sendJoinReq (j 0) s with
      | none => errR s stQFULL s.link.cfg.rxQueue
      | some t => pendR c s fun slot => linkKick (updLink (fun l => { l with join := some (j slot) }) t)

/-- R286: the profile on which a JOIN_REPLY goes out: that of the joiner's entry, or BCAST_PROFILE. -/
def replyProfile (s : State) (x : List Byte) : Nat := match findEui s x with | some i => (nbrOf s i).profile | none => s.link.cfg.bcastProfile

def linkJoinReply : CoreFn := fun c p s =>
  let n := u8 p 20
  let short := u32 p 16
  let eui := slice p 0 8
  guardR s [((profileOf s (replyProfile s eui)).phy != 0, 0), (decide (u8 p 12 ≤ 1), 12), (decide (1 ≤ u8 p 13 ∧ u8 p 13 ≤ 63), 13), rsv p 14 2,
    (if u8 p 12 = 0 then assignable short else decide (short < 2 ^ 25), 16), (decide (n ≤ 64), 20), rsv p 21 3] fun _ =>
    let i := findEui s eui
    let ar := i.isSome
    let seq := match i with | some k => (nbrOf s k).txSeq | none => s.link.bcastSeq
    let next (t : State) : State := match i with
      | some k => updNbr k (fun e => { e with txSeq := (e.txSeq + 1) % 4096 }) t
      | none => updLink (fun l => { l with bcastSeq := (l.bcastSeq + 1) % 4096 }) t
    let body := le 1 2 ++ le 1 (u8 p 12) ++ le 1 s.link.cfg.net ++ le 1 (u8 p 13) ++ slice p 8 4 ++ le 4 short ++ le 4 s.link.cfg.ownShort ++ le 1 n ++ le 3 0 ++ slice p 24 n
    let go (slot : Nat) : Option State :=
      (originate (.joinReply slot) i (frameHead (frameFc 2 false ar true true false 0 false) seq s.link.cfg.net eui s.dev.eui64) body none seq ar false
        (replyProfile s eui) s.radio.home false s).map next
    match go 0 with
    | none => errR s stQFULL (match i with | some k => (nbrOf s k).queue | none => s.link.cfg.rxQueue)
    | some _ => pendR c s fun slot => match go slot with | some t => linkKick t | none => s

def linkStatsGet : CoreFn := fun _ p s =>
  guardR s [(decide (u8 p 0 ≤ 1), 0), rsv p 1 3] fun _ =>
    okR (if u8 p 0 = 1 then linkStat (fun _ => .zero) s else s) (linkStatsRec s.link.stats)

def execLinkStateGet (v : Srv) (s : State) : Out := .next (serve 0x0500 linkStateGet v s)
def execLinkCfgSet (v : Srv) (s : State) : Out := .next (serve 0x0501 linkCfgSet v s)
def execLinkCfgGet (v : Srv) (s : State) : Out := .next (serve 0x0502 linkCfgGet v s)
def execNbrSet (v : Srv) (s : State) : Out := .next (serve 0x0510 nbrSet v s)
def execNbrGet (v : Srv) (s : State) : Out := .next (serve 0x0511 nbrGet v s)
def execNbrFind (v : Srv) (s : State) : Out := .next (serve 0x0512 nbrFind v s)
def execRouteSet (v : Srv) (s : State) : Out := .next (serve 0x0520 routeSet v s)
def execRouteGet (v : Srv) (s : State) : Out := .next (serve 0x0521 routeGet v s)
def execRouteLookup (v : Srv) (s : State) : Out := .next (serve 0x0522 routeLookup v s)
def execLinkJoin (v : Srv) (s : State) : Out := .next (serve 0x0530 linkJoin v s)
def execLinkJoinReply (v : Srv) (s : State) : Out := .next (serve 0x0531 linkJoinReply v s)
def execLinkStatsGet (v : Srv) (s : State) : Out := .next (serve 0x0540 linkStatsGet v s)

/-! ### The link controller's own steps -/

/-- R284: the next JOIN_REQ of a join is due. -/
def execJoinReqInterval (s : State) : Out :=
  .next <| match s.link.join with
  | none => s
  | some j =>
    if j.left = 0 ∨ !mtReached j.nextAt s.clk.mtime then s
    else
      let k := { j with left := j.left - 1, nextAt := mtAdd j.nextAt (usTicks (1000 * j.intervalMs) : Nat) }
      linkKick (updLink (fun l => { l with join := some k }) ((sendJoinReq j s).getD s))

/-- R284: no JOIN_REPLY by TIMEOUT_S. -/
def execJoinTimeout (s : State) : Out :=
  .next <| match s.link.join with
  | none => s
  | some j => if mtReached j.endAt s.clk.mtime then linkKick (joinEnd (le 1 2 ++ le 19 0) s) else s

/-- R267: a delivered frame is examined. -/
def execFrameReceive (rx : Nat) (s : State) : Out :=
  .next <| match rxOf s rx with
  | some x =>
    if x.phase ≠ .fresh then s
    else if isAckFrame x.psdu then
      (if s.radio.awaiting.isSome then s else linkKick (closeRx x.id s))
    else linkKick (receiveFrame x s)
  | none => s

/-- R269: the decision point D of a frame's acknowledgement. -/
def execAckDecision (rx : Nat) (s : State) : Out :=
  .next <| match rxOf s rx with
  | some x =>
    (match parseFrame x.psdu with
     | some f => if x.ack = .due then linkKick (decideAck x f s) else s
     | none => s)
  | none => s

/-- R270: the MIC check of a frame ends. -/
def execMicResult (rx : Nat) (ecc : PopEcc) (s : State) : Out :=
  .next <| match rxOf s rx with
  | some x =>
    (match parseFrame x.psdu with
     | some f => if x.phase = .micPending ∧ !quiescing s 5 then linkKick (micEnds x f ecc s) else s
     | none => s)
  | none => s

/-- R273: PEND_HOLD_MS has passed. -/
def execPendHoldEnd (s : State) : Out :=
  .next <| match s.radio.pendHold with
  | some h => if mtReached h.1 s.clk.mtime then radioKick (updRadio (fun r => { r with pendHold := none }) s) else s
  | none => s

/-- R279: a packet ends when it is taken: the sequence number of a frame never built is a free value. -/
def endTaken (r : Released) (outcome : Nat) (s : State) : State :=
  let s1 := linkStat (countOutcome outcome) (releaseCells r.packet.cells s)
  if pNotify r.packet.bytes then
    let q := fresh s1
    txDone (pNbr r.packet.bytes) (q.1 % 4096) outcome 0 r.queue q.2
  else s1

/-- R275, R283: the octets of a body with HOPS and ORIGIN as they are sent. -/
def sentBody (s : State) (p : List Byte) (limit : Option Nat) : List Byte :=
  let b := slice p 8 (pLen p)
  if pMesh p then
    let hops := match limit with | some l => if u8 b 0 = 0 then l else u8 b 0 | none => u8 b 0
    le 1 hops ++ slice b 1 4 ++ le 4 s.link.cfg.ownShort ++ b.drop 9
  else b

/-- R275: the frame of a released packet. -/
def buildFlight (s : State) (r : Released) (h : Hop) : Flight :=
  let p := r.packet.bytes
  let sam : Bool := !ownAssigned s
  let net := s.link.cfg.net
  let base (nbr : Option Nat) (head body : List Byte) (key : Nat) (seq : Nat) (ar timed : Bool) (profile : Nat) : Flight :=
    { id := s.link.nextId, kind := .packet r.queue (pNotify p), phase := .securing, nbr := nbr, cells := r.packet.cells, head := head, body := body,
      keySlot := if key = 0xFF then none else some key, counter := none, key := [], psdu := [], seq := seq, ar := ar, timed := timed, ret := pRet p,
      profile := profile, tune := s.radio.home, attempts := 0, begun := false, windowed := timed, rdv := none, flow := some r.flow }
  match h with
  | .nbr i limit =>
    let e := nbrOf s i
    let ext : Bool := e.short == unassigned
    let fc := frameFc 0 (e.txKey != 0xFF) (pAr p) ext sam (pMesh p) s.link.cfg.micLen e.rdv
    base (some i) (frameHead fc e.txSeq net (if ext then e.eui64 else le 4 e.short) (srcField s)) (sentBody s p limit) e.txKey e.txSeq (pAr p) e.rdv e.profile
  | .multi d =>
    let fc := frameFc 0 (s.link.cfg.bcastKey != 0xFF) false false sam (pMesh p) s.link.cfg.micLen false
    base none (frameHead fc s.link.bcastSeq net (le 4 d) (srcField s)) (sentBody s p none) s.link.cfg.bcastKey s.link.bcastSeq false false s.link.cfg.bcastProfile
  | _ => base none [] [] 0xFF 0 false false 0

/-- R275, R276: the link controller takes the oldest packet that a flow has released. -/
def execLinkTakeFrame (flow : Nat) (ecc : PopEcc) (s : State) : Out :=
  .next <| match s.link.released.find? (fun r => r.flow == flow) with
  | none => s
  | some r =>
    if !linkModes s ∨ !working s 5 then s
    else
      let s1 := updLink (fun l => { l with released := l.released.erase r }) s
      let e := readEcc r.packet.cells ecc s1
      if e.2 || r.packet.ue then linkKick (releaseCells r.packet.cells (qmStat (fun c => { c with ueDropped := inc32 c.ueDropped }) e.1))
      else
        let h := hopOf e.1 r.packet.bytes
        match h with
        | .badDesc => linkKick (endTaken r 3 e.1)
        | .nhDown => linkKick (endTaken r 4 e.1)
        | _ =>
          let f := buildFlight e.1 r h
          let s2 := updLink (fun l => { l with flight := l.flight ++ [f], nextId := l.nextId + 1 }) e.1
          let s3 := match h with
            | .nbr i _ => updNbr i (fun n => { n with txSeq := (n.txSeq + 1) % 4096 }) s2
            | _ => updLink (fun l => { l with bcastSeq := (l.bcastSeq + 1) % 4096 }) s2
          linkKick (secureFlight f.id s3)

/-- R277: an acknowledgement has been received while a frame awaits one. -/
def execAckReceive (rx : Nat) (s : State) : Out :=
  .next <| match rxOf s rx, s.radio.awaiting with
  | some x, some id => if x.phase = .fresh ∧ isAckFrame x.psdu then linkKick (ackReceived x id s) else s
  | _, _ => s

/-- R277: no acknowledgement has been detected in its time. -/
def execAckWaitExpiry (s : State) : Out :=
  .next <| match s.radio.awaiting with
  | some id => linkKick (attemptFailed id false (updRadio (fun r => { r with awaiting := none }) s))
  | none => s

/-- R278: the wait before a retry is over. -/
def execRetryBackoffEnd (flight : Nat) (s : State) : Out :=
  .next <| match flightOf s flight with
  | some f =>
    (match f.phase with
     | .backoff t => if mtReached t s.clk.mtime then linkKick (updFlight flight (fun g => { g with phase := .ready t }) s) else s
     | _ => s)
  | none => s

/-- R297: LINK_DROP, when one of its counts is not zero, at most once per second. -/
def execLinkDrop (s : State) : Out :=
  .next <|
    let d := s.link.drop
    if d.hopsExpired = 0 ∧ d.noRoute = 0 ∧ d.nhDown = 0 ∧ d.fwdOff = 0 ∧ d.fwdQfull = 0 ∧ d.rxQfull = 0 ∨ !secondPast s.link.dropEvent s then s
    else
      raise 0x8562 ([d.hopsExpired, d.noRoute, d.nhDown, d.fwdOff, d.fwdQfull, d.rxQfull].flatMap (le 2) ++ le 4 d.lastFinalDst)
        (updLink (fun l => { l with drop := .zero, dropEvent := some s.clk.mtime }) s)

/-! ### Steps of other units that let frames go on -/

/-- R418: a reservation write ends; frames that waited for it are secured. -/
def execFcReserveWrite (slot : Nat) (fail : Option Nat) (s : State) : Out :=
  .next <| if cryptoOn s then linkKick (reserveWritten slot fail.isSome s) else s

def execFcReserveRetry (s : State) : Out := .next (if cryptoOn s then reserveRetry s else s)

/-- R426, R427: a reseed; HALT ends with it and frames are secured again. -/
def execDrbgReseed (mask : Bool) (s : State) : Out := .next (linkKick (reseed mask s))

/-- R335: the tally clock has counted its 60 s: every band moves to the next bucket, which is zeroed; frames that now fit go on. -/
def execBucketRoll (s : State) : Out :=
  .next <| if s.clk.lfxrdy && decide (bucketPeriods ≤ s.tally.clock + 1) then
    linkKick (updTally (fun t =>
      let n := (t.cur + 1) % 60
      { t with cur := n, clock := 0, band := t.band.map (fun b => { b with total := b.total.set n 0, ack := b.ack.set n 0 }) }) s)
  else s

end Sys2Proof.Machine
end

