-- ==== Sys2Proof/Machine/RadioSteps.lean ====
section
/-! DEFINITION. The radio's and the lanes' steps that other units take part in: transmissions, listens, frames received, wake sends
(R123 to R128, R159, R172, R178, R215, R239 to R246, R345, R367). -/

namespace Sys2Proof.Machine

/-! ### Transmissions (R124 to R127, R275, R301) -/

/-- One slow-clock period in ticks of MTIME: between two steps of its clock the block is anywhere within it (log 52). -/
def periodTicks : Nat := 512

/-- R125, R126: the held transmission can radiate its first symbol now. -/
def canStart (s : State) (q : TxReq) : Bool :=
  let r := s.radio
  let ack : Bool := match q.who with | .ack _ => true | _ => false
  r.state == .txready && r.goal.isNone && r.tune == q.tune && r.lbtPhase == 0 && r.onAir.isNone && (ack || (r.awaiting.isNone && r.owed.isNone)) &&
    (ack || working s 2) && !lateNow s q && (match q.timed with | some t => mtReached t (mtAdd s.clk.mtime (periodTicks : Nat)) | none => true)

/-- R275, R278, R301, R382: a frame's transmission begins: its octets are those of this attempt. -/
def beginFlight (id start : Nat) (s : State) : State :=
  match flightOf s id with
  | none => s
  | some f =>
    let beacon : Bool := match f.kind with | .beacon _ => true | .keepalive => true | .resyncBeacon => true | _ => false
    let body := if beacon then beaconBody s (mtAdd start (leadTicks (profileOf s f.profile) : Nat)) else f.body
    let pend : Bool := match f.nbr with | some i => moreFor s i | none => false
    let sec := match f.keySlot, f.counter with | some k, some c => some (k, c, f.key) | _, _ => none
    let s1 := updFlight id (fun g => { g with begun := true, psdu := securePsdu s (withPend pend f.head) body sec }) s
    if f.attempts ≤ 1 then s1
    else
      let s2 := linkStat (fun x => { x with txRetry := inc32 x.txRetry }) s1
      match f.nbr with
      | some i => updNbr i (fun e => { e with retries := inc16 e.retries }) s2
      | none => s2

/-- What the submitter does at the first symbol. -/
def beginSender (q : TxReq) (start : Nat) (s : State) : State :=
  match q.who with
  | .frame id => beginFlight id start s
  | .ack _ => s
  | .wake => updCanary (fun c => { c with send := c.send.map (fun w => { w with start := some start }) }) s
  | .test => updRadio (fun r => { r with test := r.test.map (fun t => { t with start := some start }) }) s

/-- What the transmission that has just started radiates (R159, R216, R218, R225). -/
def airOf (s : State) (q : TxReq) : Air :=
  match q.who with
  | .frame id =>
    match flightOf s id with
    | some f => let p := profileOf s f.profile; frameAir p.phy p.rate p.mcs p.preamble p.phycfg s.lanes.seed f.psdu
    | none => .silent
  | .ack id => match rxOf s id with | some x => ackAir s x | none => .silent
  | .wake => match s.canary.send with | some w => .wake (sendChips w) | none => .silent
  | .test => q.air

/-- The waveform goes on air; an OFDM frame uses up a scrambler seed (R194). -/
def radiate (s : State) : State :=
  match s.radio.onAir with
  | none => s
  | some q =>
    let a := airOf s q
    let t := updRadio (fun r => { r with onAir := some { q with air := a } }) s
    match a with
    | .ofdm _ _ _ _ => updLanes (fun l => { l with seed := (l.seed + 1) % 4 }) t
    | _ => t

/-- R124: the first symbol of the held transmission leaves the antenna port, at its time when it is timed. -/
def execTxStart (vbat : Nat) (temp : Int) (s : State) : Out :=
  .next <| match s.radio.held with
  | none => s
  | some q =>
    if !canStart s q then s
    else
      let start := q.timed.getD s.clk.mtime
      linkKick (radiate (beginSender q start (radioStart q (startRecord s.radio.cfg q start temp (vbat % 65536)) (canaryBlank (q.who == .wake) s))))

/-- R117, R277, R339: the last symbol of a frame or an acknowledgement leaves the port; wake sequences and test transmissions end by
their own rows. -/
def execTxEnd (s : State) : Out :=
  .next <| match s.radio.onAir with
  | none => s
  | some q =>
    let t := tallyEnd q.resv (updRadio (fun r => { r with onAir := none }) s)
    match q.who with
    | .frame id =>
      linkKick (if q.ar then updFlight id (fun f => { f with phase := .waitAck }) (updRadio (fun r => { r with awaiting := some id }) t)
        else endFlight id 0 tcorrNone t)
    | .ack id => linkKick (ackSent id t)
    | _ => s

/-- R126: the submitter learns that its transmission was abandoned with TX_LATE. -/
def txAbandoned (q : TxReq) (s : State) : State :=
  match q.who with
  | .frame id => attemptFailed id true s
  | .ack id => ackAbandoned id s
  | .wake =>
    match s.canary.send with
    | none => s
    | some w =>
      let t := wakeDone w stTXLATE 0 0 s
      match w.resync with
      | some i => resyncPostpone i 4 t
      | none => t
  | .test =>
    match s.radio.test with
    | none => s
    | some t => complete t.slot stTXLATE 0 (le 4 0) (updRadio (fun r => { r with test := none }) s)

/-- The held transmission is abandoned and its submitter told. -/
def abandonTold (s : State) : State :=
  match s.radio.held with
  | none => s
  | some q => txAbandoned q (abandonHeld s)

def execTxLate (s : State) : Out :=
  .next <| match s.radio.held with
  | none => s
  | some q => if lateNow s q then linkKick (abandonTold s) else s

/-! ### Listen before talk (R345) -/

/-- R345: a listen ends with the means measured on the two antennas or paths. -/
def execLbtListenEnd (rssiA rssiB : Int) (s : State) : Out :=
  .next <| match s.radio.held with
  | none => s
  | some q =>
    if s.radio.lbtPhase ≠ 1 ∨ s.radio.state ≠ .rx ∨ s.radio.goal.isSome then s
    else
      match lbtBand s q with
      | none => linkKick (updRadio (fun r => { r with lbtPhase := 0 }) s)
      | some b =>
        let c := (bandOf s b).cfg
        if (ccaMean s q.ant rssiA rssiB).1 < c.lbtThreshold then linkKick (updRadio (fun r => { r with lbtPhase := 0 }) s)
        else
          let s1 := updBand b (fun x => { x with lbtBusy := inc32 x.lbtBusy }) s
          if q.timed.isSome ∨ q.lbt ≤ 1 then linkKick (abandonTold (updBand b (fun x => { x with lbtGiveup := inc32 x.lbtGiveup }) s1))
          else
            let f := fresh (genUse s1)
            let ms := c.boMinMs + f.1 % (c.boMaxMs - c.boMinMs + 1)
            linkKick (updRadio (fun r => { r with held := some { q with lbt := q.lbt - 1 }, lbtPhase := 2,
                                                  lbtUntil := mtAdd s.clk.mtime (usTicks (1000 * ms) : Nat) }) f.2)

/-- R345: the wait after a busy listen is over: the radio listens again. -/
def execLbtBackoffEnd (s : State) : Out :=
  .next <| if s.radio.held.isSome && s.radio.lbtPhase == 2 && mtReached s.radio.lbtUntil s.clk.mtime then
    radioKick (updRadio (fun r => { r with lbtPhase := 1 }) s)
  else s

/-! ### The test transmission (R159) -/

/-- R159: the test ends after `us` radiated. -/
def testDone (t : TestTx) (us : Nat) (s : State) : State :=
  linkKick (complete t.slot 0 0 (le 4 us) (updRadio (fun r => { r with test := none }) s))

def radioTestStop : CoreFn := fun _ _ s =>
  match s.radio.test with
  | none => badR s 0
  | some t =>
    match s.radio.onAir with
    | some q =>
      if q.who = .test then
        let us := min (airUs s) q.us
        okR (testDone t us (tallyCut q.resv us (updRadio (fun r => { r with onAir := none }) s))) []
      else badR s 0
    | none =>
      let held := (s.radio.held.map (fun q => q.who == .test)).getD false
      let s1 := if held then tallyRelease ((s.radio.held.bind (fun q => q.resv))) (updRadio (fun r => { r with held := none, lbtPhase := 0 }) s) else s
      okR (testDone t 0 s1) []

def execRadioTestStop (v : Srv) (s : State) : Out := .next (serve 0x0221 radioTestStop v s)

/-- R159: DURATION_MS has passed. -/
def execTestTxEnd (s : State) : Out :=
  .next <| match s.radio.test, s.radio.onAir with
  | some t, some q =>
    if q.who = .test then testDone t (t.ms * 1000) (tallyEnd q.resv (updRadio (fun r => { r with onAir := none }) s)) else s
  | _, _ => s

/-! ### The synthesizer does not lock (R123) -/

/-- R123: a lock is in progress. -/
def locking (s : State) : Bool :=
  match s.radio.goal with
  | some g => lockedState g && (!lockedState s.radio.state || s.radio.tuneGoal != s.radio.tune)
  | none => false

/-- R123: no lock within 100 µs: the segment is calibrated once more; the second time the lock has failed. -/
def execLockTimeout (s : State) : Out :=
  .next <|
    let seg := segOf s.radio.tuneGoal
    if !locking s then s
    else if !s.radio.second then
      lanesBlank (updRadio (fun r => { r with state := .cal, goal := none, second := true, cal := tset none seg none r.cal }) s)
    else
      let s1 := lanesBlank (updRadio (fun r =>
        { r with state := .idle, goal := none, second := false, tune := 0, stats := { r.stats with lockFail := inc32 r.stats.lockFail } }) s)
      abandonTold (raise 0x8231 (le 4 (tuneHz s.radio.tuneGoal) ++ le 1 seg ++ le 3 0) s1)

/-! ### A lane's frame ends (R172, R178, R179, R215, R367) -/

/-- The FCS of a PSDU is right (R253). -/
def fcsOk (psdu : List Byte) : Bool := unle (psdu.drop (psdu.length - 4)) == crc32 (psdu.take (psdu.length - 4))

/-- R178: the frame is a copy of one delivered in the last 10 ms, among the latest 32. -/
def isCopy (s : State) (fcs stamp : Nat) : Bool :=
  s.lanes.delivered.any (fun d =>
    d.1 == fcs && mtReached s.clk.mtime (mtAdd d.2.2 (usTicks 10000 : Nat)) &&
      (mtReached (mtAdd stamp (-33)) d.2.1 && mtReached d.2.1 (mtAdd stamp (33 : Nat))))

/-- R215: the quality record of a delivered frame. -/
def qualityOf (s : State) (lane : Nat) (f : LaneFrame) (r : LaneRes) : Quality :=
  let c := (laneOf s lane).cfg
  let eqOn : Bool := c.phy == 3 && !c.phycfg.testBit 3
  { stamp := f.stamp, fcs := unle (r.psdu.drop (r.psdu.length - 4)), lane := lane, phy := c.phy,
    mode := (match c.phy with | 1 => c.phycfg % 2 | 2 => f.mcs | _ => (seamIdx c.rate).getD 0),
    flags := f.path + 2 * b2n f.coded + 4 * b2n f.white + 8 * b2n f.switched + 16 * b2n f.eqReset + 32 * b2n (eqOn && c.phycfg.testBit 4),
    rssi := (rssiAt s f.path r.rssi).1, snr := r.snr, freqOff := r.freqOff, slope := if c.phy = 3 then r.slope else 0,
    eqEnergy := if eqOn then r.eqEnergy else -32768, trackErr := if c.phy = 1 then 0xFFFF else r.trackErr % 65536, length := r.psdu.length }

/-- R304, R314: the rendezvous centre of the own window that the SFD fell in. -/
def windowOf (s : State) (stamp : Nat) : Option Nat :=
  match s.timing.window with
  | some w =>
    let g := usTicks w.guardUs
    if mtReached (mtAdd w.ck (-(g : Int))) stamp && mtReached stamp (mtAdd w.ck (g : Nat)) then some w.ck else none
  | none => none

/-- R178, R215, R367: a frame that passed its FCS and is no copy goes to the link controller. -/
def deliverLane (lane : Nat) (f : LaneFrame) (r : LaneRes) (s : State) : State :=
  let n := cellsFor r.psdu.length
  if freeCells s < n then laneStat lane (fun x => { x with noCell := inc32 x.noCell }) s
  else
    let q := qualityOf s lane f r
    let a := allocCells n s
    let x : RxFrame := { id := s.link.nextId, lane := lane, psdu := r.psdu, quality := q, cells := a.2, phase := .fresh, ack := .none, nbr := none,
                         mic := none, dup := false, long := false, pend := false, tcorr := tcorrNone, mcs := f.mcs, window := windowOf s f.stamp }
    updLink (fun l => { l with rx := l.rx ++ [x], nextId := l.nextId + 1 })
      (updLane lane (fun l => { l with quality := (q :: l.quality).take 7 })
        (updLanes (fun l => { l with delivered := ((q.fcs, f.stamp, s.clk.mtime) :: l.delivered).take 32 }) a.1))

/-- R277: a damaged acknowledgement ends the wait. -/
def damagedAck (s : State) (psdu : List Byte) : Option Nat :=
  if psdu.length = 6 ∨ psdu.length = 10 then s.radio.awaiting else none

/-- R172: the FCS result of a lane's frame is known: the PSDU holds as many octets as its header announced. -/
def execLaneFcsResult (lane : Nat) (r : LaneRes) (s : State) : Out :=
  .next <| match (laneOf s lane).frame with
  | none => s
  | some f =>
    if f.len ≠ some r.psdu.length then s
    else
      let fcs := unle (r.psdu.drop (r.psdu.length - 4))
      linkKick <|
        if !fcsOk r.psdu then
          let t := updLane lane Lane.endFrame (laneStat lane (fun x => { x with fcsFail := inc32 x.fcsFail }) s)
          match damagedAck s r.psdu with
          | some id => attemptFailed id false t
          | none => t
        else
          let pathB : Bool := s.dev.variant == .shaft && f.path == 1
          let s1 := laneStat lane (fun x => { x with rxOk := inc32 x.rxOk, pathB := if pathB then inc32 x.pathB else x.pathB }) s
          let s2 := updRadio (fun x => { x with heard := true }) s1
          let s3 := if isCopy s2 fcs f.stamp then laneStat lane (fun x => { x with dupDropped := inc32 x.dupDropped }) s2 else deliverLane lane f r s2
          updLane lane Lane.endFrame s3

/-! ### Wake sends (R239 to R246) -/

def canarySend : CoreFn := fun c p s =>
  guardR s [(decide (u32 p 0 < 2 ^ 25), 0), (decide (u8 p 4 ≤ 127), 4), (decide (1 ≤ u8 p 5 ∧ u8 p 5 ≤ 8), 5),
      (decide (-40 ≤ i8 p 6 ∧ i8 p 6 ≤ 40), 6), (decide (u8 p 7 ≤ 2), 7), (freqOk (wakeHz s (u32 p 8)), 8), rsv p 12 4,
      (decide (u64 p 16 < mtMod), 16)] fun _ =>
    if !linkModes s then modeR s
    else if s.canary.send.isSome then busyR s 4
    else pendR c s fun n => linkKick (updCanary (fun x =>
      { x with send := some { slot := some n, resync := none, address := u32 p 0, group := u8 p 4, rep := u8 p 5, hz := wakeHz s (u32 p 8),
                              power := some (i8 p 6), ant := u8 p 7, whenAt := u64 p 16, submitted := false, start := none } }) s)

def execCanarySend (v : Srv) (s : State) : Out := .next (serve 0x0410 canarySend v s)

/-- R241, R246, R317: the last chip of a wake send leaves the port. -/
def execCanarySendEnd (s : State) : Out :=
  .next <| match s.radio.onAir, s.canary.send with
  | some q, some w =>
    if q.who = .wake then
      let t := wakeDone w 0 0 (28000 * w.rep) (tallyEnd q.resv (updRadio (fun r => { r with onAir := none }) s))
      linkKick (match w.resync with
        | some i =>
          (match resyncOf t i with
           | some r => putResync { r with stage := 2, due := mtAdd s.clk.mtime (usTicks (1000 * s.timing.cfg.resyncDelayMs) : Nat) } t
           | none => t)
        | none => t)
    else s
  | _, _ => s

end Sys2Proof.Machine
end

