-- ==== Sys2Proof/Machine/TimingRows.lean ====
section
/-! DEFINITION. The timing unit's commands and its own steps (R298 to R330). -/

namespace Sys2Proof.Machine

/-! ### Records (R322 to R329) -/

def timingCfgRec (s : State) : List Byte :=
  let c := s.timing.cfg
  le 4 (c.ownPeriod + 2 ^ 24 * c.ownChseq) ++ le 4 c.ownOffset ++ le 2 c.baseUs ++ le 2 c.bound ++ le 4 c.guardCapUs ++ [c.flags] ++
    le 1 c.resyncRepeat ++ le 2 c.resyncDelayMs ++ le 2 c.resyncListenMs ++ le 2 c.resyncIntervalS ++ le 4 c.resyncWakeHz ++ lei 4 c.trimPpb ++
    dateBytes c.epoch

def timingRec (s : State) : List Byte :=
  let k := ownNext s
  let ck := match k with | some k => (ownSched s).centre k | none => 0
  lei 8 s.timing.stepSum ++ lei 4 s.timing.cfg.trimPpb ++ le 2 ((timeSource s).getD 0xFFFF) ++
    le 1 (b2n s.clk.sync + 2 * b2n s.timing.window.isSome + 4 * b2n s.timing.listen.isSome) ++ le 1 0 ++ le 8 ck ++
    le 4 (if k.isSome then guardUs s (timeSource s) ck else 0) ++
    le 4 (match k with | some k => tuneHz ((ownSched s).tune s k) | none => 0)

def timingStatsRec (x : TimingStats) : List Byte :=
  [x.winOpened, x.winKept, x.winMissed, x.winSkipped, x.rdvKept, x.rdvMissed, x.rdvDeferred, x.steps, x.resyncStarted, x.resyncOk, x.resyncFailed,
    x.lost].flatMap (le 4)

/-- R329: the survey body of unit 0x06. -/
def timingSurvey (s : State) : List Byte := timingCfgRec s ++ timingRec s ++ timingStatsRec s.timing.stats

def chseqRec (s : State) (q : Nat) : List Byte :=
  let f := chseqOf s q
  le 1 q ++ le 1 f.length ++ le 2 0 ++ f.flatMap (le 4)

/-- R324: a neighbour as the timing unit sees it. -/
def timingNbrRec (s : State) (i : Nat) : List Byte :=
  let e := nbrOf s i
  let r := syncOf s i
  let x := nbrSched e
  let on : Bool := e.rdv && x.period != 0
  let k := x.first s.clk.mtime
  let ck := x.centre k
  le 2 i ++ le 1 (nbrCode e.state) ++ le 1 (e.miss + 16 * e.fails) ++ lei 4 e.drift ++ le 8 (r.mtime + 2 ^ 56 * b2n r.valid + 2 ^ 57 * b2n r.driftValid) ++
    lei 4 r.toff ++ le 4 r.stepAt ++ le 8 (if on then ck else 0) ++ le 4 (if on then guardUs s (some i) ck else 0) ++
    le 4 (if on then tuneHz (x.tune s k) else 0)

/-! ### Commands -/

def timingStateGet : CoreFn := fun _ _ s => okR s (timingRec s)
def timingCfgGet : CoreFn := fun _ _ s => okR s (timingCfgRec s)

def timingCfgOf (p : List Byte) : TimingCfg :=
  { ownPeriod := u32 p 0 % 2 ^ 24, ownChseq := u8 p 3, ownOffset := u32 p 4, baseUs := u16 p 8, bound := u16 p 10, guardCapUs := u32 p 12,
    flags := BitVec.ofNat 8 (u8 p 16), resyncRepeat := u8 p 17, resyncDelayMs := u16 p 18, resyncListenMs := u16 p 20, resyncIntervalS := u16 p 22,
    resyncWakeHz := u32 p 24, trimPpb := i32 p 28, epoch := dateOf p 32 }

def timingCfgSet : CoreFn := fun c p s =>
  let g := timingCfgOf p
  guardR s [((g.ownPeriod == 0 || decide (100 ≤ g.ownPeriod)) && decide (g.ownChseq ≤ 15), 0),
    (g.ownPeriod == 0 || decide (g.ownOffset * 256000 < g.ownPeriod * 2 ^ 24), 4), (decide (10 ≤ g.baseUs), 8), (decide (g.bound ≤ 1000), 10),
    (decide (1000 ≤ g.guardCapUs ∧ g.guardCapUs ≤ 1000000), 12), (decide (u8 p 16 < 8), 16), (decide (1 ≤ g.resyncRepeat ∧ g.resyncRepeat ≤ 8), 17),
    (decide (10 ≤ g.resyncDelayMs ∧ g.resyncDelayMs ≤ 5000), 18), (decide (100 ≤ g.resyncListenMs ∧ g.resyncListenMs ≤ 10000), 20),
    (decide (1 ≤ g.resyncIntervalS ∧ g.resyncIntervalS ≤ 3600), 22), (g.resyncWakeHz == 0 || freqOk g.resyncWakeHz, 24),
    (decide (-100000 ≤ g.trimPpb ∧ g.trimPpb ≤ 100000), 28), (dateOk g.epoch, 32), rsv p 39 1, c.optsOk p 40, rsv p 41 3] fun _ =>
    let old := s.timing.cfg
    let same : Bool := old.ownPeriod == g.ownPeriod && old.ownChseq == g.ownChseq && old.ownOffset == g.ownOffset
    let s1 := updTiming (fun t => { t with cfg := g }) s
    let s2 := calRefresh (if same then s1 else ownRestart s1)
    persistR c (u8 p 40 == 1) 0 (okR s2 (timingCfgRec s2))

/-- R323: frames placed in rendezvous of a changed sequence follow it. -/
def retuneWindows (q : Nat) (s : State) : State :=
  updLink (fun l => { l with flight := l.flight.map (fun f =>
    match f.phase, f.nbr, f.rdv with
    | .window _, some i, some k =>
      let x := nbrSched (nbrOf s i)
      if x.seq = q then { f with tune := x.tune s k } else f
    | _, _, _ => f) }) s

def timingChseqSet : CoreFn := fun c p s =>
  let q := u8 p 0
  let n := u8 p 1
  guardR s ([(decide (1 ≤ q ∧ q ≤ 15), 0), (decide (1 ≤ n ∧ n ≤ 16), 1), c.optsOk p 2, rsv p 3 1] ++
      (List.range n).map (fun i => (freqOk (u32 p (4 + 4 * i)), 4 + 4 * i))) fun _ =>
    let f := (List.range n).map (fun i => u32 p (4 + 4 * i))
    let from_ := mtAdd s.clk.mtime (ms2 : Nat)
    let t := updTiming (fun t =>
      { t with chseq := tset chseqReset q f t.chseq,
               chseqOld := t.chseqOld.filter (fun o => o.1 != q && mtLater o.2.2 s.clk.mtime) ++ [(q, chseqOf s q, from_)] }) s
    let t2 := retuneWindows q t
    persistR c (u8 p 2 == 1) 0 (okR t2 (chseqRec t2 q))

def timingChseqGet : CoreFn := fun _ p s => guardR s [(decide (1 ≤ u8 p 0 ∧ u8 p 0 ≤ 15), 0), rsv p 1 3] fun _ => okR s (chseqRec s (u8 p 0))

def timingNbrGet : CoreFn := fun _ p s => guardR s [(decide (u16 p 0 < nbrCount s), 0), rsv p 2 2] fun _ => okR s (timingNbrRec s (u16 p 0))

/-- R325: MTIME as the RTC and EPOCH give it. -/
def rtcMtime (s : State) : Nat :=
  mtAdd (s.rtc.now.subsec * 512) (((dateSeconds s.rtc.now.date : Int) - (dateSeconds s.timing.cfg.epoch : Int)) * (2 ^ 24 : Nat))

def timingMtimeSet : CoreFn := fun _ p s =>
  let fromRtc := u8 p 8 == 1
  guardR s [(fromRtc || decide (u64 p 0 < mtMod), 0), (decide (u8 p 8 ≤ 1), 8), rsv p 9 3, (bit s.timing.cfg.flags 0, 12)] fun _ =>
    if fromRtc ∧ s.rtc.osf then errR s stTIME 0
    else
      let d := mtDiff (if fromRtc then rtcMtime s else u64 p 0) s.clk.mtime - waitingStep s
      okR (linkKick (requestStep d 0xFFFF s)) (lei 8 d)

def timingBeacon : CoreFn := fun c p s =>
  let i := u16 p 0
  guardR s [(i == 0xFFFF || (decide (i < nbrCount s) && decide ((nbrOf s i).state ≠ .free)), 0), rsv p 2 2] fun _ =>
    if !linkModes s then modeR s
    else
      let windowed : Bool := i != 0xFFFF && (nbrOf s i).rdv
      let go (slot : Nat) : Option State := beaconTo (.beacon slot) (if i = 0xFFFF then none else some i) s.radio.home windowed s
      match go 0 with
      | none => errR s stQFULL (if i = 0xFFFF then s.link.cfg.rxQueue else (nbrOf s i).queue)
      | some _ => pendR c s fun slot => match go slot with | some t => linkKick t | none => s

def timingResync : CoreFn := fun c p s =>
  let i := u16 p 0
  guardR s [(decide (i < nbrCount s) && decide ((nbrOf s i).state ≠ .free), 0), rsv p 2 2] fun _ =>
    if !linkModes s then modeR s
    else pendR c s fun slot => linkKick (resyncStart i (some slot) s)

def timingStatsGet : CoreFn := fun _ p s =>
  guardR s [(decide (u8 p 0 ≤ 1), 0), rsv p 1 3] fun _ =>
    okR (if u8 p 0 = 1 then timingStat (fun _ => .zero) s else s) (timingStatsRec s.timing.stats)

def execTimingStateGet (v : Srv) (s : State) : Out := .next (serve 0x0600 timingStateGet v s)
def execTimingCfgSet (v : Srv) (s : State) : Out := .next (serve 0x0601 timingCfgSet v s)
def execTimingCfgGet (v : Srv) (s : State) : Out := .next (serve 0x0602 timingCfgGet v s)
def execTimingChseqSet (v : Srv) (s : State) : Out := .next (serve 0x0603 timingChseqSet v s)
def execTimingChseqGet (v : Srv) (s : State) : Out := .next (serve 0x0604 timingChseqGet v s)
def execTimingNbrGet (v : Srv) (s : State) : Out := .next (serve 0x0608 timingNbrGet v s)
def execTimingMtimeSet (v : Srv) (s : State) : Out := .next (serve 0x0610 timingMtimeSet v s)
def execTimingBeacon (v : Srv) (s : State) : Out := .next (serve 0x0611 timingBeacon v s)
def execTimingResync (v : Srv) (s : State) : Out := .next (serve 0x0612 timingResync v s)
def execTimingStatsGet (v : Srv) (s : State) : Out := .next (serve 0x0630 timingStatsGet v s)

/-! ### The timing unit's own steps -/

/-- R308: the steps that waited for the end of an exchange are applied. -/
def execMtimeStep (s : State) : Out :=
  .next <| if s.timing.pendingStep.isEmpty ∨ exchange s then s
  else linkKick (s.timing.pendingStep.foldl (fun a d => applyStep d.1 d.2 a) (updTiming (fun t => { t with pendingStep := [] }) s))

/-- R310: an event of the overflow list that comes within the horizon moves into the wheel. -/
def execCalendarOverflowMove (s : State) : Out := .next (calRefresh s)

/-- R313, R314: the time from which the radio is wanted for own window centred at `ck`. -/
def openFrom (s : State) (ck : Nat) : Nat := mtAdd ck (-(usTicks (guardUs s (timeSource s) ck + detectUs s + 517) : Nat))

/-- R300, R312, R314, R318: the next own window opens, is skipped, or is merged into a resynchronisation listen. -/
def execOwnWindowOpen (s : State) : Out :=
  .next <| match ownNext s with
  | none => s
  | some k =>
    let x := ownSched s
    let ck := x.centre k
    let g := guardUs s (timeSource s) ck
    let next (n : Nat) : State := updTiming (fun t => { t with nextK := n }) s
    if s.timing.window.isSome ∨ !working s 6 ∨ s.pwr.drain.isSome ∨ mtLater (openFrom s ck) s.clk.mtime then s
    else if mtLater s.clk.mtime (mtAdd ck (usTicks g : Nat)) then next (max (k + 1) (x.first s.clk.mtime))
    else if s.timing.listen.isSome then next (k + 1)
    else if exchange s then timingStat (fun c => { c with winSkipped := inc32 c.winSkipped }) (next (k + 1))
    else
      linkKick (timingStat (fun c => { c with winOpened := inc32 c.winOpened })
        (updTiming (fun t => { t with nextK := k + 1, window := some { ck := ck, tune := x.tune s k, guardUs := g, kept := false } }) s))

/-- R315: a window of a listener with KEEPALIVE is counted. -/
def countWindow (w : OwnWindow) (s : State) : State :=
  if !bit s.timing.cfg.flags 1 then s
  else if w.kept then
    let t := timingStat (fun c => { c with winKept := inc32 c.winKept }) s
    match timeSource t with
    | some i => updNbr i (fun e => { e with miss := 0 }) t
    | none => t
  else
    let t := timingStat (fun c => { c with winMissed := inc32 c.winMissed }) s
    match timeSource t with
    | none => t
    | some i =>
      let u := updNbr i (fun e => { e with miss := min 15 (e.miss + 1) }) t
      if (nbrOf u i).miss = 15 ∧ (nbrOf u i).state ≠ .lost then nbrDown i (becomeLost i 1 u) else u

/-- R314, R315: the own window ends, once no exchange and no frame that fell in it is left. -/
def execOwnWindowClose (s : State) : Out :=
  .next <| match s.timing.window with
  | none => s
  | some w =>
    if mtLater (mtAdd w.ck (usTicks w.guardUs : Nat)) s.clk.mtime ∨ exchange s ∨ s.link.rx.any (fun x => x.window == some w.ck && x.phase != .closed) then s
    else linkKick (countWindow w (updTiming (fun t => { t with window := none }) s))

/-- R316: a child's rendezvous for which no frame is in flight 2 ms before its centre gets a beacon. -/
def execKeepaliveBeacon (nbr : Nat) (s : State) : Out :=
  .next <|
    let e := nbrOf s nbr
    let x := nbrSched e
    let at_ := s.clk.mtime + ms2
    if !bit s.timing.cfg.flags 1 ∨ e.state ≠ .active ∨ !e.rdv ∨ !bit e.flags 1 ∨ x.period = 0 ∨ !linkModes s ∨ !working s 6 then s
    else if !mtReached (x.centre (x.first at_)) (mtAdd at_ (periodTicks : Nat)) ∨ s.link.flight.any (fun f => f.nbr == some nbr) ∨ nbrBusy s nbr then s
    else match beaconTo .keepalive (some nbr) s.radio.home true s with
      | some t => linkKick t
      | none => s

/-- R317: a beacon of a resynchronisation attempt is due. -/
def execResyncBeacon (nbr : Nat) (s : State) : Out :=
  .next <| match resyncOf s nbr with
  | none => s
  | some r =>
    if r.stage ≠ 2 ∨ !mtReached r.due s.clk.mtime ∨ 3 ≤ r.beacons ∨ !linkModes s ∨ !working s 6 ∨
        s.link.flight.any (fun f => f.nbr == some nbr && f.kind == .resyncBeacon) then s
    else
      let x := nbrSched (nbrOf s nbr)
      match beaconTo .resyncBeacon (some nbr) (seqTune s x.seq 0 s.clk.mtime) false (putResync { r with beacons := r.beacons + 1 } s) with
      | some t => linkKick t
      | none => resyncPostpone nbr 2 s

/-- R317: the interval after a failed or postponed attempt is over: the next attempt starts. -/
def execResyncInterval (nbr : Nat) (s : State) : Out :=
  .next <| match resyncOf s nbr with
  | none => s
  | some r => if r.stage = 0 ∧ mtReached r.due s.clk.mtime ∧ working s 6 then linkKick (resyncStart nbr none s) else s

/-- R318: a resynchronisation listen runs out. -/
def execResyncListenEnd (s : State) : Out :=
  .next <| match s.timing.listen with
  | none => s
  | some l => if mtReached l.1 s.clk.mtime then linkKick (updTiming (fun t => { t with listen := none }) s) else s

end Sys2Proof.Machine
end

