-- ==== Sys2Proof/Machine/Queues.lean ====
section
/-! DEFINITION. The queues' commands and port accesses (R360 to R380). -/

namespace Sys2Proof.Machine

/-! ### Commands -/

def qmStateGet : CoreFn := fun _ _ s => okR s (qmStateRec s)

/-- R365: a queue becomes TX: every stalled read on it returns the EMPTY token and sets KIND_ERR. -/
def turnTx (q : Nat) (s : State) : State :=
  if s.qm.stalls.any (fun t => t.queue == q) then endStallsEmpty q (updQueue q (fun x => { x with kindErr := true }) s) else s

def queueSet : CoreFn := fun c p s =>
  let q := u16 p 0
  guardR s [(queuePresent s q, 0), (decide (u8 p 2 ≤ 1), 2), c.optsOk p 3, (decide (u16 p 4 ≤ 8191), 4)] fun _ =>
    let s1 := updQueue q (fun x => { x with kind := u8 p 2, limit := u16 p 4, stall := u16 p 6 }) s
    let s2 := if u8 p 2 = 1 then turnTx q s1 else serveStalls q s1
    let s3 := if c.shot then s2 else linkKick s2
    persistR c (u8 p 3 == 1) 0 (okR s3 (queueRec s3 q))

def queueGet : CoreFn := fun _ p s => guardR s [(queuePresent s (u16 p 0), 0), rsv p 2 2] fun _ => okR s (queueRec s (u16 p 0))
def queueStatusGet : CoreFn := fun _ p s => guardR s [(queuePresent s (u16 p 0), 0), rsv p 2 2] fun _ => okR s (queueStatusRec s (u16 p 0))

def qmCfgSet : CoreFn := fun c p s =>
  guardR s [(decide (u16 p 0 ≤ Config.cells s.dev.variant / 4), 0), c.optsOk p 2, rsv p 3 1] fun _ =>
    let t := updQm (fun m => { m with reserve := u16 p 0 }) s
    persistR c (u8 p 2 == 1) 0 (okR t (qmCfgRec t))

def qmCfgGet : CoreFn := fun _ _ s => okR s (qmCfgRec s)

/-- R377: every packet of a queue is freed; a BROKEN queue is swept and works again. -/
def flushQueue (q : Nat) (s : State) : State :=
  let x := queueOf s q
  let s1 := releaseCells (x.packets.flatMap (fun p => p.cells)) (updQueue q (fun y => { y with packets := [], broken := false }) s)
  qmStat (fun c => { c with flushed := sat 0xFFFFFFFF (c.flushed + x.packets.length) }) s1

def queueFlush : CoreFn := fun _ p s =>
  guardR s [(queuePresent s (u16 p 0), 0), rsv p 2 2] fun _ =>
    okR (linkKick (flushQueue (u16 p 0) s)) (le 2 (queueOf s (u16 p 0)).count ++ le 2 0)

/-- R379: CLEAR; FREE_MIN and HIGH_WATER start again from what is held now (log 79). -/
def qmClear (s : State) : State :=
  updQm (fun m => { m with stats := .zero, ceCount := 0, ueCount := 0, usedMax := m.used.length,
                           queue := tmap Queue.reset (fun q => { q with highWater := q.count }) m.queue }) s

def qmStatsGet : CoreFn := fun _ p s =>
  guardR s [(decide (u8 p 0 ≤ 1), 0), rsv p 1 3] fun _ =>
    okR (if u8 p 0 = 1 then qmClear s else s) (qmStatsBytes s.qm.stats)

def execQmStateGet (v : Srv) (s : State) : Out := .next (serve 0x0800 qmStateGet v s)
def execQueueSet (v : Srv) (s : State) : Out := .next (serve 0x0801 queueSet v s)
def execQueueGet (v : Srv) (s : State) : Out := .next (serve 0x0802 queueGet v s)
def execQueueStatusGet (v : Srv) (s : State) : Out := .next (serve 0x0803 queueStatusGet v s)
def execQmCfgSet (v : Srv) (s : State) : Out := .next (serve 0x0804 qmCfgSet v s)
def execQmCfgGet (v : Srv) (s : State) : Out := .next (serve 0x0805 qmCfgGet v s)
def execQueueFlush (v : Srv) (s : State) : Out := .next (serve 0x0810 queueFlush v s)
def execQmStatsGet (v : Srv) (s : State) : Out := .next (serve 0x0818 qmStatsGet v s)

/-! ### The port (R362 to R366): ports of absent queues read 0 and ignore writes (R7) -/

def whoMaster : Who → Master
  | .app => .app | .host => .host

/-- A write of QM_PUSH of queue `q`. -/
def portPush (q : Nat) (v : Word) (s : State) : State := if queuePresent s q then linkKick (pushWrite q v s) else s

/-- A read of QM_POP of queue `q` for a register of the core, or for none: the value, or `none` when the reader stalls. -/
def portPop (m : Master) (q : Nat) (e : PopEcc) (rd : Option Nat) (s : State) : State × Option Nat :=
  if !queuePresent s q then (s, some 0)
  else match popRead m q e rd s with
    | (t, some v) => (linkKick (setResult m v t), some v)
    | (t, none) => (match m with | .app => updCore (fun c => { c with run := .stalledPop }) t | .host => t, none)

/-- A write of QM_POP of queue `q`. -/
def portLand (m : Master) (q : Nat) (v : Word) (s : State) : State := if queuePresent s q then landWrite m q v s else s

def execQmPush (who : Who) (q : Nat) (v : Word) (s : State) : Out := .next (if mayAccess s who then portPush q v s else s)

def execQmPop (who : Who) (q : Nat) (ecc : PopEcc) (s : State) : Out :=
  .next (if mayAccess s who then (portPop (whoMaster who) q ecc none s).1 else s)

def execQmLandingWrite (who : Who) (q : Nat) (v : Word) (s : State) : Out := .next (if mayAccess s who then portLand (whoMaster who) q v s else s)

/-- R365: the stall limit of a stalled read runs out; a queue with limit 0 has none. -/
def execPopStallExpired (who : Who) (s : State) : Out :=
  .next <| match s.qm.stalls.find? (fun t => decide (t.master = whoMaster who)) with
  | none => s
  | some t =>
    if (queueOf s t.queue).stall = 0 then s
    else endStall t emptyToken (countEmpty (updQueue t.queue (fun x => { x with stallExpired := true }) s))

end Sys2Proof.Machine
end

