-- ==== Sys2Proof/Machine/SchedRows.lean ====
section
/-! DEFINITION. The scheduler's commands and its own steps (R381 to R407). -/

namespace Sys2Proof.Machine

/-! ### Records (R401 to R405, R407) -/

def flowRec (s : State) (i : Nat) : List Byte :=
  let c := (flowOf s i).cfg
  le 2 i ++ le 1 c.enable ++ le 1 c.strict ++ le 2 c.weight ++ le 2 c.queue ++ le 1 c.shaper ++ le 1 0 ++ le 2 0

def flowStateRec (s : State) (i : Nat) : List Byte :=
  let f := flowOf s i
  le 2 i ++ le 1 f.block ++ le 1 0 ++ le 8 (f.stamp.getD f.fLast) ++ le 2 (match flowHead s f with | some p => p.bytes.length | none => 0) ++ le 2 0 ++
    le 8 (f.eligible.getD 0) ++ le 1 f.refReason ++ le 1 f.refBand ++ le 2 0 ++ le 4 f.refUs ++ le 8 f.refMtime ++ le 4 f.released ++ le 4 f.releasedBytes

def shaperRec (s : State) (i : Nat) : List Byte :=
  let h := shaperOf s i
  let c := h.next.getD h.cfg
  le 1 i ++ le 1 c.enable ++ le 2 0 ++ le 2 c.rate ++ le 2 0 ++ le 4 c.burst ++ lei 4 h.tokens ++ le 2 h.activeRate ++
    le 1 (b2n h.next.isSome + 2 * h.cfg.enable) ++ le 1 0 ++
    le 2 (s.sched.flow.filter (fun f => f.2.cfg.enable == 1 && f.2.cfg.shaper == i)).length ++ le 2 0

/-- R394: the wheel spans 512 ms. -/
def onWheel (s : State) (t : Nat) : Bool := mtReached t (mtAdd s.clk.mtime (usTicks 512000 : Nat))

def schedRec (s : State) : List Byte :=
  let on := s.sched.flow.filter (fun f => f.2.cfg.enable == 1)
  let back := on.filter (fun f => queuePresent s f.2.cfg.queue && !(queueOf s f.2.cfg.queue).packets.isEmpty)
  let times := s.sched.flow.filterMap (fun f => f.2.eligible)
  le 8 s.sched.v ++ le 1 (modeCode s.pwr.mode) ++ le 1 (b2n (linkModes s) + 2 * b2n (gateOpen s) + 4 * b2n (atLimit s)) ++ le 2 on.length ++ le 2 back.length ++
    le 2 (back.filter (fun f => f.2.cfg.strict == 1)).length ++ le 2 (times.filter (onWheel s)).length ++
    le 2 (times.filter (fun t => !onWheel s t)).length ++ le 4 (1000 - min 1000 (ticksUs ((s.clk.mtime + mtMod - s.sched.lastRefill) % mtMod)))

def schedStatsRec (x : SchedStats) : List Byte :=
  [x.relOrigin, x.relStrict, x.relWfq, x.relRdv, x.holdShaper, x.holdTally, x.holdNever, x.holdNbr, x.refusedInflight, x.vtClamp].flatMap (le 4)

/-- R407: the survey body of unit 0x09. -/
def schedSurvey (s : State) : List Byte :=
  schedRec s ++ schedStatsRec s.sched.stats ++ (List.range 256).flatMap (fun i => flowRec s i ++ flowStateRec s i) ++ (List.range 128).flatMap (shaperRec s)

/-! ### Commands -/

def schedStateGet : CoreFn := fun _ _ s => okR s (schedRec s)

/-- R401: another enabled flow names the queue. -/
def queueTaken (s : State) (i q : Nat) : Bool :=
  q != 0xFFFF && s.sched.flow.any (fun f => f.1 != i && f.2.cfg.enable == 1 && f.2.cfg.queue == q)

def flowSet : CoreFn := fun c p s =>
  let i := u16 p 0
  let g : FlowCfg := { enable := u8 p 2, strict := u8 p 3, weight := u16 p 4, queue := u16 p 6, shaper := u8 p 8 }
  guardR s [(decide (i ≤ 255), 0), (decide (g.enable ≤ 1), 2), (decide (g.strict ≤ 1), 3), (decide (1 ≤ g.weight), 4),
    ((g.queue == 0xFFFF || queuePresent s g.queue) && !(g.enable == 1 && queueTaken s i g.queue), 6), (decide (g.shaper ≤ 127) || g.shaper == 0xFF, 8),
    c.optsOk p 9, rsv p 10 2] fun _ =>
    let f := flowOf s i
    let moved : Bool := f.cfg.queue != g.queue
    let n := { f with cfg := g, stamp := if moved ∨ g.strict = 1 then none else f.stamp, block := if moved then 2 else f.block,
                      eligible := if moved then none else f.eligible }
    let t := putFlow i n s
    let t2 := if c.shot then t else linkKick t
    persistR c (u8 p 9 == 1) 0 (okR t2 (flowRec t2 i))

def flowGet : CoreFn := fun _ p s => guardR s [(decide (u16 p 0 ≤ 255), 0), rsv p 2 2] fun _ => okR s (flowRec s (u16 p 0))
def flowStateGet : CoreFn := fun _ p s => guardR s [(decide (u16 p 0 ≤ 255), 0), rsv p 2 2] fun _ => okR s (flowStateRec s (u16 p 0))

/-- R393: outside a shot the change waits for the next refill edge; at a swap edge it takes effect. -/
def shaperSet : CoreFn := fun c p s =>
  let i := u8 p 0
  let g : ShaperCfg := { enable := u8 p 1, rate := u16 p 4, burst := u32 p 8 }
  guardR s [(decide (i ≤ 127), 0), (decide (g.enable ≤ 1), 1), c.optsOk p 2, rsv p 3 1, rsv p 6 2, (decide (1 ≤ g.burst ∧ g.burst < 2 ^ 20), 8)] fun _ =>
    let h := shaperOf s i
    let t := putShaper i (if c.shot then h.install g else { h with next := some g }) s
    persistR c (u8 p 2 == 1) 0 (okR t (shaperRec t i))

def shaperGet : CoreFn := fun _ p s => guardR s [(decide (u8 p 0 ≤ 127), 0), rsv p 1 3] fun _ => okR s (shaperRec s (u8 p 0))

def schedStatsGet : CoreFn := fun _ p s =>
  guardR s [(decide (u8 p 0 ≤ 1), 0), rsv p 1 3] fun _ =>
    okR (if u8 p 0 = 1 then schedStat (fun _ => .zero) s else s) (schedStatsRec s.sched.stats)

def execSchedStateGet (v : Srv) (s : State) : Out := .next (serve 0x0900 schedStateGet v s)
def execFlowSet (v : Srv) (s : State) : Out := .next (serve 0x0901 flowSet v s)
def execFlowGet (v : Srv) (s : State) : Out := .next (serve 0x0902 flowGet v s)
def execFlowStateGet (v : Srv) (s : State) : Out := .next (serve 0x0903 flowStateGet v s)
def execShaperSet (v : Srv) (s : State) : Out := .next (serve 0x0904 shaperSet v s)
def execShaperGet (v : Srv) (s : State) : Out := .next (serve 0x0905 shaperGet v s)
def execSchedStatsGet (v : Srv) (s : State) : Out := .next (serve 0x0910 schedStatsGet v s)

/-! ### The scheduler's own steps -/

/-- R381, R382: a release decision. Heads that the tally refuses are set aside, at most one for each flow. -/
def execSchedRelease (s : State) : Out :=
  .next <| if releasing s && !atLimit s then linkKick (schedDecide 257 (schedScan s)) else s

/-- R391, R398: a refill edge, while the scheduler is clocked. -/
def execShaperRefill (s : State) : Out := .next (if netRuns s then linkKick (schedRefill s) else s)

/-- R394: a flow's time on the wheel has come. -/
def execWheelEligible (flow : Nat) (s : State) : Out := .next (linkKick (wheelFlow s flow))

/-- R406: SCHED_BLOCKED, when a flow has entered TALLY_NEVER since the last one, at most once per second. -/
def execSchedBlocked (s : State) : Out :=
  .next <|
    let x := s.sched
    if x.blkCount = 0 ∨ !secondPast x.blkEvent s then s
    else raise 0x8930 (le 2 x.blkCount ++ le 2 x.blkFlow ++ le 1 x.blkBand ++ le 1 x.blkReason ++ le 2 0)
      (updSched (fun y => { y with blkCount := 0, blkEvent := some s.clk.mtime }) s)

end Sys2Proof.Machine
end

