-- ==== Sys2Proof/Machine/Sensor.lean ====
section
/-! DEFINITION. Sensor I/O: the serial engines, the ADC, the timers, the watchdog and GPIO edges (R645 to R667). -/

namespace Sys2Proof.Machine

/-! ### Serial engines (R652 to R658) -/

def seOf (s : State) (n : Nat) : Se := if n = 0 then s.se0 else s.se1
def updSe (n : Nat) (f : Se → Se) (s : State) : State := if n = 0 then { s with se0 := f s.se0 } else { s with se1 := f s.se1 }

def Se.en (e : Se) : Bool := bit e.ctl 0
/-- ROLE: 0 SPI, 1 I²C, 2 UART. -/
def Se.role (e : Se) : Nat := bits e.ctl.toNat 1 2
def Se.busy (e : Se) : Bool := e.phase != .idle
def Se.wlen (e : Se) : Nat := bits e.xfer.toNat 0 8
def Se.rlen (e : Se) : Nat := bits e.xfer.toNat 8 8
def Se.nostop (e : Se) : Bool := bit e.xfer 23
def Se.rxen (e : Se) : Bool := bit e.ctl 7

/-- R654: a transfer ends: DONE and ERR. -/
def Se.finish (e : Se) (err : Nat) : Se := { e with phase := .idle, done := true, err := err, wleft := 0, rleft := 0 }

/-- R654: GO starts a transfer; R656: while BUSY it is ignored. -/
def Se.go (e : Se) : Se :=
  if !e.en || decide (1 < e.role) then e
  else if e.busy then { e with wign := true }
  else if e.role = 0 ∧ e.wlen = 0 then e
  else { e with phase := .transfer, wleft := e.wlen, rleft := if e.role = 1 then e.rlen else 0, csHeld := e.role == 0 && bit e.ctl 6 }

/-- R655: ABORT ends a transfer and empties both FIFOs. -/
def Se.abort (e : Se) : Se :=
  if decide (1 < e.role) then e
  else
    let f := { e with tx := [], rx := [], csHeld := false }
    if e.busy then f.finish e.err else f

/-- R655: BUSCLR on an idle I²C engine. -/
def Se.busclr (e : Se) : Se := if e.en && e.role == 1 && !e.busy then { e with phase := .busclr } else e

/-- R654: a byte is pushed onto the transmit FIFO. -/
def Se.push (e : Se) (b : Byte) : Se := if e.tx.length < 32 then { e with tx := e.tx ++ [b] } else { e with txovf := true }

/-- R654, R658: a read of SEn_DATA. -/
def Se.pop (e : Se) : Se × Nat :=
  match e.rx with
  | [] => (e, 0x100)
  | b :: r => ({ e with rx := r }, b.toNat)

/-- A field write that ignores one reserved code. -/
def keepCode (old new lo len ban : Nat) : Nat := if bits new lo len = ban then bits old lo len * 2 ^ lo else bits new lo len * 2 ^ lo

/-- R656, R658: a write of SEn_CTL, SEn_DIV or SEn_XFER. -/
def Se.config (e : Se) (r : SeReg) (v : Word) : Se :=
  if e.busy then { e with wign := true }
  else
    let n := v.toNat
    let o := e.ctl.toNat
    match r with
    | .ctl => { e with ctl := BitVec.ofNat 14 (bits n 0 1 + keepCode o n 1 2 3 + bits n 3 7 * 8 + keepCode o n 10 2 3 + bits n 12 2 * 2 ^ 12) }
    | .div => { e with div := v.extractLsb' 0 16 }
    | .xfer => { e with xfer := v.extractLsb' 0 24 }

/-- R658: SEn_STAT. -/
def Se.stat (e : Se) : Nat :=
  b2n e.busy + 2 * b2n e.done + 4 * e.err + 32 * b2n e.txovf + 64 * b2n e.wign + 128 * e.tx.length + 2 ^ 13 * e.rx.length

/-- R654, R658: a write of SEn_STAT: ERR clears with DONE. -/
def Se.clear (e : Se) (v : Word) : Se :=
  { e with done := e.done && !bit v 1, err := if bit v 1 then 0 else e.err, txovf := e.txovf && !bit v 5, wign := e.wign && !bit v 6 }

/-- R657: the interrupt source is pending. -/
def Se.irq (e : Se) : Bool := (bit e.ien 0 && e.done) || (bit e.ien 1 && decide (e.tx.length ≤ 16)) || (bit e.ien 2 && decide (1 ≤ e.rx.length))

/-- R654: as much of an SPI transfer as the FIFOs allow: bytes sent, and with RXEN as many received. -/
def Se.spi (e : Se) (got : List Byte) : Se :=
  let k := min e.wleft (min e.tx.length (if e.rxen then 32 - e.rx.length else 255))
  let f := { e with tx := e.tx.drop k, rx := if e.rxen then e.rx ++ slice got 0 k else e.rx, wleft := e.wleft - k }
  if f.wleft = 0 then { f.finish 0 with csHeld := e.csHeld && e.nostop } else f

/-- R654: as much of an I²C transfer as the FIFOs allow: the write phase, then the read phase. -/
def Se.i2c (e : Se) (got : List Byte) : Se :=
  let k := min e.wleft e.tx.length
  let f := { e with tx := e.tx.drop k, wleft := e.wleft - k }
  if f.wleft ≠ 0 then f
  else
    let m := min f.rleft (32 - f.rx.length)
    let g := { f with rx := f.rx ++ slice got 0 m, rleft := f.rleft - m }
    if g.rleft = 0 then g.finish 0 else g

/-- R654, R655: the bus reports the progress of a transfer or a BUSCLR. A transfer that an empty transmit FIFO or a full receive FIFO halts
stays BUSY (log 121). -/
def Se.ends (e : Se) (r : SeEnd) : Se :=
  match e.phase with
  | .idle => e
  | .busclr => e.finish (if r.err = 3 then 3 else 0)
  | .transfer =>
    if e.role = 0 then e.spi r.got
    else if r.err = 0 ∨ 3 < r.err then e.i2c r.got
    else { e with tx := if r.err = 1 then e.tx else e.tx.drop r.sent, rx := e.rx ++ (r.got.take (32 - e.rx.length)) }.finish r.err

/-- R654: a byte has come in on RXD. -/
def Se.uartRx (e : Se) (b : Byte) (x : UartErr) : Se :=
  if !e.en || e.role != 2 then e
  else if 32 ≤ e.rx.length then { e with done := true, err := 4 }
  else
    let f := { e with rx := e.rx ++ [b] }
    match x with
    | .none => f
    | .framing => { f with done := true, err := 5 }
    | .parity => { f with done := true, err := 6 }

/-- R654: the UART may send: a byte waits and, with FLOW, CTS is low. -/
def Se.uartSends (e : Se) : Bool := e.en && e.role == 2 && !e.tx.isEmpty && !(bit e.ctl 13 && e.cts)

/-- PCLK cycles that the rest of a transfer takes at most, when its FIFOs do not halt it (R653, R654). -/
def Se.cycles (e : Se) : Nat :=
  if e.role = 0 then (e.wleft * 8 + 2) * (e.div.toNat % 256 + 1)
  else (e.wleft * 9 + e.rleft * 9 + 22) * (match bits e.ctl.toNat 8 2 with | 0 => 240 | 1 => 60 | _ => 24)

/-- R657: the engine refuses a sleep entry: its transfer cannot end within the 64 µs of the preparation, or a UART byte waits. -/
def Se.refuses (e : Se) : Bool :=
  match e.phase with
  | .transfer => decide (1536 < e.cycles) || decide (e.tx.length < e.wleft) || (e.rxen && decide (32 < e.rx.length + e.wleft))
  | .busclr => true
  | .idle => e.en && e.role == 2 && !e.tx.isEmpty

def execSeGo (n : Nat) (s : State) : Out := .next (if mayAccess s .app then updSe n Se.go s else s)
def execSeAbort (n : Nat) (s : State) : Out := .next (if mayAccess s .app then updSe n Se.abort s else s)
def execSeBusclr (n : Nat) (s : State) : Out := .next (if mayAccess s .app then updSe n Se.busclr s else s)
def execSeDataWrite (n : Nat) (v : Word) (s : State) : Out := .next (if mayAccess s .app then updSe n (fun e => e.push (v.extractLsb' 0 8)) s else s)
def execSeDataRead (n : Nat) (s : State) : Out := .next (if mayAccess s .app then updSe n (fun e => e.pop.1) s else s)
def execSeConfigWrite (n : Nat) (reg : SeReg) (v : Word) (s : State) : Out := .next (if mayAccess s .app then updSe n (fun e => e.config reg v) s else s)
def execSeTransferEnd (n : Nat) (r : SeEnd) (s : State) : Out := .next (updSe n (fun e => e.ends r) s)

/-- R654: SCL has been held low for longer than 25 ms. -/
def execSeI2cTimeout (n : Nat) (s : State) : Out :=
  .next (updSe n (fun e => if e.phase = .transfer ∧ e.role = 1 then e.finish 3 else e) s)

def execSeUartRxByte (n : Nat) (b : Byte) (e : UartErr) (s : State) : Out := .next (updSe n (fun x => x.uartRx b e) s)

/-- R654: a byte has left on TXD. -/
def execSeUartTxByte (n : Nat) (s : State) : Out := .next (updSe n (fun e => if e.uartSends then { e with tx := e.tx.drop 1 } else e) s)

/-- R654: the CTS input. -/
def execCtsChange (n : Nat) (level : Bool) (s : State) : Out := .next (updSe n (fun e => { e with cts := level }) s)

/-! ### ADC (R659 to R662) -/

def updAdc (f : Adc → Adc) (s : State) : State := { s with adc := f s.adc }
def Adc.en (a : Adc) : Bool := bit a.ctl 0
def Adc.trig (a : Adc) : Nat := bits a.ctl.toNat 3 3
/-- Channel of a slot. -/
def Adc.chan (a : Adc) (k : Nat) : Nat := bits a.seq.toNat (3 * k) 3

/-- R661: a trigger arrives. -/
def Adc.trigger (a : Adc) : Adc := if !a.en then a else if a.slot.isSome then { a with trigLost := true } else { a with slot := some 0 }

/-- R662: a write of ADC_CTL. Clearing EN ends a sequence; after EN rises the converter settles (R660, R661). -/
def Adc.ctlWrite (a : Adc) (v : Word) : Adc :=
  let n := v.toNat
  let t := if bits n 3 3 ≤ 4 then bits n 3 3 else a.trig
  let c := BitVec.ofNat 10 (bits n 0 3 + 8 * t + 64 * bits n 6 4)
  { a with ctl := c, slot := if bit c 0 then a.slot else none, settled := a.settled && bit c 0 }

/-- GPIO pin of an external channel (R659). -/
def adcPin (ch : Nat) : Nat := at_ 0 [2, 3, 6, 7, 8, 9] ch

/-- R645, R660: the pin of the channel selects FUNC 2. -/
def adcHasPin (s : State) (ch : Nat) : Bool := decide (6 ≤ ch) || bits s.pads.live.func.toNat (2 * adcPin ch) 2 == 2

/-- R660: code of a voltage against a reference. -/
def adcCode (volt vref : Nat) : Nat := if vref = 0 then 4095 else min 4095 (rdiv (4096 * volt) vref)

/-- R661: a result enters the FIFO, or sets OVR. -/
def Adc.result (a : Adc) (x : AdcResult) : Adc := if a.fifo.length < 16 then { a with fifo := a.fifo ++ [x] } else { a with ovr := true }

/-- R661: the slot after slot `k`, or the end of the sequence. -/
def Adc.next (a : Adc) (k : Nat) : Adc :=
  if k < bits a.seq.toNat 24 3 then { a with slot := some (k + 1) }
  else { a with done := true, slot := if bit a.ctl 2 then some 0 else none }

/-- R662: a read of ADC_DATA. -/
def Adc.pop (a : Adc) : Adc × Nat :=
  match a.fifo with
  | [] => (a, 0)
  | x :: r => ({ a with fifo := r }, x.code + 2 ^ 12 * x.ch + 2 ^ 15 + 2 ^ 16 * b2n x.noPin)

def Adc.stat (a : Adc) : Nat := b2n a.slot.isSome + 2 * b2n a.done + 4 * b2n a.ovr + 8 * b2n a.trigLost + 16 * a.fifo.length
def Adc.clear (a : Adc) (v : Word) : Adc := { a with done := a.done && !bit v 1, ovr := a.ovr && !bit v 2, trigLost := a.trigLost && !bit v 3 }
/-- R661: interrupt source 6. -/
def Adc.irq (a : Adc) : Bool := (bit a.ien 0 && a.done) || (bit a.ien 1 && decide (8 ≤ a.fifo.length)) || (bit a.ien 2 && a.ovr)

/-- R661: a write of ADC_START. -/
def adcStart (v : Word) (s : State) : State := if bit v 0 && s.adc.trig == 0 then updAdc Adc.trigger s else s

def execAdcStart (v : Word) (s : State) : Out := .next (if mayAccess s .app then adcStart v s else s)
def execAdcSettled (s : State) : Out := .next (updAdc (fun a => { a with settled := a.settled || a.en }) s)

/-- R660, R661: the conversion of the current slot ends; `volt` and `vref` are in the same unit. -/
def execAdcConversionEnd (volt vref : Nat) (s : State) : Out :=
  .next <| match s.adc.slot with
  | none => s
  | some k =>
    if !s.adc.settled then s
    else
      let ch := s.adc.chan k
      let ok := adcHasPin s ch
      updAdc (fun a => (a.result { code := if ok then adcCode volt vref else 0, ch := ch, noPin := !ok }).next k) s

def execAdcDataRead (s : State) : Out := .next (if mayAccess s .app then updAdc (fun a => a.pop.1) s else s)

/-! ### Timers (R663, R664) -/

def tmrOf (s : State) (n : Nat) : Tmr := at_ Tmr.reset s.tmr n
def updTmr (n : Nat) (f : Tmr → Tmr) (s : State) : State := { s with tmr := s.tmr.set n (f (tmrOf s n)) }
def Tmr.en (t : Tmr) : Bool := bit t.ctl 0
def Tmr.mode (t : Tmr) : Nat := bits t.ctl.toNat 1 2
def Tmr.flag (t : Tmr) (k : Nat) : Tmr := { t with stat := setBit t.stat k true }

/-- EN rises: in PWM the output follows the count at once. -/
def Tmr.start (t : Tmr) : Tmr := { t with ctl := setBit t.ctl 0 true, out := if t.en then t.out else if t.mode = 1 then decide (t.cnt < t.cmp) else t.out }

/-- R664: a write of TMRn_CTL. -/
def Tmr.ctlWrite (t : Tmr) (v : Word) : Tmr :=
  let n := v.toNat
  let o := t.ctl.toNat
  let c := BitVec.ofNat 15 (keepCode o n 1 2 3 + bits n 3 9 * 8 + keepCode o n 12 2 3 + bits n 14 1 * 2 ^ 14)
  if bit v 0 then (if t.en then { t with ctl := setBit c 0 true } else { t with ctl := c }.start) else { t with ctl := c }

/-- R663: the count becomes CMP. -/
def Tmr.hit (t : Tmr) : Tmr :=
  if t.mode = 0 then { t.flag 0 with out := !t.out } else if t.mode = 1 then { t.flag 0 with out := false } else t

/-- R663: the count becomes CMP while it runs. -/
def Tmr.matches (t : Tmr) : Tmr := { t with cnt := t.cmp }.hit

/-- R663: the count wraps to 0. -/
def Tmr.wrap (t : Tmr) : Tmr :=
  let t1 : Tmr := if t.mode = 1 then { t with top := t.topNext.getD t.top, cmp := t.cmpNext.getD t.cmp, topNext := none, cmpNext := none } else t
  let t2 : Tmr := { t1.flag 1 with cnt := 0, out := if t1.mode = 1 then true else t1.out }
  let t3 := if t2.cmp = 0 then t2.hit else t2
  if bit t3.ctl 11 then { t3 with ctl := setBit t3.ctl 0 false } else t3

/-- R663: an input edge at a count. -/
def Tmr.capture (t : Tmr) (rising : Bool) (count : Nat) : Tmr :=
  let e := bits t.ctl.toNat 12 2
  if !t.en || t.mode != 2 || !(e == 2 || (e == 0) == rising) then t
  else
    let n := BitVec.ofNat 32 (count % (t.top.toNat + 1))
    { (if bit t.stat 2 then t.flag 3 else t.flag 2) with cnt := n, cap := n }

/-- R663: a write of TMRn_TOP or TMRn_CMP. -/
def Tmr.topWrite (t : Tmr) (v : Word) : Tmr := if t.mode = 1 then { t with topNext := some v } else { t with top := v }
def Tmr.cmpWrite (t : Tmr) (v : Word) : Tmr := if t.mode = 1 then { t with cmpNext := some v } else { t with cmp := v }

/-- R663: interrupt source 7 + n. -/
def Tmr.irq (t : Tmr) : Bool := t.stat &&& t.ien != 0

/-- R663: a write of TMR_SYNC. -/
def tmrSync (v : Word) (s : State) : State := { s with tmr := (List.range 4).map (fun n => if bit v n then (tmrOf s n).start else tmrOf s n) }

/-- The timers count: PCLK runs (R651). -/
def pclkRuns (s : State) : Bool := started s && (s.pwr.phase == .awake || s.pwr.phase == .preparing)

/-- R661: a MATCH of timer n triggers the ADC. -/
def adcTimer (n : Nat) (s : State) : State := if s.adc.trig = n + 1 then updAdc Adc.trigger s else s

def execTmrSync (v : Word) (s : State) : Out := .next (if mayAccess s .app then tmrSync v s else s)

def execTimerMatch (n : Nat) (s : State) : Out :=
  .next <|
    let t := tmrOf s n
    if pclkRuns s && decide (n < 4) && t.en && decide (t.mode ≤ 1) && decide (t.cmp ≤ t.top) then adcTimer n (updTmr n Tmr.matches s) else s

def execTimerWrap (n : Nat) (s : State) : Out :=
  .next <|
    let t := tmrOf s n
    if !(pclkRuns s && decide (n < 4) && t.en) then s
    else
      let s1 := updTmr n Tmr.wrap s
      if (tmrOf s1 n).cmp = 0 ∧ t.mode ≤ 1 then adcTimer n s1 else s1

def execTimerCapture (n : Nat) (rising : Bool) (count : Nat) (s : State) : Out :=
  .next (if pclkRuns s && decide (n < 4) then updTmr n (fun t => t.capture rising count) s else s)

/-! ### Watchdog (R665 to R667) -/

def updWdg (f : Wdg → Wdg) (s : State) : State := { s with wdg := f s.wdg }
/-- R667: LOAD 0 acts as 1. -/
def Wdg.from_ (w : Wdg) : Nat := max 1 w.load

/-- R665, R667: a write of WDG_CTL. -/
def Wdg.ctlWrite (w : Wdg) (v : Word) : Wdg :=
  { w with en := w.en || bit v 0, cnt := if bit v 0 && !w.en then w.from_ else w.cnt, warnEn := if w.lock then w.warnEn else bit v 1, lock := w.lock || bit v 2 }

/-- R665: a write of WDG_LOAD. -/
def Wdg.loadWrite (w : Wdg) (v : Word) : Wdg := if w.lock then w else { w with load := v.toNat % 2 ^ 24 }

/-- R666: a write of WDG_FEED. -/
def Wdg.feed (w : Wdg) (v : Word) : Wdg :=
  if !w.en then w else if v.toNat % 65536 = 0x5EED then { w with feeding := true } else { w with cnt := 0, expired := true }

def execWdgStart (v : Word) (s : State) : Out := .next (if mayAccess s .app then updWdg (fun w => w.ctlWrite v) s else s)
def execWdgFeed (v : Word) (s : State) : Out := .next (if mayAccess s .app then updWdg (fun w => w.feed v) s else s)

/-- R666: the slow-clock edge after a feed. -/
def execWdgReload (s : State) : Out :=
  .next (updWdg (fun w => if w.en && w.feeding && !w.expired then { w with cnt := w.from_, feeding := false } else w) s)

/-- R665: the watchdog counts. -/
def wdgCounts (s : State) : Bool := s.wdg.en && pclkRuns s && s.core.run != .halted

/-- R666: the count passes LOAD / 2. -/
def execWdgWarn (s : State) : Out :=
  .next (if wdgCounts s then updWdg (fun w => { w with warn := true, cnt := min w.cnt (w.load / 2) }) s else s)

/-- R666, R473, R484: the count has reached 0, or the watchdog expired on a wrong key: a WDT reset at its scope. -/
def execWdtExpire (s : State) : Out :=
  .next <|
    if !(wdgCounts s || (s.wdg.en && s.wdg.expired)) then s
    else if (oByte s.boot.opt 0x00B).testBit 0 then takeReset .wdt false s
    else coreReset 4 s

/-! ### Pins (R648, R649, R670) -/

/-- The pads and the WAKE pin are seen: VIO is present and AON is alive outside backup retention (R548, R670). -/
def pinsSeen (s : State) : Bool := s.boot.vio && !s.boot.aonLost && !s.boot.backup

/-- R645, R646: the pin serves the ADC. -/
def isAin (s : State) (pin : Nat) : Bool := bits s.pads.live.func.toNat (2 * pin) 2 == 2 && [2, 3, 6, 7, 8, 9].contains pin

/-- R648: an edge on a pin; `held` says whether the level stayed long enough to be taken. -/
def execGpioEdge (pin : Nat) (rising held : Bool) (s : State) : Out :=
  .next <|
    if Config.gpio s.dev.variant ≤ pin then s
    else
      let s1 := { s with pads := { s.pads with level := setBit s.pads.level pin rising, driven := setBit s.pads.driven pin true } }
      if !(held && pinsSeen s && bit s.pads.wakeEn pin && bit s.pads.wakePol pin == rising && !isAin s pin) then s1
      else
        let first : Bool := s.pads.wakeFlag == 0
        let s2 := { s1 with pads := { s1.pads with wakeFlag := setBit s1.pads.wakeFlag pin true } }
        if first then latchSet 5 s2 else s2

/-- R461: WAKE has fallen and stayed low for 30 µs. -/
def execWakePinEdge (s : State) : Out := .next (if pinsSeen s then latchSet 0 s else s)

/-- R670. -/
def execVioLoss (s : State) : Out := .next (updBoot (fun b => { b with vio := false }) s)
def execVioReturn (s : State) : Out := .next (updBoot (fun b => { b with vio := true }) s)

end Sys2Proof.Machine
end

