-- ==== Sys2Proof/Machine/Power.lean ====
section
/-! DEFINITION. Operating modes, sleep entries, wakes and the pads (R442 to R472). -/

namespace Sys2Proof.Machine

/-! ### Modes (R442, R445 to R447) -/

/-- The mode changes: the units that it stops stop, and the radio and the lanes follow (R118, R174, R229, R300, R318). -/
def enterMode (m : Mode) (s : State) : State :=
  let s1 := canarySettle (lanesStop (updPwr (fun p => { p with mode := m, drain := none }) s))
  let s2 := updTiming (fun t => { t with window := none, listen := if m = .leaf ∨ m = .relay then t.listen else none }) s1
  let s3 := updRadio (fun r => { r with pendHold := none }) s2
  linkKick (if m = .leaf then ownRestart s3 else s3)

/-- R69: the response of MODE_SET. -/
def modeRec (prev now : Mode) : List Byte := le 1 (modeCode prev) ++ le 1 (modeCode now) ++ le 2 0

/-- R446: a change into SERVICE: the LDR reset follows (log 86). -/
def intoService (s : State) : State :=
  updBoot (fun b => { b with delayed := some .ldr }) (updPwr (fun p => { p with changing := true }) (enterMode .service s))

/-- R446: a change out of SERVICE: NEXT_MODE is written and the SYS reset follows. -/
def outOfService (m : Mode) (s : State) : State :=
  updBoot (fun b => { b with delayed := some .sys }) (updPwr (fun p => { p with changing := true, nextMode := some m }) s)

/-- R69, R445. -/
def modeSet : CoreFn := fun c p s =>
  let m := codeMode (u8 p 0)
  let old := s.pwr.mode
  let service : Bool := m == .service
  guardR s [(decide (u8 p 0 ≤ 5), 0), rsv p 1 3] fun _ =>
    if m = .wide ∧ s.dev.variant = .face then errR s stABSENT 3
    else if !bit s.pwr.allowed (u8 p 0) then errR s stLOCKED 2
    else if s.pwr.drain.isSome || s.pwr.changing then busyR s 1
    else if m = old then okR s (modeRec old old)
    else if linkModes s && (m == .leaf || m == .relay || m == .wide) then okR (enterMode m s) (modeRec old m)
    else if linkModes s then
      pendR c s fun slot =>
        updTiming (fun t => { t with window := if exchange s then t.window else none }) (updPwr (fun q => { q with drain := some { target := m, slot := slot } }) s)
    else if service then okR (intoService s) (modeRec old .service)
    else if old = .service then okR (outOfService m s) (modeRec old m)
    else okR (enterMode m s) (modeRec old m)

def modeGet : CoreFn := fun _ _ s => okR s (le 1 (modeCode s.pwr.mode) ++ le 1 s.pwr.allowed.toNat ++ le 2 0)

def execModeSet (v : Srv) (s : State) : Out := .next (serve 0x0110 modeSet v s)
def execModeGet (v : Srv) (s : State) : Out := .next (serve 0x0111 modeGet v s)

/-- R445: no frame is in flight and no exchange is in progress: the mode changes. -/
def execModeDrainEnd (s : State) : Out :=
  .next <| match s.pwr.drain with
  | none => s
  | some d =>
    if inFlight s ≠ 0 ∨ exchange s then s
    else
      let old := s.pwr.mode
      complete d.slot 0 0 (modeRec old d.target) (if d.target = .service then intoService s else enterMode d.target s)

/-- R445: the drain has not ended within DRAIN_MS. -/
def execModeDrainTimeout (s : State) : Out :=
  .next <| match s.pwr.drain with
  | none => s
  | some d => complete d.slot stQUIESCE 5 (modeRec s.pwr.mode s.pwr.mode) (linkKick (updPwr (fun p => { p with drain := none }) s))

/-! ### Depths (R442, R450, R451) -/

/-- R450: the deepest state a mode allows that is not deeper than a request. -/
def modeDepth (m : Mode) (d : Depth) : Depth :=
  match m with
  | .shelf => if d = .nap then .doze else d
  | .watch => d
  | .leaf => d
  | .relay => shallower d .nap
  | _ => shallower d .doze

/-- R451: the application side's depth. -/
def sideDepth (s : State) : Depth := if s.pwr.hostPart then shallower s.pwr.appDepth s.pwr.hostDepth else s.pwr.appDepth

/-- MTIMEs of the network core's own events ahead: the link calendar's and those of retries and joins. -/
def netEvents (s : State) : List Nat :=
  (calWanted s).map (fun e => match e.2 with
    | .ownWindow _ => openFrom s e.1
    | .transmit _ => mtAdd e.1 (-(ms2 : Int))
    | _ => e.1) ++
  s.link.flight.filterMap (fun f => match f.phase with | .backoff t => some t | _ => none) ++
  (match s.link.join with | some j => [j.nextAt, j.endAt] | none => [])

/-- The earliest of the network core's events, by the ticks that it lies ahead. -/
def netAhead (s : State) : Option Nat :=
  (netEvents s).foldl (fun a t =>
    let d := if mtReached t s.clk.mtime then 0 else (t + mtMod - s.clk.mtime % mtMod) % mtMod
    match a with
    | none => some d
    | some x => some (min x d)) none

/-- What the network core does now and does not sleep through. -/
def netBusy (s : State) : Bool :=
  s.timing.window.isSome || s.timing.listen.isSome || exchange s || s.pwr.drain.isSome || s.pwr.changing || s.boot.delayed.isSome || s.mbx.survey.isSome ||
    s.canary.eventDue || !s.link.released.isEmpty ||
    s.link.flight.any (fun f => match f.phase with | .window _ => false | .backoff _ => false | .refused _ => false | .resync => false | _ => true)

/-- Ticks before an event at which the network core wakes from a state (log 88). -/
def wakeLead (d : Depth) : Nat := if d = .hibernate then usTicks 40000 else usTicks 1000

/-- R451: the network core's limit (log 88). -/
def netLimit (s : State) : Depth :=
  if netBusy s then .doze
  else match netAhead s with
    | none => .hibernate
    | some d => if d ≤ wakeLead .nap then .doze else if d ≤ wakeLead .hibernate then .nap else .hibernate

/-- R450, R451: the state that the device can now reach. -/
def sleepReach (s : State) : Depth := modeDepth s.pwr.mode (shallower (sideDepth s) (netLimit s))

/-! ### Preparation (R456) -/

/-- R456: the plane's operation cannot end within 64 µs: an erase, or a program with more than five units to go (R495). -/
def planeRefuses : Plane → Bool
  | .idle => false
  | .programming o => decide (5 * 16 < o.data.length - o.done)
  | _ => true

/-- R456: the first unit, by id, that refuses the entry (log 89). -/
def refuser (s : State) (d : Depth) : Option Nat :=
  let hib : Bool := d == .hibernate
  let shots (x : ShotState) : Bool := s.shots.buf.any (fun b => b.state == x)
  let capture : Bool := match s.mbx.survey with | some v => v.consistent && !v.captured | none => false
  let r := s.radio
  ([(0x01, shots .quiescing || (hib && (shots .armed || capture || s.mbx.chan.any (fun c => c != .idle)))),
    (0x02, r.onAir.isSome || r.owed.isSome || r.awaiting.isSome || r.held.isSome || s.canary.send.isSome || r.calJob.isSome || r.test.isSome || r.rssi.isSome ||
      r.cca.isSome),
    (0x03, laneBusy s),
    (0x05, hib && (decide (inFlight s ≠ 0) || s.link.join.isSome)),
    (0x0A, s.cipher.job.isSome || s.cipher.ctr.any (fun c => c.2.writing) || (match s.upd.job with | some (.check _) => true | _ => false)),
    (0x0B, planeRefuses s.flash.p0 || planeRefuses s.flash.p1 || !s.flash.waiting.isEmpty || !s.flash.jobs.isEmpty ||
      (match s.upd.job with | some (.begin _) => true | _ => false)),
    (0x20, s.se0.refuses), (0x21, s.se1.refuses), (0x22, s.adc.slot.isSome),
    (0x23, s.hostp.cs && !s.qm.stalls.any (fun t => t.master == .host))].find? (fun x => x.2)).map Prod.fst

/-- R459: an ended entry of the application side is counted. -/
def countEntry (id : Nat) (aborted : Bool) (d : Depth) (who : SleepWho) (s : State) : State :=
  if who = .net then s
  else updPwr (fun p => { p with refuse := if aborted then p.refuse else inc16 p.refuse, abort := if aborted then inc16 p.abort else p.abort, refId := id,
                                 refDepth := d, refAborted := aborted, refHost := who == .host }) s

/-- R452, R453: the request that started an entry ends without sleep; `result` is 2 or 3. -/
def requestEnds (who : SleepWho) (result : Nat) (s : State) : State :=
  match who with
  | .app => endAppSleep result s
  | .host => updPwr (fun p => { p with hostDepth := .none }) s
  | .net => s

/-- R365, R456: the stalled POP reads end with STALL_ABORTED. -/
def abortStalls (s : State) : State :=
  s.qm.stalls.foldl (fun a t => endStall t emptyToken (countEmpty (updQueue t.queue (fun x => { x with stallAborted := true }) a))) s

/-- R456: the preparation of an entry begins; the first refusal ends it. The network core sets its compare to its next event. -/
def sleepBegin (d : Depth) (who : SleepWho) (s : State) : State :=
  match refuser s d with
  | some id => requestEnds who 2 (countEntry id false d who s)
  | none =>
    let at_ := (netAhead s).map (fun n => mtAdd s.clk.mtime ((n - wakeLead d : Nat) : Int))
    let s1 := updPwr (fun p => { p with phase := .preparing, seeking := d, who := who, counted := who != .net, netTimer := at_,
                                        wakeEn := setBit p.wakeEn 6 at_.isSome }) s
    if d = .hibernate then abortStalls s1 else s1

/-- An application-side member has asked to sleep: the entry begins when the device can reach more than DOZE. -/
def sleepTry (who : SleepWho) (s : State) : State :=
  let d := sleepReach s
  if s.pwr.phase = .awake ∧ 2 ≤ depthCode d then sleepBegin d who s else s

def codeDepth : Nat → Depth
  | 1 => .doze | 2 => .nap | 3 => .hibernate | _ => .none

/-- R452: a write of PWR_SLEEP. -/
def sleepWrite (v : Word) (s : State) : State :=
  let d := codeDepth (v.toNat % 4)
  let s1 := updPwr (fun p => { p with sleepDepth := d }) s
  if !bit v 8 || d == .none then s1
  else sleepTry .app (updCore (fun c => { c with run := .stalledSleep }) (updPwr (fun p => { p with appDepth := d, result := 0, resultDepth := .none }) s1))

def execPwrSleepWrite (v : Word) (s : State) : Out := .next (if mayAccess s .app then sleepWrite v s else s)

/-- R453: the host acknowledges the response of PWR_SLEEP: its depth takes effect. -/
def hostSleeps (ch : Nat) (s : State) : State :=
  match s.pwr.hostWait with
  | none => s
  | some (c, d) => if c = ch then sleepTry .host (updPwr (fun p => { p with hostWait := none, hostDepth := if p.hostPart then d else p.hostDepth }) s) else s

/-- R455: the network firmware starts an entry while the application side sleeps. -/
def execNetworkScheduledSleep (d : Depth) (s : State) : Out :=
  .next <|
    let reach := modeDepth s.pwr.mode (shallower d (shallower (sideDepth s) (netLimit s)))
    if netRuns s && s.pwr.phase == .awake && decide (2 ≤ depthCode reach) then sleepBegin reach .net s else s

/-! ### Commit and entry (R448, R457, R458, R463, R465) -/

/-- Every unit has completed its work. -/
def unitsDone (s : State) : Bool := s.flash.p0 == .idle && s.flash.p1 == .idle && s.flash.waiting.isEmpty && !s.se0.busy && !s.se1.busy

/-- R448: the wake sources that stay enabled in SHELF. -/
def shelfSources (s : State) : BitVec 10 :=
  BitVec.ofNat 10 (((List.range 10).map (fun n => if (n < 3 ∨ n = 4) ∧ wakeEnabled s n then 2 ^ n else 0)).foldl (· + ·) 0)

/-- R448: on the commit edge of a HIBERNATE entry in SHELF the other wake latches are disabled and cleared. -/
def shelfDisable (s : State) : State :=
  if s.pwr.mode = .shelf ∧ s.pwr.seeking = .hibernate then
    let m := shelfSources s
    updPwr (fun p => { p with wakeEnSaved := some p.wakeEn, wakeEn := m, latch := p.latch &&& m }) s
  else s

/-- PWR_WAKEEN is restored at the wake (R448). -/
def shelfRestore (s : State) : State := updPwr (fun p => { p with wakeEn := p.wakeEnSaved.getD p.wakeEn, wakeEnSaved := none }) s

/-- R457: the entry aborts on a set latch; the network firmware clears its own compare. -/
def sleepAbort (s : State) : State :=
  let id := 0x10 + ((List.range 10).find? (fun n => bit s.pwr.latch n)).getD 0
  let who := s.pwr.who
  let s1 := shelfRestore (countEntry id true s.pwr.seeking who s)
  let s2 := updPwr (fun p => { p with phase := .awake, seeking := .none, netTimer := none, wakeEn := setBit p.wakeEn 6 false }) s1
  let s3 := deliverWake (requestEnds who 3 s2)
  linkKick (updPwr (fun p => { p with latch := setBit p.latch 6 false }) s3)

/-- R303, R463: network RAM banks to retain: the firmware adds bank 3 in LEAF with a schedule. -/
def netBanks (s : State) : BitVec 4 :=
  BitVec.ofNat 4 (s.pwr.cfg.netRetain ||| (if s.pwr.mode = .leaf ∧ s.timing.cfg.ownPeriod ≠ 0 then 8 else 0))

/-- R448, R458, R465, R690: what happens at the commit of a HIBERNATE entry. -/
def hibernateCommit (s : State) : State :=
  let s1 := updClk (fun c =>
    let stops : Bool := !c.lfxrdy
    { c with slowCount := slowChosen c, rate := if stops then .held else c.rate, gap := c.gap || stops, sync := c.sync && !stops }) s
  let s2 := { s1 with pads := { s1.pads with shadow := some (s1.pads.shadow.getD s1.pads.live) }, pwr := { s1.pwr with retainNet := netBanks s1 } }
  if s2.pwr.mode = .shelf ∧ s2.pwr.cfg.shelfRtc = 0 ∧ s2.clk.lfxrdy then
    let s3 := slowStops s2
    updClk (fun c => { c with rate := .held, gap := true, sync := false }) s3
  else s2

/-- R457: the commit edge. -/
def execSleepCommit (s : State) : Out :=
  .next <|
    if s.pwr.phase ≠ .preparing ∨ !unitsDone s then s
    else
      let s1 := shelfDisable s
      if s1.pwr.latch ≠ 0 then sleepAbort s1
      else
        let s2 := radioOff (updPwr (fun p => { p with phase := .committed, latchAt := none }) s1)
        if s.pwr.seeking = .hibernate then hibernateCommit s2 else s2

/-- R452: the state reached, for PWR_STAT of a stalled application core. -/
def reached (d : Depth) (s : State) : State :=
  let stalled : Bool := s.core.run == .stalledSleep
  updPwr (fun p => { p with phase := .asleep, result := if stalled && d == .hibernate then 1 else p.result,
                            resultDepth := if stalled then deeper p.resultDepth d else p.resultDepth }) s

/-- R458: NAP is reached: PLL0 off. -/
def execNapReached (s : State) : Out :=
  .next <|
    if s.pwr.phase = .committed ∧ s.pwr.seeking = .nap then reached .nap (updClk (fun c => { c with plllock := false, rootsrc := false }) s) else s

/-- R458: HIBERNATE is reached: CORE powers down; the reference stops after the next slow-clock edge (R34). -/
def execHibernateReached (s : State) : Out :=
  .next <|
    if s.pwr.phase = .committed ∧ s.pwr.seeking = .hibernate then
      reached .hibernate (updClk (fun c => { c with plllock := false, rootsrc := false, xordy := c.xordy && c.lfxrdy && c.rate == .reference }) s)
    else s

/-! ### Wakes (R398, R450, R460, R461) -/

/-- R398: at the wake each enabled shaper receives the refills of the edges passed, and flows whose times have passed are examined. -/
def schedCatchUp (s : State) : State :=
  let n := (s.clk.mtime + mtMod - s.sched.lastRefill % mtMod) % mtMod * 1000 / 2 ^ 24
  let s1 := refillMany n (updSched (fun x => { x with lastRefill := mtAdd x.lastRefill (refillTicks n : Nat) }) s)
  (s1.sched.flow.map Prod.fst).foldl wheelFlow s1

/-- R450: 12 µs after a latch in NAP. The network firmware clears its NETTIMER and SHOT latches. -/
def execNapWake (s : State) : Out :=
  .next <|
    if s.pwr.phase ≠ .asleep ∨ s.pwr.seeking ≠ .nap ∨ s.pwr.latch = 0 then s
    else
      let s1 := updPwr (fun p => { p with phase := .awake, seeking := .none, netTimer := none, wakeEn := setBit p.wakeEn 6 false }) (lastWake s)
      let s2 := deliverWake (updClk (fun c => { c with plllock := c.xordy, rootsrc := c.xordy }) s1)
      let s3 := updPwr (fun p => { p with latch := setBit (setBit p.latch 6 false) 9 false }) s2
      linkKick (schedCatchUp (shotsFall 4 (shotsFall 3 (rtcTellDue s3))))

/-- R461: the network core's compare is met. -/
def execNettimer (s : State) : Out :=
  .next <| match s.pwr.netTimer with
  | none => s
  | some t => if mtReached t s.clk.mtime then updPwr (fun p => { p with netTimer := none }) (latchSet 6 s) else s

/-- R462: a write of PWR_WAKEAT_LO. -/
def wakeAtWrite (v : Word) (s : State) : State := appTimer (updPwr (fun p => { p with wakeAt := v.toNat + 2 ^ 32 * p.wakeAtHi, armed := true }) s)

def execApptimerArm (v : Word) (s : State) : Out := .next (if mayAccess s .app then wakeAtWrite v s else s)
def execApptimer (s : State) : Out := .next (appTimer s)

/-- R461, R462: a write of PWR_WAKEEN: clearing an enable clears the latch. -/
def wakeEnWrite (v : Word) (s : State) : State :=
  let own : BitVec 10 := 0x0B7
  let s1 := updPwr (fun p => { p with wakeEn := (p.wakeEn &&& ~~~own) ||| (v.extractLsb' 0 10 &&& own) }) s
  let off := (List.range 10).filter (fun n => bit own n && !wakeEnabled s1 n)
  appTimer (updPwr (fun p => { p with latch := off.foldl (fun a n => setBit a n false) p.latch }) s1)

def execPwrWakeenWrite (v : Word) (s : State) : Out := .next (if mayAccess s .app then wakeEnWrite v s else s)

/-- R459: PWR_CLR.ACCT. -/
def acctClear (s : State) : State := updPwr (fun p => { p with refuse := 0, abort := 0, refId := 0, refDepth := .none, refAborted := false, refHost := false }) s

def execPwrClr (v : Word) (s : State) : Out := .next (if mayAccess s .app && bit v 0 then acctClear s else s)

/-! ### Pads (R465, R468) -/

/-- The registers that reads return and writes reach: the shadow while LATCHED is 1. -/
def Pads.regs (p : Pads) : PadRegs := p.shadow.getD p.live

def updPads (f : PadRegs → PadRegs) (s : State) : State :=
  { s with pads := match s.pads.shadow with
      | some r => { s.pads with shadow := some (f r) }
      | none => { s.pads with live := f s.pads.live } }

/-- R7: the pins of the variant. -/
def pinMask (s : State) : BitVec 20 := BitVec.ofNat 20 (2 ^ Config.gpio s.dev.variant - 1)

def outSet (v : Word) (s : State) : State := updPads (fun r => { r with out := r.out ||| (v.extractLsb' 0 20 &&& pinMask s) }) s
def outClr (v : Word) (s : State) : State := updPads (fun r => { r with out := r.out &&& ~~~(v.extractLsb' 0 20) }) s

/-- R465: RELEASE moves the shadow onto the pads. -/
def padsRelease (v : Word) (s : State) : State :=
  match s.pads.shadow with
  | some r => if bit v 0 then { s with pads := { s.pads with live := r, shadow := none } } else s
  | none => s

def execPadsRelease (v : Word) (s : State) : Out := .next (if mayAccess s .app then padsRelease v s else s)
def execPadsOutset (v : Word) (s : State) : Out := .next (if mayAccess s .app then outSet v s else s)
def execPadsOutclr (v : Word) (s : State) : Out := .next (if mayAccess s .app then outClr v s else s)

/-! ### Registers, records and commands (R467, R469 to R472) -/

def pwrModeReg (s : State) : Nat := modeCode s.pwr.mode + 8 * b2n s.pwr.drain.isSome + 256 * s.pwr.allowed.toNat
def pwrStatReg (s : State) : Nat :=
  let p := s.pwr
  depthCode p.resultDepth + 4 * p.result + 16 * depthCode p.appDepth + 64 * (if p.hostPart then depthCode p.hostDepth else 0) + 256 * b2n p.hostPart
def pwrWakeEnReg (s : State) : Nat := (setBit s.pwr.wakeEn 3 (canaryOn s)).toNat
def pwrRetainReg (s : State) : Nat := s.pwr.retainApp.toNat + 2 ^ 8 * s.pwr.retainNet.toNat + 2 ^ 12 * s.pwr.cfg.nbrRetain + 2 ^ 18 * s.pwr.cfg.poolRetain
def pwrAcctReg (s : State) : Nat := s.pwr.refuse + 2 ^ 16 * s.pwr.abort
def pwrRefuserReg (s : State) : Nat := s.pwr.refId + 256 * depthCode s.pwr.refDepth + 1024 * b2n s.pwr.refAborted + 2048 * b2n s.pwr.refHost
def pwrLwReg (s : State) : Nat := s.pwr.lwSource + 256 * s.pwr.lwDepth + 1024 * s.pwr.lwKind

def pwrCfgRec (s : State) : List Byte :=
  let c := s.pwr.cfg
  le 1 c.netRetain ++ le 1 c.nbrRetain ++ le 1 c.poolRetain ++ le 1 c.shelfExit ++ le 1 c.shelfWake.toNat ++ le 1 c.shelfRtc ++ le 1 c.watchFlags ++ le 1 0 ++
    le 2 c.drainMs ++ le 2 c.hostWake.toNat

def pwrStateRec (s : State) : List Byte :=
  let p := s.pwr
  le 1 (pwrModeReg s % 256) ++ le 1 p.allowed.toNat ++ le 1 (match p.nextMode with | some m => modeCode m | none => 0xFF) ++ le 1 (pwrStatReg s % 256) ++
    le 4 (pwrRetainReg s) ++ le 2 (pwrWakeEnReg s) ++ le 2 p.latch.toNat ++ le 2 p.wakeApp.toNat ++ le 2 0 ++ le 4 (pwrAcctReg s) ++ le 4 (pwrRefuserReg s) ++
    le 4 (pwrLwReg s) ++ le 8 p.lwMtime ++ le 4 p.lwRtc ++ le 8 (p.wakeAt + 2 ^ 63 * b2n p.armed)

/-- R472: the survey body of unit 0x0F. -/
def pwrSurvey (s : State) : List Byte := pwrCfgRec s ++ pwrStateRec s

def pwrStateGet : CoreFn := fun _ p s =>
  guardR s [(decide (u8 p 0 ≤ 1), 0), rsv p 1 3] fun _ => okR (if u8 p 0 = 1 then acctClear s else s) (pwrStateRec s)

def pwrCfgGet : CoreFn := fun _ _ s => okR s (pwrCfgRec s)

def pwrCfgSet : CoreFn := fun c p s =>
  let v := s.dev.variant
  guardR s [(decide (u8 p 0 < 16), 0), (u8 p 1 &&& Config.nbrBanks v == u8 p 1, 1), (u8 p 2 &&& Config.poolBanks v == u8 p 2, 2),
    (decide (1 ≤ u8 p 3 ∧ u8 p 3 ≤ 5), 3), (decide (u8 p 4 < 8), 4), (decide (u8 p 5 ≤ 1), 5), (decide (u8 p 6 ≤ 1), 6), rsv p 7 1,
    (decide (1 ≤ u16 p 8 ∧ u16 p 8 ≤ 60000), 8), (decide (u16 p 10 < 1024), 10), c.optsOk p 12, rsv p 13 3] fun _ =>
    let g : PwrCfg := { netRetain := u8 p 0, nbrRetain := u8 p 1, poolRetain := u8 p 2, shelfExit := u8 p 3, shelfWake := BitVec.ofNat 3 (u8 p 4),
                        shelfRtc := u8 p 5, watchFlags := u8 p 6, drainMs := u16 p 8, hostWake := BitVec.ofNat 10 (u16 p 10) }
    let t := updPwr (fun x => { x with cfg := g, retainNet := BitVec.ofNat 4 g.netRetain }) s
    persistR c (u8 p 12 == 1) 0 (okR t (pwrCfgRec t))

/-- R453, R471. -/
def pwrSleep : CoreFn := fun c p s =>
  guardR s [(c.req == .host, 0), (decide (1 ≤ u8 p 0 ∧ u8 p 0 ≤ 3), 0), rsv p 1 3] fun _ =>
    okR (updPwr (fun x => { x with hostWait := some (c.chan, codeDepth (u8 p 0)) }) s) []

def execPwrStateGet (v : Srv) (s : State) : Out := .next (serve 0x0F00 pwrStateGet v s)
def execPwrCfgSet (v : Srv) (s : State) : Out := .next (serve 0x0F01 pwrCfgSet v s)
def execPwrCfgGet (v : Srv) (s : State) : Out := .next (serve 0x0F02 pwrCfgGet v s)
def execPwrSleep (v : Srv) (s : State) : Out := .next (serve 0x0F10 pwrSleep v s)

/-! ### The canary's match (R236, R318, R449) -/

/-- R318: the node listens for RESYNC_LISTEN_MS on f[0] of its own channel sequence. -/
def resyncListen (s : State) : State :=
  match s.pwr.mode with
  | .leaf | .relay =>
    let till := mtAdd s.clk.mtime (usTicks (1000 * s.timing.cfg.resyncListenMs) : Nat)
    updTiming (fun t => { t with listen := some (till, seqTune s s.timing.cfg.ownChseq 0 s.clk.mtime) }) s
  | _ => s

/-- R449: in WATCH a unicast match moves the device to LEAF. -/
def matchToLeaf (s : State) : State :=
  if s.pwr.mode = .watch ∧ s.pwr.cfg.watchFlags = 1 ∧ bit s.pwr.allowed 2 then enterMode .leaf s else s

/-- R236, R247, R318, R449: the network core runs after a match: the event, the latch, and the listen of a unicast match. -/
def canaryServed (s : State) : State :=
  let c := s.canary
  let s1 := updPwr (fun p => { p with latch := setBit p.latch 3 false }) (updCanary (fun x => { x with eventDue := false }) s)
  let s2 := if c.cfg.matchBits.testBit 3 then raiseAt c.mMtime 0x8420 (le 4 c.mAddress ++ le 1 c.mGroup ++ le 1 c.mKind ++ le 1 c.mSlot ++ le 1 0) s1 else s1
  if c.mKind = 1 then linkKick (resyncListen (matchToLeaf s2)) else s2

def execCanaryMatch (s : State) : Out := .next (if s.canary.eventDue && netRuns s then canaryServed s else s)

end Sys2Proof.Machine
end

