-- ==== Sys2Proof/Machine/Clocks.lean ====
section
/-! DEFINITION. Clocks, the slow clock's calibration and mesh time (R25 to R36, R690), and the block's own time between commands. -/

namespace Sys2Proof.Machine

/-! ### The reference fails and returns (R28, R119) -/

/-- R119: what was on air is lost; its charge is what was radiated. -/
def airLost (s : State) : State :=
  match s.radio.onAir with
  | none => s
  | some q =>
    let us := min (airUs s) q.us
    let t := tallyCut q.resv us (updRadio (fun r => { r with onAir := none }) s)
    match q.who with
    | .frame id => attemptFailed id false t
    | .ack id => ackAbandoned id t
    | _ => txAbandoned q t

/-- R119: an acknowledgement that is awaited or owed cannot be received or sent. -/
def exchangeLost (s : State) : State :=
  let s1 := match s.radio.awaiting with | some id => attemptFailed id false s | none => s
  match s1.radio.owed with
  | some id => ackAbandoned id s1
  | none => s1

/-- R28, R34, R119: the monitor sees no reference edge while PLL0 is the root. -/
def refFails (s : State) : State :=
  let s1 := exchangeLost (abandonTold (airLost s))
  let s2 := radioOff (updRadio (fun r => { r with awaiting := none, owed := none, stats := { r.stats with refSleep := inc32 r.stats.refSleep } }) s1)
  linkKick (updClk (fun c => { c with rootfail := true, refFailed := true, refTry := false }) (refLost s2))

def execRefFail (s : State) : Out := .next (if s.clk.rootsrc then refFails s else s)

/-- R28: once per second the network firmware tries the reference again. -/
def execRefRetry (s : State) : Out := .next (if s.clk.refFailed && netRuns s then updClk (fun c => { c with refTry := true }) s else s)

/-- R690: MTIME still holds the 0 of a POR. -/
def Clk.unstarted (c : Clk) : Bool := c.rate == .held && c.mtime == 0 && c.frac == 0

/-- R690: the reference has become ready; without a slow-clock edge to wait for, MTIME goes on at once. -/
def refReady (s : State) : State :=
  updClk (fun c => { c with xordy := true, refTry := false,
                            rate := if c.rate == .held && (!c.lfxrdy || c.unstarted) then .reference else c.rate }) s

/-- XORDY: step 3 of R480, or the end of a failure. -/
def execXordy (s : State) : Out :=
  .next <|
    if s.boot.stage = .reference then updBoot (fun b => { b with stage := .pll }) (refReady s)
    else if s.clk.refTry then refReady s
    else s

/-- R553: the 32.768 kHz oscillator runs: the RTC counts. In SHELF with the RTC stopped it does not run during HIBERNATE (R448). -/
def execLfxrdy (s : State) : Out :=
  .next <|
    let shelf : Bool := s.pwr.mode == .shelf && s.pwr.cfg.shelfRtc == 0 && s.pwr.seeking == .hibernate && (s.pwr.phase == .committed || s.pwr.phase == .asleep)
    if s.boot.aonLost || shelf then s
    else updRtc (fun r => { r with run := true }) (updClk (fun c => { c with lfxrdy := true }) s)

/-! ### Calibration (R30) -/

/-- R30: a window of 1,024 slow-clock periods ends with its count of reference cycles. -/
def execScalWindowEnd (count : Nat) (s : State) : Out :=
  .next (if s.clk.rootsrc && s.clk.lfxrdy then updClk (fun c => { c with scalCount := count % 2 ^ 24, scalValid := true }) s else s)

/-! ### Mesh time (R33 to R36) -/

/-- R34: MTIME's own clocks are powered. -/
def mtimeRuns (s : State) : Bool := !s.boot.backup && !s.boot.aonLost

/-- R34, R690: the slow-clock edge at which the rates change over. After it the reference of a HIBERNATE entry stops. -/
def rateHandover (s : State) : State :=
  let down : Bool := s.pwr.seeking == .hibernate && s.pwr.phase == .asleep
  let on : Bool := s.clk.xordy && !down
  if !s.clk.lfxrdy || !mtimeRuns s then s
  else if on then updClk (fun c => { c with rate := .reference, slow := false }) s
  else if s.clk.unstarted then s
  else updClk (fun c => { c with rate := .slow, slow := c.refFailed && !down, xordy := false }) s

def execMtimeRateHandover (s : State) : Out := .next (rateHandover s)

/-- R36: a read of SYSCTL_MTIME_LO by the application core. -/
def mtimeLoRead (s : State) : State × Nat := (updClk (fun c => { c with mtimeHi := c.mtime / 2 ^ 32 }) s, s.clk.mtime % 2 ^ 32)

def execMtimeLoRead (s : State) : Out := .next (if mayAccess s .app then (mtimeLoRead s).1 else s)

/-! ### Time between commands (log 1) -/

/-- R309: an increment with the rate trim. -/
def trimmed (s : State) (n : Int) : Nat := (n + n * s.timing.cfg.trimPpb / 1000000000).toNat

/-- R33: units of 2^-32 tick that MTIME advances in one slow-clock period at the reference rate. -/
def refStep (s : State) : Nat := trimmed s ((s.clk.scalCount * 0x597A7E04 / 1024 : Nat) : Int)

/-- R33: the same at the slow rate. -/
def slowStep (s : State) : Nat := trimmed s ((512 * s.clk.slowCount * 2 ^ 32 / 1500000 : Nat) : Int)

/-- MTIME advances by units of 2^-32 tick. -/
def mtimeAdvance (n : Nat) (s : State) : State :=
  updClk (fun c => let v := c.mtime * 2 ^ 32 + c.frac + n; { c with mtime := v / 2 ^ 32 % mtMod, frac := v % 2 ^ 32 }) s

/-- One slow-clock period passes (log 1): MTIME, the RTC's sub-second, the tally's clock, the watchdog and the lockouts move on. A row
of its own ends each span: RTC_SECOND_ROLLOVER, BUCKET_ROLL, WDT_EXPIRE, AUTH_LOCKOUT_END. -/
def tick (s : State) : State :=
  let s1 := match s.clk.rate with
    | .reference => mtimeAdvance (refStep s) s
    | .slow => mtimeAdvance (slowStep s) s
    | .held => s
  let s2 := if !s.rtc.run then s1 else updRtc (fun r =>
    { r with now := { r.now with subsec := min 32767 (r.now.subsec + 1) }, app := { r.app with age := if r.app.frz then min 32769 (r.app.age + 1) else 0 },
             net := { r.net with age := if r.net.frz then min 32769 (r.net.age + 1) else 0 } }) s1
  if !s.clk.lfxrdy || !mtimeRuns s then s2
  else
    let s3 := updTally (fun t => { t with clock := min (bucketPeriods - 1) (t.clock + 1) }) s2
    let s4 := if wdgCounts s then updWdg (fun w => { w with cnt := if w.cnt ≤ 1 then w.cnt else w.cnt - 1 }) s3 else s3
    updMbx (fun m => { m with lockout := ⟨m.lockout.app - 1, m.lockout.host - 1, m.lockout.port - 1⟩ }) s4

/-- What the block does by itself when no command waits: a period passes and the units go on. -/
def idle (s : State) : State := if netRuns s then linkKick (tick s) else tick s

end Sys2Proof.Machine
end

