-- ==== Sys2Proof/Machine/Install.lean ====
section
/-! DEFINITION. Images: the checks of R522, the sources, and their installation (R520 to R534). -/

namespace Sys2Proof.Machine

/-! ### The header and its checks (R520 to R522) -/

/-- R522 check 1: MAGIC, CONTAINER, HEADER_LEN, IMAGE_TYPE, HCRC, and every reserved field and bit. -/
def headFormat (h : List Byte) : Bool :=
  u32 h 0 == 0x1A425854 && u16 h 4 == 1 && u16 h 6 == 256 && (u8 h 8 == 1 || u8 h 8 == 2) && decide (u8 h 9 < 8) && decide (u8 h 10 < 2) && zeros h 11 1 &&
    zeros h 18 2 && zeros h 24 8 && zeros h 192 60 && u32 h 252 == crc32 (slice h 0 252)

def ImgHead.of (h : List Byte) : ImgHead :=
  { type := u8 h 8, version := u32 h 12, settingsFormat := u16 h 16, signer := sha256 (slice h 64 64), bytes := slice h 0 256 }

/-- R520 ACTIVATION. -/
def ImgHead.scheduledOnly (h : ImgHead) : Bool := (u8 h.bytes 10).testBit 0

/-- R522 check 4. -/
def signerOk (o : OptBlock) (d : List Byte) : Bool :=
  d.any (· != 0) && (List.range 2).any (fun n => !(oByte o 0x060).testBit n && (List.range 32).map (fun i => tget 0 (0x020 + 32 * n + i) o.bytes) == d)

/-- R522 check 6. -/
def versionOk (o : OptBlock) (type version : Nat) : Bool := decide (oWord o (if type = 1 then 0x064 else 0x068) 4 ≤ version)

/-- R521: payload bytes that the target region holds. -/
def regionRoom (s : State) (type : Nat) : Nat := if type = 1 then 2096896 else 1024 * appKib s - 256

/-- R522: the code of the first check that fails, 0 when all pass; `limit` is the payload that the source can hold. -/
def imageCheck (s : State) (limit : Nat) (f : List Byte) : Nat :=
  let h := slice f 0 256
  let len := u32 h 20
  let pub := slice h 64 64
  if !headFormat h then 1
  else if len = 0 ∨ regionRoom s (u8 h 8) < len ∨ limit < len then 2
  else if !(u8 h 9).testBit (Config.variantCode s.dev.variant) then 3
  else if !signerOk s.boot.opt (sha256 pub) then 4
  else if ecdsaVerify (sha256 (slice h 0 128)) pub (slice h 128 64) ≠ 0 then 5
  else if !versionOk s.boot.opt (u8 h 8) (u32 h 12) then 6
  else if sha256 (slice f 256 len) ≠ slice h 32 32 then 7
  else 0

/-! ### Sources (R527 to R529) -/

/-- R527: array offset of the staged file. -/
def stageBase (s : State) : Nat := blk * (plane1Block s + 32) + 8192
/-- R527: payload that staging can hold. -/
def stageRoom : Nat := 4185856

/-- The staged image: its header, and the payload that the header declares. -/
def stagedFile (s : State) : List Byte :=
  let h := flashBytes s (stageBase s) 256
  h ++ flashBytes s (stageBase s + 256) (min (u32 h 20) stageRoom)

def stagedCheck (s : State) : Nat := imageCheck s stageRoom (stagedFile s)

/-- The header of the installed image of a type. -/
def installedHead (s : State) (type : Nat) : Option (List Byte) :=
  if type = 1 then s.upd.netfw.map (fun h => h.bytes) else some (flashBytes s appBase 256)

/-- R528: the files a card offers on a variant that has an SD host. -/
def cardFiles (s : State) (c : SdCard) : List (List Byte) :=
  match c with
  | .files _ fs => if Config.sdHost s.dev.variant then fs else []
  | _ => []

/-- R529: the first file of a type that qualifies. -/
def cardPick (s : State) (c : SdCard) (type : Nat) : Option (List Byte) :=
  (cardFiles s c).find? (fun f =>
    u8 f 8 == type && imageCheck s (f.length - 256) f == 0 && !(ImgHead.of f).scheduledOnly && installedHead s type != some (slice f 0 256))

/-- R544 SD, SD_BUS: the card as the device last saw it. -/
def seeCard (c : SdCard) (s : State) : State := if Config.sdHost s.dev.variant then updUpd (fun u => { u with card := c }) s else s

/-! ### Writing the region (R531, R532) -/

/-- First block and number of blocks of a type's region (R496). -/
def regionBlocks (s : State) (type : Nat) : Nat × Nat := if type = 1 then (32, 512) else (560, appBlocks s)

/-- The bytes of block `i` of an image, its last unit filled with zero bytes. -/
def imageBlock (img : List Byte) (i : Nat) : List Byte := padTo16 ((img.drop (blk * i)).take blk)

/-- R531: one block is erased with ORIGIN 2 and programmed. -/
def writeBlock (base : Nat) (img : List Byte) (s : State) (i : Nat) : State :=
  let d := imageBlock img i
  let t := eraseWhole .loader s (base + i)
  setWritten (256 * (base + i)) (d.length / 16) (flashStore (blk * (base + i)) d t)

/-- R532: a resumed installation skips a block that holds its part of the source. -/
def blockHolds (base : Nat) (img : List Byte) (s : State) (i : Nat) : Bool :=
  let d := imageBlock img i
  !s.flash.incomplete.contains (base + i) && flashBytes s (blk * (base + i)) d.length == d

/-- Staging returns to EMPTY (R525). -/
def stageEmpty (s : State) : State :=
  updUpd (fun u => { u with state := .empty, owner := none, size := 0, units := [], head := none, whenAt := none, returnMode := 0xFF, fromCard := false }) s

/-- R533: the installation stops: staging is INVALID and the target image incomplete. -/
def installStops (type result status : Nat) (s : State) : State :=
  updateTell status (updUpd (fun u => { u with state := .invalid, lastResult := result, broken := some type }) s)

/-- Block `i` of the image is written, unless a resumed install finds it there already (R532). -/
def putBlock (resume : Bool) (first : Nat) (img : List Byte) (a : State) (i : Nat) : State :=
  if resume && blockHolds first img a i then a else writeBlock first img a i

/-- A block behind the image is erased unless it is erased already (R531). -/
def clearBlock (a : State) (b : Nat) : State := if blockState a b = 0 then a else eraseWhole .loader a b

/-- R530, R531: an image that has passed its checks is installed. `bad` is a block whose read-back fails twice. -/
def install (bad : Option Nat) (resume card : Bool) (f : List Byte) (s : State) : State :=
  let h := ImgHead.of f
  let img := f.take (256 + u32 f 20)
  let r := regionBlocks s h.type
  let n := cdiv img.length blk
  let s0 := updUpd (fun u => { u with state := .installing, fromCard := card, head := some h, netfw := if h.type = 1 then none else u.netfw }) s
  let stop : Option Nat := match bad with
    | some b => if r.1 ≤ b ∧ b < r.1 + n then some (b - r.1) else none
    | none => none
  match stop with
  | some k =>
    let s1 := (List.range k).foldl (putBlock resume r.1 img) s0
    let s2 := writeBlock r.1 img (writeBlock r.1 img s1 k) k
    installStops h.type 9 stFLASH (spoilBlock (r.1 + k) s2)
  | none =>
    let s1 := (List.range n).foldl (putBlock resume r.1 img) s0
    let s2 := (List.range' (r.1 + n) (r.2 - n)).foldl clearBlock s1
    let s3 := updUpd (fun u =>
      { u with state := .empty, lastResult := 11, broken := if u.broken = some h.type then none else u.broken,
               netfw := if h.type = 1 then some h else u.netfw }) s2
    let s4 := if h.type = 1 then { s3 with dev := { s3.dev with fwVersion := h.version, settingsFormat := h.settingsFormat } } else s3
    stageEmpty (updateTell 0 s4)

/-- R529: the card installation of one type, when a file qualifies. -/
def cardInstall (env : BootEnv) (type : Nat) (s : State) : State :=
  match cardPick s env.card type with
  | some f => install env.badBlock false true f s
  | none => s

/-! ### Step 4: the pending update (R530, R532, R534, R548) -/

/-- R530: a staged file is checked whole and installed; a file that fails leaves the running image untouched. -/
def installStaged (env : BootEnv) (s : State) : State :=
  let c := stagedCheck s
  if c = 0 then install env.badBlock false false (stagedFile s) s
  else
    let s1 := updateTell 0 (updUpd (fun u => { u with lastResult := c, state := .empty }) s)
    stageEmpty s1

/-- R532: the source of the interrupted installation, when it is still there and still passes. -/
def resumeSource (env : BootEnv) (s : State) : Option (List Byte) :=
  let want := s.upd.head.map (fun h => h.bytes)
  let found := if s.upd.fromCard then (cardFiles s env.card).find? (fun f => some (slice f 0 256) == want)
    else if some ((stagedFile s).take 256) = want then some (stagedFile s) else none
  match found with
  | some f => if imageCheck s (if s.upd.fromCard then f.length - 256 else stageRoom) f = 0 then some f else none
  | none => none

/-- Step 4 of R480: what is pending is installed; `act` tells that the start-up is an activation. -/
def pendingUpdate (env : BootEnv) (act : Bool) (s : State) : State :=
  match s.upd.state with
  | .installing =>
    (match resumeSource env s with
     | some f => install env.badBlock true s.upd.fromCard f s
     | none => installStops ((s.upd.head.map (fun h => h.type)).getD 1) 8 0 s)
  | .committed => installStaged env s
  | .scheduled => if act then installStaged env s else s
  | _ => s

/-- R482: the network firmware image is whole and its signer and version are accepted (log 102). -/
def netfwOk (s : State) : Bool :=
  match s.upd.netfw with
  | some h => signerOk s.boot.opt h.signer && versionOk s.boot.opt 1 h.version
  | none => false

/-- R533: a staged network firmware image that can end the wait. -/
def stagedNetfw (s : State) : Bool :=
  (match s.upd.state with | .verified => true | .committed => true | .scheduled => true | _ => false) &&
    u8 (stagedFile s) 8 == 1 && stagedCheck s == 0

end Sys2Proof.Machine
end

