-- ==== Sys2Proof/Machine/PortOps.lean ====
section
/-! DEFINITION. Port memory and its journal, the credential record and the events of the commissioning port (R577, R578, R589, R599). -/

namespace Sys2Proof.Machine

/-- R577: `n` bytes of port memory from an address. -/
def portBytes (s : State) (a : Nat) : Nat → List Byte
  | 0 => []
  | n + 1 => tget 0 a s.port.mem :: portBytes s (a + 1) n

/-- R577: the 32 bytes of a block. -/
def portBlock (s : State) (b : Nat) : List Byte := portBytes s (32 * b) 32

/-- R578 stage 2: the target block is written. -/
def portStore (b : Nat) (l : List Byte) (s : State) : State := updPort (fun p => { p with mem := wrTab p.mem (32 * b) (slice l 0 32) }) s

def portWritten (s : State) : State := updPort (fun p => { p with blockWrites := inc32 p.blockWrites }) s

/-- R578: a block write. With `ok` false both read-backs disagree: the journal stays complete and what the block holds is open. -/
def portWrite (b : Nat) (l : List Byte) (ok : Bool) (s : State) : State :=
  if ok then portWritten (portStore b l s)
  else
    let f := freshBytes 32 s
    updPort (fun p => { p with journal := some { block := b, bytes := slice l 0 32, complete := true } }) (portWritten (portStore b f.1 f.2))

/-- R578: at the power-up of the PORT domain a complete journal is replayed, an incomplete one discarded. -/
def portPowerUp (s : State) : State :=
  match s.port.journal with
  | none => s
  | some j =>
    updPort (fun p => { p with journal := none, tears := inc32 p.tears }) (if j.complete then portStore j.block j.bytes s else s)

/-! ### The credential (R588, R589, R599) -/

def credState (s : State) : Nat := u8 (portBlock s 8) 0
def credLen (s : State) : Nat := min (u16 (portBlock s 8) 2) 224
def credData (s : State) : List Byte := portBytes s (32 * 9) (credLen s)

/-- R589: the header's STATE is rewritten. -/
def credMark (v : Byte) (s : State) : State := portWrite 8 (v :: (portBlock s 8).drop 1) true s

/-- R589: what the network firmware does with a STAGED record after SYS_READY. -/
def credTake (s : State) : State :=
  if credState s ≠ 1 then s
  else
    let h := portBlock s 8
    let good : Bool := decide (u16 h 2 ≤ 224) && crc32 (credData s) == u32 h 12
    let head (n : Nat) : List Byte := le 1 (b2n !good) ++ slice h 1 1 ++ le 2 n ++ slice h 4 1 ++ le 3 0
    if good then credMark 2 (raise 0x8E40 (head (credLen s) ++ credData s) s) else credMark 0 (raise 0x8E40 (head 0) s)

/-- R576: the identity payload of the values in force. -/
def identityNow (s : State) : List Byte :=
  le 1 1 ++ le 1 (Config.variantCode s.dev.variant) ++ le 2 s.dev.stepping ++ s.dev.eui64 ++ le 4 s.dev.fwVersion ++ s.port.uid ++ le 1 (modeCode s.pwr.mode)

/-- R576: step 5 rewrites the payload when it differs. -/
def identityWrite (s : State) : State :=
  if s.port.identity = identityNow s then s else portWritten (updPort (fun p => { p with identity := identityNow s }) s)

/-- R587, R599: PORT_PW_LOCKED of a slot. -/
def lockedEvent (slot : Nat) (s : State) : State := raise 0x8E41 (le 1 slot ++ le 3 0) s

/-- R587: raised now, or the next time the network firmware runs. -/
def lockedTell (slot : Nat) (s : State) : State :=
  if netRuns s then lockedEvent slot s else updPort (fun p => { p with lockedDue := p.lockedDue ++ [slot] }) s

def lockedTellDue (s : State) : State := s.port.lockedDue.foldl (fun a n => lockedEvent n a) (updPort (fun p => { p with lockedDue := [] }) s)

end Sys2Proof.Machine
end

