-- ==== Sys2Proof/Machine/StartUp.lean ====
section
/-! DEFINITION. Start-up from step 4 of R480: the loader, the network firmware's start, SYS_READY and the release of the application core. -/

namespace Sys2Proof.Machine

/-! ### The loader (R482, R488, R533) -/

/-- R488: copy `n` is rewritten when it differs from the block in force. -/
def repairCopy (second fails : Bool) (s : State) : State :=
  let want : OptBlock := { s.boot.opt with crcOk := true }
  if (if second then s.boot.copy2 else s.boot.copy1) = want ∨ fails then s
  else updBoot (fun b => if second then { b with copy2 := want, repaired := true } else { b with copy1 := want, repaired := true }) s

/-- R488, R490: copy 2 first; nothing is repaired under the safe defaults. -/
def optionRepair (env : BootEnv) (s : State) : State :=
  if s.boot.optCopy = 3 then s else repairCopy false env.copy1Fails (repairCopy true env.copy2Fails s)

/-- R483, R533: the loader holds SERVICE and serves the mailboxes itself; the application core is released. -/
def loaderWaits (s : State) : State :=
  let s1 := loadKeys (s.boot.kind == .por) s
  releaseCore { s1 with
    boot := { s1.boot with stage := .loader }, pwr := { s1.pwr with mode := .service, nextMode := none },
    upd := { s1.upd with broken := some 1 } }

/-! ### The working configuration (R491, R538 to R540) -/

/-- The defaults of each chapter. -/
def Settings.default : Settings := snapshot State.reset

/-- R132, R152: ORIGIN 1 is the factory table of the device. -/
def RadioCfg.ownComp (c : RadioCfg) (s : State) : RadioCfg := if c.origin = 1 then { c with comp := s.dev.factoryComp } else c

/-- What network RAM bank 0 holds (R491). -/
def applyBank0 (b : Settings) (s : State) : State :=
  let c := b.radio.ownComp s
  { s with
    radio := { s.radio with cfg := c, home := c.home, div := c.div, ext := c.ext },
    lanes := { s.lanes with profile := b.profiles,
                            lane := (List.range 16).map (fun i => { at_ Lane.reset s.lanes.lane i with cfg := at_ LaneCfg.reset b.lanes i, next := none }) },
    link := { s.link with cfg := b.link, route := b.routes, parent := b.parent },
    timing := { s.timing with cfg := b.timing, chseq := b.chseq, chseqOld := [] },
    qm := { s.qm with reserve := b.reserve,
                      queue := b.queues.foldl (fun t q => tset .reset q.1 { tget Queue.reset q.1 t with kind := q.2.1, limit := q.2.2.1, stall := q.2.2.2 } t) s.qm.queue },
    sched := { s.sched with flow := b.flows.foldl (fun t f => tset .reset f.1 { Flow.reset with cfg := f.2 } t) [],
                            shaper := b.shapers.foldl (fun t h => tset .reset h.1 { Shaper.reset with cfg := h.2 } t) [] } }

/-- The canary's configuration and the tally's band table, held in AON (R243, R334). -/
def applyAon (b : Settings) (s : State) : State :=
  { s with
    canary := { s.canary with cfg := b.canary, next := none },
    tally := { s.tally with outside := b.outside, band := (List.range 16).map (fun i => { at_ Band.reset s.tally.band i with cfg := at_ BandCfg.reset b.bands i }) } }

/-- R266: neighbour entries return where `lost` says that their bank is lost. -/
def applyNbrs (lost : Nat → Bool) (b : Settings) (s : State) : State :=
  updLink (fun l => { l with nbr := (b.nbrs.filter (fun e => lost e.1)).foldl (fun t e => tset .blank e.1 e.2 t) l.nbr }) s

/-- R539: the block of highest GEN whose FORMAT the firmware knows (log 103). -/
def chosenBlock (s : State) : Option SettingsBlock :=
  let known (b : Option SettingsBlock) : Option SettingsBlock := b.filter (fun x => decide (x.format ≤ s.dev.settingsFormat))
  match known s.upd.setA, known s.upd.setB with
  | some a, some b => if a.gen < b.gen then some b else some a
  | a, none => a
  | none, b => b

/-- R539: FOUND_FORMAT of SETTINGS_DEFAULT. -/
def foundFormat (s : State) : Nat :=
  match s.upd.setA, s.upd.setB with
  | some a, some b => if a.gen < b.gen then b.format else a.format
  | some a, none => a.format
  | none, some b => b.format
  | none, none => 0

/-- Step 5 for the kinds that rebuild everything (R491); the settings of R470 only at POR. -/
def rebuild (s : State) : State :=
  let b := ((chosenBlock s).map (fun x => x.body)).getD .default
  let s1 := applyNbrs (fun _ => true) b (applyAon b (applyBank0 b s))
  if s.boot.kind = .por then updPwr (fun p => { p with cfg := b.pwr, retainNet := BitVec.ofNat 4 b.pwr.netRetain }) s1 else s1

/-- Step 5 at WAKE: what was in a lost bank is rebuilt (R464, R491). -/
def rebuildLost (s : State) : State :=
  let b := ((chosenBlock s).map (fun x => x.body)).getD .default
  let s1 := if bit s.pwr.retainNet 0 then s else applyBank0 b s
  applyNbrs (fun i => !s.pwr.cfg.nbrRetain.testBit (i / 1024)) b s1

/-- R539: with no usable block the defaults are in force and SETTINGS_DEFAULT tells it. -/
def settingsTell (s : State) : State :=
  if (chosenBlock s).isSome then s else raise 0x8C41 (le 2 (foundFormat s) ++ le 2 0) (updBoot (fun b => { b with setDef := true }) s)

/-- R540: step 6: a block of another format is written anew in the running one; the conversion keeps every setting (log 104). -/
def migrate (fails : Bool) (s : State) : State :=
  match chosenBlock s with
  | none => s
  | some b =>
    if b.format = s.dev.settingsFormat then s
    else
      let s1 := updBoot (fun x => { x with migrated := true }) s
      if fails then updateTell stFLASH s1
      else
        let n : SettingsBlock := { gen := b.gen + 1, format := s.dev.settingsFormat, body := b.body }
        updUpd (fun u => if u.setA = some b then { u with setB := some n } else { u with setA := some n }) s1

/-! ### The mode (R444, R448, R490, R533) -/

/-- The mode that start-up enters, and whether SERVICE replaces another. -/
def startMode (s : State) : Mode × Bool :=
  let wake : Bool := s.boot.kind == .wake
  let m := s.pwr.nextMode.getD (if wake then s.pwr.mode else codeMode (oByte s.boot.opt 0x00D))
  if s.boot.kind = .ldr then (.service, false)
  else if wake && s.pwr.nextMode.isNone then (m, s.boot.forced)
  else if (m != .service) && (!bit s.pwr.allowed (modeCode m) || (m == .wide && s.dev.variant == .face) || s.boot.optCopy == 3 || s.upd.broken == some 2) then
    (.service, true)
  else (m, s.boot.optCopy == 3)

/-! ### SYS_READY and the release (R64, R461, R480 step 7) -/

/-- R64: SYS_READY precedes every other event of the start-up. -/
def sysReady (s : State) : State :=
  let e : Ev :=
    { op := 0x8100, kind := .ordinary, auth := none,
      payload := le 8 s.clk.mtime ++ le 1 s.boot.causeNet ++ le 1 (modeCode s.pwr.mode) ++ le 1 (if s.boot.optCopy = 3 then 0xFF else s.boot.optCopy) ++
        le 1 (b2n s.boot.migrated) ++ le 4 s.dev.fwVersion }
  let front (q : EvQueue) : EvQueue := { q with events := (e :: q.events).take 64 }
  updMbx (fun m => { m with netrdy := true, q6 := front m.q6, q7 := if ch7Active s then front m.q7 else m.q7 }) s

/-- R547: the first start-up after a switchover that set BKSW raises RTC_ALERT with reason 3; here the reasons that wait are told. -/
def updateTellDue (s : State) : State :=
  s.upd.due.foldl (fun a e => raise 0x8C40 (le 2 e.1 ++ le 1 e.2.1 ++ le 1 e.2.2.1 ++ le 4 e.2.2.2) a) (updUpd (fun u => { u with due := [] }) s)

/-- Step 7: the application core's release (R461, R476, R483, R533). -/
def startCore (shelf : Bool) (s : State) : State :=
  if s.boot.kind = .wake then
    let s1 := deliverWake s
    if shelf && !s1.boot.released && s1.upd.broken != some 2 then releaseCore s1 else s1
  else if s.upd.broken = some 2 then s else releaseCore s

/-- Steps 5 to 7 of R480. -/
def firmwareStart (setFails : Bool) (s : State) : State :=
  let wake : Bool := s.boot.kind == .wake
  let shelf : Bool := wake && s.pwr.nextMode.isSome
  let s1 := loadKeys (s.boot.kind == .por) s
  let s2 := if wake then rebuildLost s1 else migrate setFails (settingsTell (rebuild s1))
  let m := startMode s2
  let s3 := updPwr (fun p => { p with nextMode := none, wakeEn := p.wakeEn ||| 0x300 }) (updBoot (fun b => { b with forced := m.2 }) s2)
  let s4 := { s3 with boot := { s3.boot with stage := .up }, tally := { s3.tally with ready := true }, pwr := { s3.pwr with mode := m.1 } }
  let s5 := if wake && !s.canary.eventDue && m.1 == s.pwr.mode && bit s.pwr.retainNet 0 then canarySettle s4 else enterMode m.1 s4
  let s6 := identityWrite (schedRestart s5)
  let s7 := if wake && s.canary.eventDue && s.canary.mKind == 1 then matchToLeaf s6 else s6
  let s8 := credTake (lockedTellDue (updateTellDue (rtcTellDue (sysReady s7))))
  let s9 := if s8.canary.eventDue then canaryServed s8 else s8
  let s10 := startCore shelf s9
  linkKick (updPwr (fun p => { p with latch := setBit (setBit p.latch 6 false) 9 false }) s10)

/-- Step 4 of R480 and what follows it. -/
def loaderRuns (env : BootEnv) (s : State) : State :=
  let act : Bool := s.boot.activation || s.rtc.actHeld
  let back := s.upd.returnMode
  let s1 := seeCard (if s.boot.kind = .ldr then env.card else s.upd.card) (optionRepair env (journalStart true (updBoot (fun b => { b with imgFull := true }) s)))
  let s2 := pendingUpdate env act (updRtc (fun r => { r with actHeld := false }) s1)
  let done : Bool := s2.upd.lastResult == 11 && s2.upd.state == .empty && s1.upd.state != .empty
  if act && done then takeReset .sys false (updPwr (fun p => { p with nextMode := some (codeMode back) }) s2)
  else
    let s3 := if s.boot.kind == .ldr && !s.boot.activation then cardInstall env 2 (cardInstall env 1 s2) else s2
    let s4 :=
      if netfwOk s3 then s3
      else if stagedNetfw s3 then install env.badBlock false false (stagedFile s3) s3
      else cardInstall env 1 (seeCard env.card s3)
    if netfwOk s4 then firmwareStart env.setFails s4 else loaderWaits s4

/-- PLL0 has locked: the root switches and start-up goes on, or the root returns after a failure (R26, R28). -/
def pllLocks (env : BootEnv) (s : State) : State :=
  let s1 := updClk (fun c => { c with plllock := true, rootsrc := true, refFailed := false }) s
  if s.boot.stage = .pll then (if s.boot.kind = .wake then firmwareStart false (journalStart false s1) else loaderRuns env s1)
  else if s.clk.refFailed && s.clk.xordy && !s.clk.rootsrc then linkKick s1
  else s

def execPllLock (env : BootEnv) (s : State) : Out := .next (pllLocks env s)

end Sys2Proof.Machine
end

