-- ==== Sys2Proof/Machine/Update.lean ====
section
/-! DEFINITION. Firmware update: staging, its commands and the card search (R524 to R545), and HASH_RUN (R439). -/

namespace Sys2Proof.Machine

/-! ### Records (R544) -/

def stageCode : StageState → Nat
  | .empty => 0 | .receiving => 1 | .verified => 2 | .committed => 3 | .scheduled => 4 | .installing => 5 | .invalid => 6

/-- R542 WRITTEN: bytes of the file programmed so far. -/
def stageWritten (u : Upd) : Nat := (u.units.map (fun x => min 16 (u.size - 16 * x.1))).foldl (· + ·) 0

/-- R544 APP_VERSION. -/
def appVersion (s : State) : Nat := let h := flashBytes s appBase 256; if headFormat h && u8 h 8 == 2 then u32 h 12 else 0xFFFFFFFF

/-- R544 SD and SD_BUS. -/
def cardCode (s : State) : Nat × Nat :=
  if !Config.sdHost s.dev.variant then (0, 0)
  else match s.upd.card with
    | .none => (1, 0)
    | .unreadable => (3, 0)
    | .files bus _ => (2, bus % 4)

/-- R544. -/
def updateRec (s : State) : List Byte :=
  let u := s.upd
  le 1 (stageCode u.state) ++ le 1 ((u.head.map (fun h => h.type)).getD 0) ++ le 1 u.lastResult ++ le 1 u.returnMode ++
    le 4 ((u.head.map (fun h => h.version)).getD 0) ++ le 4 u.size ++ le 4 (stageWritten u) ++
    (match u.whenAt with | some d => dateBytes d | none => le 8 0) ++ le 4 s.dev.fwVersion ++ le 4 (appVersion s) ++
    le 1 (cardCode s).1 ++ le 1 (cardCode s).2 ++ le 1 (b2n (u.broken == some 2) + 2 * b2n s.rtc.act.isSome) ++ le 1 0

def updateStateGet : CoreFn := fun _ _ s => okR s (updateRec s)

/-! ### Staging (R525 to R527, R542) -/

/-- R525, R541: the requester owns staging and staging is in a state that the command needs. -/
def stageOk (c : Ctx) (s : State) (need : StageState → Bool) : Bool := s.upd.owner == some c.req && need s.upd.state

/-- R542: a file may be staged in EMPTY, VERIFIED and INVALID (R525). -/
def updateStageBegin : CoreFn := fun c p s =>
  guardR s [(decide (257 ≤ u32 p 0 ∧ u32 p 0 ≤ 4186112), 0), rsv p 4 4] fun _ =>
    match s.upd.state with
    | .empty | .verified | .invalid =>
      pendR c s fun slot =>
        updUpd (fun u => { u with state := .receiving, owner := some c.req, size := u32 p 0, units := [], head := none, whenAt := none, returnMode := 0xFF,
                                  job := some (.begin slot) }) s
    | _ => busyR s 0x0C

/-- Blocks of the staged file. -/
def stageBlocks (s : State) : List Nat := List.range' (stageBase s / blk) (cdiv s.upd.size blk)

/-- R542: the erases end; `fail` is the block whose erase failed. -/
def execUpdateStageBeginDone (fail : Option Nat) (s : State) : Out :=
  .next <| match s.upd.job with
  | some (.begin slot) =>
    let s1 := updUpd (fun u => { u with job := none }) ((stageBlocks s).foldl (fun a b => if blockState a b = 0 then a else eraseWhole .net a b) s)
    (match fail with
     | none => complete slot 0 0 [] s1
     | some b => complete slot stFLASH (b % 65536) [] s1)
  | _ => s

/-- R526: the bytes of `n` from file offset `o` that stand in flash. -/
def stageData (s : State) (o n : Nat) : List Byte := flashBytes s (stageBase s + o) n

/-- R526: units from `u`, of `n`, are programmed. -/
def stageUnits (u n : Nat) (s : State) : State :=
  updUpd (fun x => { x with units := (List.range' u n).foldl (fun t i => tset false i true t) x.units }) s

/-- R526: a unit that holds exactly its part of DATA, or none, agrees with the write. -/
def unitAgrees (s : State) (o : Nat) (d : List Byte) (i : Nat) : Bool :=
  !(tget false (o / 16 + i) s.upd.units) || stageData s (o + 16 * i) 16 == slice d (16 * i) 16

/-- R526: any write in VERIFIED returns staging to RECEIVING, except one that changes nothing (log 105). -/
def updateStageWrite : CoreFn := fun c p s =>
  let o := u32 p 0
  let n := u16 p 4
  let d := slice p 8 n
  let end_ := (s.upd.size + 15) / 16 * 16
  let us := List.range (n / 16)
  guardR s [(o % 16 == 0, 0), (decide (16 ≤ n ∧ n ≤ 224) && n % 16 == 0, 4), rsv p 6 2] fun _ =>
    if !stageOk c s (fun x => x == .receiving || x == .verified) then busyR s 0x0C
    else if end_ < o + n then badR s 0
    else if us.all (fun i => tget false (o / 16 + i) s.upd.units) && stageData s o n == d then okR s (le 4 (stageWritten s.upd))
    else if us.any (fun i => !unitAgrees s o d i) then badR s 0
    else
      let s1 := updUpd (fun u => { u with state := .receiving, head := none }) s
      match c.failAt 0 with
      | some b =>
        let bad := (us.filter (fun i => !(tget false (o / 16 + i) s.upd.units))).map (fun i => (stageBase s + o) / 16 + i)
        errR (bad.foldl (fun a u => spoilUnit u a) (stageUnits (o / 16) (n / 16) s1)) stFLASH (b % 65536)
      | none =>
        let s2 := setWritten ((stageBase s + o) / 16) (n / 16) (flashStore (stageBase s + o) d (stageUnits (o / 16) (n / 16) s1))
        okR s2 (le 4 (stageWritten s2.upd))

def updateStageCheck : CoreFn := fun c _ s =>
  if !stageOk c s (fun x => x == .receiving) then busyR s 0x0C
  else pendR c s fun slot => updUpd (fun u => { u with job := some (.check slot) }) s

/-- R542: the check of the staged file ends. The file is read in plane 1 (R499). -/
def execUpdateStageCheckDone (s : State) : Out :=
  .next <| match s.upd.job with
  | some (.check slot) =>
    let f := stagedFile s
    let c := imageCheck s stageRoom f
    let h := ImgHead.of f
    let s1 := ((flashRead (stageBase s) f.length true s).getD (s, [], 0)).1
    let s2 := updUpd (fun u => { u with job := none, lastResult := c, state := if c = 0 then .verified else .receiving, head := if c = 0 then some h else none }) s1
    complete slot 0 0 (le 1 c ++ le 1 h.type ++ le 2 0 ++ le 4 h.version) s2
  | _ => s

/-! ### Activation (R533, R535 to R537, R543) -/

/-- R543: a mode code, or 0xFF. -/
def returnModeOk (m : Nat) : Bool := decide (m ≤ 5) || m == 0xFF
def returnModeOf (s : State) (m : Nat) : Nat := if m = 0xFF then modeCode s.pwr.mode else m

/-- R524: the state change is stored before the command answers; a store that fails changes nothing. -/
def storeState (c : Ctx) (s : State) (go : Unit → Res) : Res :=
  match c.failAt 0 with
  | some b => errR s stFLASH (b % 65536)
  | none => go ()

/-- R533: a committed file of the image type that is incomplete is installed at once; the wait ends when it is installed. -/
def endWait (bad : Option Nat) (s : State) : State :=
  let type := (s.upd.head.map (fun h => h.type)).getD 0
  if s.upd.broken ≠ some type ∨ s.upd.state ≠ .committed then s
  else
    let t := installStaged { card := .none, badBlock := bad, copy1Fails := false, copy2Fails := false, setFails := false } s
    if t.upd.broken.isSome then t
    else if t.boot.stage = .loader then (if netfwOk t then firmwareStart false t else t)
    else releaseCore t

def updateCommit : CoreFn := fun c p s =>
  guardR s [(decide (u8 p 0 ≤ 1), 0), (returnModeOk (u8 p 1), 1), rsv p 2 2] fun _ =>
    if !stageOk c s (fun x => x == .verified) then busyR s 0x0C
    else if (s.upd.head.map ImgHead.scheduledOnly).getD false then badR s 0
    else storeState c s fun _ =>
      let s1 := updUpd (fun u => { u with state := .committed, returnMode := returnModeOf s (u8 p 1) }) s
      let s2 := if u8 p 0 = 1 then updBoot (fun b => { b with delayed := some .act }) s1 else s1
      let t := endWait (c.failAt 1) s2
      if firmwareServes t then okR t (updateRec s1) else ⟨t, noAnswer, 0, []⟩

/-- R536, R537, R560: the match is armed at WHEN. -/
def updateSchedule : CoreFn := fun c p s =>
  let d := dateOf p 4
  guardR s [(returnModeOk (u8 p 0), 0), rsv p 1 3, rsv p 11 1] fun _ =>
    if !stageOk c s (fun x => x == .verified || x == .scheduled) then busyR s 0x0C
    else if s.rtc.osf then errR s stTIME 0
    else if !dateOk d || decide (dateSeconds d ≤ dateSeconds s.rtc.now.date) then badR s 0
    else storeState c s fun _ =>
      let s1 := updRtc (fun r => { r with act := some d }) (updUpd (fun u => { u with state := .scheduled, whenAt := some d, returnMode := returnModeOf s (u8 p 0) }) s)
      okR s1 (updateRec s1)

/-- R543: COMMITTED or SCHEDULED returns to VERIFIED; with DISCARD any state but INSTALLING to EMPTY. -/
def updateCancel : CoreFn := fun c p s =>
  let discard : Bool := u8 p 0 == 1
  guardR s [(decide (u8 p 0 ≤ 1), 0), rsv p 1 3] fun _ =>
    if !stageOk c s (fun x => if discard then x != .installing && x != .empty else x == .committed || x == .scheduled) then busyR s 0x0C
    else storeState c s fun _ =>
      let s1 := updRtc (fun r => { r with act := none }) s
      let s2 := if discard then stageEmpty s1 else updUpd (fun u => { u with state := .verified, whenAt := none, returnMode := 0xFF }) s1
      okR s2 (updateRec s2)

def execUpdateStateGet (v : Srv) (s : State) : Out := .next (serve 0x0C00 updateStateGet v s)
def execUpdateStageBegin (v : Srv) (s : State) : Out := .next (serve 0x0C10 updateStageBegin v s)
def execUpdateStageWrite (v : Srv) (s : State) : Out := .next (serve 0x0C11 updateStageWrite v s)
def execUpdateStageCheck (v : Srv) (s : State) : Out := .next (serve 0x0C12 updateStageCheck v s)
def execUpdateCommit (v : Srv) (s : State) : Out := .next (serve 0x0C20 updateCommit v s)
def execUpdateSchedule (v : Srv) (s : State) : Out := .next (serve 0x0C21 updateSchedule v s)
def execUpdateCancel (v : Srv) (s : State) : Out := .next (serve 0x0C22 updateCancel v s)

/-- R529, R533: once per second, while staging is INVALID or the loader waits, a card is searched; a file of the incomplete type ends the
wait. -/
def execSdCardSearch (env : BootEnv) (s : State) : Out :=
  .next <|
    if !started s || !(s.upd.state == .invalid || s.boot.stage == .loader) then s
    else
      let s1 := seeCard env.card s
      let type := s.upd.broken.getD 1
      match cardPick s1 env.card type with
      | none => s1
      | some f =>
        let t := install env.badBlock false true f s1
        if t.upd.broken.isSome then t
        else if t.boot.stage = .loader then (if netfwOk t then firmwareStart env.setFails t else t)
        else if type = 2 then releaseCore t else t

/-! ### HASH_RUN (R439) -/

/-- First byte of the XIP window (R19). -/
def xipBase : Nat := 0x08000000

/-- R496: the application core may read the block (R18). -/
def Region.xip : Region → Bool
  | .app => true | .user1 => true | .user2 => true | _ => false

/-- R439: a range of the application image and user data regions. -/
def xipRange (s : State) (a n : Nat) : Bool :=
  decide (xipBase ≤ a ∧ a + n ≤ xipBase + blockCount s * blk) &&
    (n == 0 || (List.range' ((a - xipBase) / blk) ((a - xipBase + n - 1) / blk - (a - xipBase) / blk + 1)).all (fun b => (regionOf s b).xip))

def hashRun : CoreFn := fun c p s =>
  let flash : Bool := u8 p 0 == 1
  let a := u32 p 4
  let n := u32 p 8
  guardR s [(decide (u8 p 0 ≤ 1), 0), rsv p 1 3, (if flash then xipRange s a (min n 1) else decide (0x1000 ≤ a ∧ a ≤ 0x8000), 4),
      (if flash then decide (n ≤ 0x1000000) && xipRange s a n else decide (a + n ≤ 0x8000), 8)] fun _ =>
    pendR c s fun slot => updCipher (fun x => { x with job := some (.hash slot flash a n) }) s

/-- R421, R439: the digest is ready. A flash range is read through the controller (R499). -/
def execHashRunDone (s : State) : Out :=
  .next <| match s.cipher.job with
  | some (.hash slot flash a n) =>
    if !cryptoOn s then s
    else
      let r := if flash then readAcross (a - xipBase) n s else (s, rdBytes s (sharedBase + a) n, 0)
      let s1 := updCipher (fun c => { c with job := none }) r.1
      complete slot 0 0 (sha256 r.2.1) s1
  | _ => s

def execHashRun (v : Srv) (s : State) : Out := .next (serve 0x0A22 hashRun v s)

end Sys2Proof.Machine
end

