-- ==== Sys2Proof/Machine/Reset.lean ====
section
/-! DEFINITION. Resets and the way out of them (R473 to R483, R546 to R548, R626). -/

namespace Sys2Proof.Machine

/-! ### The supply (R474) -/

/-- R569, R598: the PORT domain loses both the field and VBAT: the session and the counters go, what is stored stays. -/
def Port.powerLost (p : Port) : Port :=
  { Port.reset with uid := p.uid, mem := p.mem, journal := p.journal, pw := p.pw, grantCfg := p.grantCfg, wtxmCfg := p.wtxmCfg, flags := p.flags,
                    identity := p.identity, lockedDue := p.lockedDue }

/-- R570: the port has lost VBAT; without a field it loses its power. -/
def portVbatLost (s : State) : State := if s.port.field then s else updPort Port.powerLost s

/-- R570, R578: VBAT returns to a port that had no power. -/
def portVbatBack (s : State) : State := if s.port.field then s else portPowerUp s

/-- R474: AON state is lost; nothing runs until a POR. -/
def aonLoss (s : State) : State :=
  { s with boot := { s.boot with aonLost := true, backup := false, stage := .held }, clk := { s.clk with lfxrdy := false, rate := .held, sync := false },
           rtc := { s.rtc with run := false } }

/-- What a POR keeps: what is stored in flash and in the port, what the world outside drives, and the model's own queue. -/
def porState (s : State) : State :=
  let r := State.reset
  { r with
    dev := s.dev, mbx := { r.mbx with counter := s.mbx.counter },
    radio := { r.radio with cfg := r.radio.cfg.ownComp s },
    cipher := { r.cipher with backing := s.cipher.backing },
    pads := { r.pads with level := s.pads.level, driven := s.pads.driven },
    boot := { r.boot with copy1 := s.boot.copy1, copy2 := s.boot.copy2, nrst := s.boot.nrst, vio := s.boot.vio, bor := true, stage := .held },
    flash := { r.flash with array := s.flash.array, written := s.flash.written, ecnt := s.flash.ecnt, incomplete := s.flash.incomplete, ecc := s.flash.ecc,
                            jActive := s.flash.jActive, journal := s.flash.journal, jSeq := s.flash.jSeq },
    upd := { s.upd with job := none }, port := s.port.wireReset false,
    se0 := { r.se0 with cts := s.se0.cts }, se1 := { r.se1 with cts := s.se1.cts }, adc := { r.adc with code25 := s.adc.code25, slope := s.adc.slope },
    freeCtr := s.freeCtr, pending := s.pending }

/-- R537: a POR disarms a scheduled activation. -/
def porUntrusted (s : State) : State :=
  if s.upd.state = .scheduled then updateTell stTIME (updUpd (fun u => { u with state := .committed, lastResult := 10 }) s) else s

/-- R474: VBAT rises above 1.60 V after AON state was lost: step 1 of R480; BOR is still asserted. -/
def execPor (s : State) : Out :=
  .next (if s.boot.aonLost then porUntrusted (porState s) else s)

/-- R474: VBAT falls below 1.74 V. -/
def execBor (s : State) : Out :=
  .next <|
    if s.boot.bor || s.boot.aonLost then s
    else portVbatLost (takeReset .bor false (updBoot (fun b => { b with bor := true }) s))

/-- R474, R481: what held the reset has gone: start-up begins at its step 2. -/
def heldEnds (s : State) : State := if s.boot.stage = .held then beginStart s else s

/-- R474: VBAT rises above 1.78 V. -/
def execBorRelease (s : State) : Out :=
  .next (if s.boot.bor && !s.boot.aonLost && !s.boot.backup then heldEnds (portVbatBack (updBoot (fun b => { b with bor := false }) s)) else s)

/-- R474, R546, R547: VBAT falls below 1.70 V with VBKUP present. -/
def execBackupRetention (s : State) : Out :=
  .next <|
    if !s.boot.bor || s.boot.aonLost || s.boot.backup then s
    else
      let s1 := { s with boot := { s.boot with backup := true }, clk := { s.clk with rate := .held, gap := true, sync := false } }
      if s.rtc.bksw then s1 else updRtc (fun r => { r with bksw := true, bkstamp := rtcSeconds s, due := r.due ++ [(false, 3, 0)] }) s1

/-- R546: VBAT rises above 1.78 V: the RTC returns to VBAT and retention ends. -/
def execBackupReturn (s : State) : Out := .next (if s.boot.backup then updBoot (fun b => { b with backup := false }) s else s)

/-- R474: VBAT falls below 1.45 V without VBKUP. -/
def execAonLoss (s : State) : Out := .next (if s.boot.bor && !s.boot.aonLost && !s.boot.backup then aonLoss s else s)

/-- R474: VBKUP leaves its range while it holds AON state. -/
def execVbkupLoss (s : State) : Out := .next (if s.boot.backup then aonLoss s else s)

/-! ### NRST and the other causes (R475 to R477) -/

/-- R475: NRST is low for long enough. -/
def execNrstAssert (s : State) : Out :=
  .next <|
    if s.boot.nrst then s
    else
      let s1 := updBoot (fun b => { b with nrst := true }) s
      if s.boot.aonLost then s1 else takeReset .pin false s1

/-- R475: the rising edge of NRST. -/
def execNrstRelease (s : State) : Out := .next (if s.boot.nrst then heldEnds (updBoot (fun b => { b with nrst := false }) s) else s)

/-- R473: the network firmware has failed to serve its watchdog. -/
def execNwdtExpire (s : State) : Out := .next (if netRuns s then takeReset .nwdt false s else s)

/-- SYSCTL_CORERST is written (R476). -/
def corerstWrite (v : Word) (s : State) : State := if v.toNat % 65536 = 0xC0E5 then coreReset 7 s else s

def execSysctlCorerst (v : Word) (s : State) : Out := .next (if mayAccess s .app then corerstWrite v s else s)

/-- R476: 10 µs after a CORE cause the core restarts at its reset vector. -/
def execCoreRestart (s : State) : Out := .next (if s.boot.coreRestart then releaseCore s else s)

/-- R68, R446, R535: the reset 50 µs after a command. -/
def execResetDelayExpiry (s : State) : Out :=
  .next <| match s.boot.delayed with
  | none => s
  | some .sys => takeReset .sys false s
  | some .ldr => takeReset .ldr false s
  | some .act => takeReset .ldr true s

/-! ### WAKE (R448, R460, R464, R480) -/

/-- R34: a HIBERNATE that ends before its handover goes on at the slow rate, or holds without a slow clock. -/
def Clk.woken (c : Clk) : Clk :=
  if c.rate = .reference then { c with rate := if c.lfxrdy then .slow else .held, gap := c.gap || !c.lfxrdy, sync := c.sync && c.lfxrdy } else c

/-- The WAKE reset, 280 µs after a latch in HIBERNATE. -/
def wakeReset (s : State) : State :=
  let s1 := lastWake s
  let s2 := if s.pwr.mode = .shelf then updPwr (fun p => { p with nextMode := some (codeMode p.cfg.shelfExit) }) s1 else s1
  let s3 := enterHist .wake (wakeLoss (shelfRestore s2))
  updClk Clk.woken (updBoot (fun b => { b with stage := .reference, kind := .wake, causeApp := 8, causeNet := 8, simul := false }) s3)

def execWakeReset (s : State) : Out :=
  .next (if s.pwr.phase == .asleep && s.pwr.seeking == .hibernate && s.pwr.latch != 0 then wakeReset s else s)

/-! ### The boot ROM (R626) -/

/-- R521: XIP address of the vector table. -/
def vectorTable (s : State) : Nat := 0x08230100 + oWord s.boot.opt 0x014 4

/-- R626: the header checks: the core continues in the application image. -/
def handOver (s : State) : State :=
  let v := vectorTable s
  let w (i : Nat) : Word := BitVec.ofNat 32 (unle (flashBytes s (v + 4 * i - 0x08000000) 4))
  updCore (fun c => { c with run := .running, u := List.replicate 15 0, pc := w 1, spm := w 0, vbase := BitVec.ofNat 24 (v / 256), mach := true, ie := false,
                             ilvl := 0, mpuCtl := 0, split := s.pwr.mode == .service }) s

def execBootHandover (s : State) : Out :=
  .next <|
    if s.core.run ≠ .rom ∨ !started s then s
    else match flashRead appBase 256 s.flash.autosus s with
      | none => s
      | some r => if headFormatRom r.2.1 then handOver r.1 else sleepWrite 0x103 r.1
where
  /-- R626: MAGIC, HCRC and IMAGE_TYPE 2. -/
  headFormatRom (h : List Byte) : Bool := u32 h 0 == 0x1A425854 && u32 h 252 == crc32 (slice h 0 252) && u8 h 8 == 2

end Sys2Proof.Machine
end

