-- ==== Sys2Proof/Machine/Port.lean ====
section
/-! DEFINITION. The commissioning port: its field side, its lock, the PORTW registers and its commands (R569 to R599). -/

namespace Sys2Proof.Machine

/-! ### Activation (R571 to R574) -/

def xorAll (l : List Byte) : Byte := l.foldl (· ^^^ ·) 0

/-- R571: the five bytes of a cascade level. -/
def levelBytes (s : State) (two : Bool) : List Byte :=
  let b := if two then slice s.port.uid 3 4 else 0x88#8 :: slice s.port.uid 0 3
  b ++ [xorAll b]

/-- R572: no answer: the port falls back to HALT or IDLE. -/
def frameError (s : State) : State :=
  updPort (fun p =>
    let fall : Bool := p.fstate == .ready1 || p.fstate == .ready2 || p.fstate == .active
    { p with answer := [], fstate := if fall then (if p.fromHalt then .halt else .idle) else p.fstate }) s

def execPortFrameError (s : State) : Out := .next (frameError s)

/-- R571: ATQA. -/
def atqa (fromHalt : Bool) (s : State) : State := updPort (fun p => { p with fstate := .ready1, fromHalt := fromHalt, answer := [0x44, 0x00] }) s

/-- R572: REQA is ignored in HALT, and in PROTOCOL it is no block. -/
def execReqa (s : State) : Out :=
  .next <| match s.port.fstate with
  | .idle => atqa false s
  | .ready1 | .ready2 | .active => frameError s
  | _ => updPort (fun p => { p with answer := [] }) s

def execWupa (s : State) : Out :=
  .next <| match s.port.fstate with
  | .idle => atqa false s
  | .halt => atqa true s
  | .ready1 | .ready2 | .active => frameError s
  | _ => updPort (fun p => { p with answer := [] }) s

/-- R571: the bits of bytes, least significant first. -/
def octetBits (l : List Byte) : List Bool := l.flatMap (fun b => bitsLsb 8 b.toNat)

/-- Bits as octets, the first of them in the least significant place. -/
def bitOctets : Nat → List Bool → List Byte
  | 0, _ => []
  | k + 1, l => if l.isEmpty then [] else BitVec.ofNat 8 ((l.take 8).reverse.foldl (fun a b => 2 * a + b2n b) 0) :: bitOctets k (l.drop 8)

/-- R573: bits n + 1 to 40 of a level, the first byte holding what is left of byte floor(n / 8). -/
def levelRest (lv : List Bool) (n : Nat) : List Byte :=
  let first := (8 - n % 8) % 8
  let r := lv.drop n
  (if first = 0 then [] else bitOctets 1 (r.take first)) ++ bitOctets 5 (r.drop first)

/-- R572: the level of the current state; none in the others. -/
def currentLevel (s : State) : Option Bool :=
  match s.port.fstate with
  | .ready1 => some false
  | .ready2 => some true
  | _ => none

/-- R573: an anticollision frame: SEL, NVB and the known bits. -/
def execAnticollision (f : List Byte) (s : State) : Out :=
  .next <| match currentLevel s with
  | none => frameError s
  | some two =>
    let h := u8 f 1 / 16
    let l := u8 f 1 % 16
    let n := 8 * (h - 2) + l
    let lv := octetBits (levelBytes s two)
    if u8 f 0 ≠ (if two then 0x95 else 0x93) ∨ h < 2 ∨ 6 < h ∨ 7 < l then frameError s
    else if (octetBits (f.drop 2)).take n = lv.take n then updPort (fun p => { p with answer := levelRest lv n }) s
    else updPort (fun p => { p with answer := [] }) s

/-- R573: a SELECT with NVB 0x70 whose CRC_A has passed. -/
def execCascadeSelect (f : List Byte) (s : State) : Out :=
  .next <| match currentLevel s with
  | none => frameError s
  | some two =>
    if u8 f 0 = (if two then 0x95 else 0x93) ∧ u8 f 1 = 0x70 ∧ slice f 2 5 = levelBytes s two then
      updPort (fun p => { p with fstate := if two then .active else .ready2, answer := if two then [0x20] else [0x04] }) s
    else frameError s

/-- R572: HLTA in ACTIVE; elsewhere it is any other frame. -/
def execHlta (s : State) : Out := .next (if s.port.fstate = .active then updPort (fun p => { p with fstate := .halt, answer := [] }) s else frameError s)

/-- FSD of FSDI (ISO/IEC 14443-4, R569). -/
def fsdOf (i : Nat) : Nat := at_ 256 [16, 24, 32, 40, 48, 64, 96, 128, 256] i

/-- R574: RATS with FSDI 0 to 8 and a CID of 0 to 14 (log 113). -/
def execRats (param : Byte) (s : State) : Out :=
  .next <|
    if s.port.fstate ≠ .active ∨ 8 < param.toNat / 16 ∨ param.toNat % 16 = 15 then frameError s
    else updPort (fun p =>
      { p with fstate := .protocol, fsd := fsdOf (param.toNat / 16), cid := param.toNat % 16, answer := [0x05, 0x78, 0x11, 0x70, 0x02], sel := .none, auth := none,
               chainIn := [], chainOut := [], wait := none }) s

/-- R574: the rates that a PPS names: reader to port, port to reader; none when one is not supported. -/
def ppsRates (p : List Byte) : Option (Nat × Nat) :=
  let r (n : Nat) : Option Nat := match n with | 0 => some 106 | 1 => some 212 | _ => none
  let one := if u8 p 1 = 0x11 then u8 p 2 else 0
  match r (one % 4), r (one / 4) with
  | some a, some b => some (a, b)
  | _, _ => none

/-- R574: PPSS, PPS0 and PPS1. -/
def execPps (pps : List Byte) (s : State) : Out :=
  .next <|
    if s.port.fstate ≠ .protocol ∨ u8 pps 0 ≠ 0xD0 + s.port.cid then s
    else match ppsRates pps with
      | some (a, b) => updPort (fun p => { p with rateIn := a, rateOut := b, answer := pps.take 1 }) s
      | none => updPort (fun p => { p with answer := [] }) s

/-! ### Field, session and lock (R570, R580, R591) -/

/-- R580: the session ends. -/
def Port.sessionEnd (p : Port) : Port :=
  { p with sel := .none, auth := none, chainIn := [], chainOut := [], wait := none, mbxReq := none, mbxResp := none }

/-- R591: the field's lock is released: to the wire under PRIO, to a command of the network core that waits, or to none. -/
def Port.fieldRelease (p : Port) : Port :=
  if p.lock ≠ .field then p
  else if p.prio then { p with lock := .app, prio := false, lockEvt := true }
  else { p with lock := if p.job.isSome then .net else .free }

/-- R570: the field reaches the operating level. -/
def execFieldOn (s : State) : Out :=
  .next <|
    if s.port.field then s
    else
      let s1 := if s.boot.bor then portPowerUp s else s
      let s2 := updPort (fun p => { p with field := true, fstate := .idle, fromHalt := false, fieldEvt := true, rateIn := 106, rateOut := 106,
                                           answer := [] }) s1
      if s.boot.bor then s2 else latchSet 4 s2

/-- R572, R591: the field is lost. -/
def execFieldLoss (s : State) : Out :=
  .next <|
    if !s.port.field then s
    else
      let s1 := updPort (fun p => { p.sessionEnd.fieldRelease with field := false, fstate := .off, answer := [] }) s
      if s.boot.bor then updPort Port.powerLost s1 else s1

/-- R572: S(DESELECT). -/
def execSDeselect (s : State) : Out :=
  .next (if s.port.fstate = .protocol then updPort (fun p => { p.sessionEnd.fieldRelease with fstate := .halt, answer := [0xC2] }) s else frameError s)

/-! ### APDUs (R576, R580 to R589) -/

/-- A short APDU: header, data, and the Le byte. -/
structure Apdu where
  cla : Nat
  ins : Nat
  p1 : Nat
  p2 : Nat
  data : List Byte
  /-- Le, 256 for 0 -/ le : Option Nat
  /-- the lengths agree -/ ok : Bool

def parseApdu (b : List Byte) : Apdu :=
  let n := b.length
  let lc := u8 b 4
  let leOf (v : Nat) : Option Nat := some (if v = 0 then 256 else v)
  let mk (d : List Byte) (e : Option Nat) (ok : Bool) : Apdu := { cla := u8 b 0, ins := u8 b 1, p1 := u8 b 2, p2 := u8 b 3, data := d, le := e, ok := ok && decide (4 ≤ n) }
  if n ≤ 4 then mk [] none true
  else if n = 5 then mk [] (leOf lc) true
  else if n = 5 + lc then mk (slice b 5 lc) none (lc != 0)
  else if n = 6 + lc then mk (slice b 5 lc) (leOf (u8 b (n - 1))) (lc != 0)
  else mk [] none false

def sw (v : Nat) : List Byte := be 2 v

/-- R582: a slot's STATE: 0 UNSET, 1 SET, 2 LOCKED. -/
def PwSlot.state (p : PwSlot) : Nat := if p.pw.all (· == 0) then 0 else if p.remaining = 0 then 2 else 1
def pwOf (s : State) (n : Nat) : PwSlot := at_ PwSlot.reset s.port.pw n
def updPw (n : Nat) (f : PwSlot → PwSlot) (s : State) : State := updPort (fun p => { p with pw := p.pw.set n (f (at_ PwSlot.reset p.pw n)) }) s

/-- R582. -/
def portInfo (s : State) : List Byte :=
  s.port.identity ++ (List.range 4).flatMap (fun n => le 1 (16 * (pwOf s n).state + (pwOf s n).remaining)) ++ le 1 (credState s) ++ le 1 (b2n s.mbx.netrdy) ++ le 2 0

/-- R576: the MIME type. -/
def mimeType : List Byte := "application/x-gwynzal-m6id".toList.map (fun c => BitVec.ofNat 8 c.toNat)

/-- R576: files E103 and E104. -/
def ndefFile (s : State) (id : Nat) : List Byte :=
  if id = 0xE103 then [0x00, 0x0F, 0x20, 0x00, 0xF0, 0x00, 0xF0, 0x04, 0x06, 0xE1, 0x04, 0x00, 0x37, 0x00, 0xFF]
  else [0x00, 0x35, 0xD2, 26, 24] ++ mimeType ++ s.port.identity

def ndefAid : List Byte := [0xD2, 0x76, 0x00, 0x00, 0x85, 0x01, 0x01]
def commAid : List Byte := [0xF0, 0x47, 0x5A, 0x4D, 0x36, 0x43, 0x4F]

/-- R580: SELECT by DF name, and by file identifier within the NDEF application. -/
def apduSelect (a : Apdu) (s : State) : State × List Byte :=
  if a.p1 = 4 ∧ a.p2 = 0 then
    if a.data = ndefAid then (updPort (fun p => { p with sel := .ndef 0, auth := none }) s, sw 0x9000)
    else if a.data = commAid then (updPort (fun p => { p with sel := .commissioning, auth := none, sessions := inc32 p.sessions }) s, sw 0x9000)
    else (s, sw 0x6A82)
  else match s.port.sel with
    | .ndef _ =>
      if a.p1 ≠ 0 ∨ (a.p2 ≠ 0x0C ∧ a.p2 ≠ 0) then (s, sw 0x6A86)
      else if a.data = [0xE1, 0x03] ∨ a.data = [0xE1, 0x04] then (updPort (fun p => { p with sel := .ndef (unbe a.data), auth := none }) s, sw 0x9000)
      else (s, sw 0x6A82)
    | _ => (s, sw 0x6A86)

/-- R576: READ BINARY of the selected file. Where no file is selected, or the offset lies beyond its end, the status word is open (log 114). -/
def apduRead (a : Apdu) (s : State) : State × List Byte :=
  match s.port.sel with
  | .ndef id =>
    let f := ndefFile s id
    let o := 256 * a.p1 + a.p2
    if id = 0 ∨ f.length < o then let r := freshBytes 2 s; (r.2, r.1)
    else (s, (f.drop o).take (a.le.getD 0) ++ sw 0x9000)
  | _ => (s, sw 0x6D00)

/-- R584: the session's rights. -/
def mayRead (s : State) : Bool := s.port.auth.isSome || bit s.port.flags 0
def mayWrite (s : State) : Bool := match s.port.auth with | some n => decide (n ≤ 2) | none => false

/-- R587: VERIFY of a SET slot; `w` is the block write whose read-back fails. -/
def verifyPw (slot : Nat) (pw : List Byte) (w : Option Nat) (s : State) : State × List Byte :=
  let r := (pwOf s slot).remaining
  let s1 := portWritten (updPw slot (fun p => { p with remaining := r - 1 }) s)
  if w = some 0 then (s1, sw 0x6581)
  else if pw = (pwOf s slot).pw then
    let s2 := portWritten (updPw slot (fun p => { p with remaining := p.limit }) s1)
    if w = some 1 then (s2, sw 0x6581) else (updPort (fun p => { p with auth := some slot }) s2, sw 0x9000)
  else
    let s2 := updPort (fun p => { p with auth := none, verifyFail := inc32 p.verifyFail }) s1
    (if r = 1 then lockedTell slot s2 else s2, sw (0x63C0 + (r - 1)))

/-- Block writes in order until one fails: the state, and whether all were made. -/
def portWrites (w : Option Nat) : Nat → List (Nat × List Byte) → State → State × Bool
  | _, [], s => (s, true)
  | k, (b, l) :: r, s => if w = some k then (portWrite b l false s, false) else portWrites w (k + 1) r (portWrite b l true s)

/-- R588: the nine block writes of a credential. -/
def stageCred (d : List Byte) (w : Option Nat) (s : State) : State × List Byte :=
  let data := d.drop 4
  let h := portBlock s 8
  let head : List Byte := 1 :: slice d 0 1 ++ le 2 data.length ++ le 1 (s.port.auth.getD 0) ++ le 3 0 ++ le 4 ((u32 h 8 + 1) % 2 ^ 32) ++ le 4 (crc32 data) ++ le 16 0
  let r := portWrites w 0 ([(8, 0 :: h.drop 1)] ++ (List.range 7).map (fun i => (9 + i, slice data (32 * i) 32)) ++ [(8, head)]) s
  (r.1, if r.2 then sw 0x9000 else sw 0x6581)

/-- R590: the LENGTH of a message agrees with Lc. -/
def messageOk (d : List Byte) : Bool := decide (16 ≤ d.length) && d.length == 16 + u16 d 4 + (if (u16 d 6).testBit 0 then 8 else 0)

/-- R533, R590: the network firmware, or the loader in its place, runs. -/
def portServed (s : State) : Bool := s.mbx.netrdy || s.boot.stage == .loader

/-- R581, R583: the status word that turns a command of the commissioning application away, in the order of the checks. -/
def commRefusal (a : Apdu) (s : State) : Option Nat :=
  let listed : Bool := [0xA4, 0x10, 0x20, 0xB0, 0xD0, 0xE0, 0x40].contains a.ins
  let user : Bool := decide (16 ≤ a.p2)
  if (a.cla ≠ 0 ∧ a.cla ≠ 0x80) ∨ (listed ∧ a.cla ≠ (if a.ins = 0xA4 then 0 else 0x80)) then some 0x6E00
  else if !listed then some 0x6D00
  else match a.ins with
    | 0xA4 => if a.p1 ≠ 4 ∨ a.p2 ≠ 0 then some 0x6A86 else if !a.ok || a.data.isEmpty then some 0x6700 else none
    | 0x10 =>
      if a.p1 ≠ 0 ∨ a.p2 ≠ 0 then some 0x6A86
      else if !a.ok || !a.data.isEmpty || a.le.isNone || decide (a.le.getD 0 < 32) then some 0x6700
      else none
    | 0x20 =>
      if a.p1 ≠ 0 ∨ 3 < a.p2 then some 0x6A86
      else if !a.ok || a.data.length != 16 || a.le.isSome then some 0x6700
      else match (pwOf s a.p2).state with
        | 0 => some 0x6A88
        | 2 => some 0x6983
        | _ => none
    | 0xB0 =>
      if a.p1 ≠ 0 ∨ !user then some 0x6A86
      else if !a.ok || !a.data.isEmpty || a.le != some 0x20 then some 0x6700
      else if !mayRead s then some 0x6982
      else none
    | 0xD0 =>
      if a.p1 ≠ 0 ∨ !user then some 0x6A86
      else if !a.ok || a.data.length != 32 || a.le.isSome then some 0x6700
      else if !mayWrite s then some 0x6982
      else none
    | 0xE0 =>
      if a.p1 ≠ 0 ∨ a.p2 ≠ 0 then some 0x6A86
      else if !a.ok || !decide (4 ≤ a.data.length ∧ a.data.length ≤ 228) || a.le.isSome then some 0x6700
      else if !mayWrite s then some 0x6982
      else none
    | _ =>
      if a.p1 ≠ 0 ∨ a.p2 ≠ 0 then some 0x6A86
      else if !a.ok || !messageOk a.data then some 0x6700
      else if s.port.auth ≠ some 2 then some 0x6982
      else if !portServed s || bit s.port.flags 1 then some 0x6985
      else none

/-- R581, R583: what a command of the commissioning application does once it has passed its checks. -/
def commRun (a : Apdu) (w : Option Nat) (s : State) : State × Option (List Byte) :=
  let done (r : State × List Byte) : State × Option (List Byte) := (r.1, some r.2)
  match a.ins with
  | 0xA4 => done (apduSelect a s)
  | 0x10 => (s, some (portInfo s ++ sw 0x9000))
  | 0x20 => done (verifyPw a.p2 a.data w s)
  | 0xB0 => (s, some (portBlock s a.p2 ++ sw 0x9000))
  | 0xD0 => let r := portWrites w 0 [(a.p2, a.data)] s; (r.1, some (if r.2 then sw 0x9000 else sw 0x6581))
  | 0xE0 => done (stageCred a.data w s)
  | _ => (updPort (fun p => { p with mbxReq := some a.data }) s, none)

/-- R581, R583: a command of the commissioning application; none when a MAILBOX message waits for its response. -/
def commApdu (a : Apdu) (w : Option Nat) (s : State) : State × Option (List Byte) :=
  match commRefusal a s with
  | some x => (s, some (sw x))
  | none => commRun a w s

/-- A command of the NDEF application, or with no application selected (R576; log 114). -/
def ndefApdu (a : Apdu) (s : State) : State × List Byte :=
  if a.cla ≠ 0 then (s, sw 0x6E00)
  else match a.ins with
    | 0xA4 => if !a.ok || a.data.isEmpty then (s, sw 0x6700) else apduSelect a s
    | 0xB0 => if !a.ok || !a.data.isEmpty || a.le.isNone then (s, sw 0x6700) else apduRead a s
    | 0xD6 => (s, if s.port.sel = .none then sw 0x6D00 else sw 0x6982)
    | _ => (s, sw 0x6D00)

def apduRun (cmd : List Byte) (w : Option Nat) (s : State) : State × Option (List Byte) :=
  let a := parseApdu cmd
  match s.port.sel with
  | .commissioning => commApdu a w s
  | _ => let r := ndefApdu a s; (r.1, some r.2)

/-- R569: INF bytes of one answer block. -/
def infRoom (p : Port) : Nat := p.fsd - 3 - (if p.cid = 0 then 0 else 1)

/-- R569, R591: a response is sent, chained where the reader's FSD asks for it, and the field's lock is released. -/
def fieldAnswer (r : List Byte) (s : State) : State :=
  updPort (fun p => { p.fieldRelease with wait := none, mbxReq := none, mbxResp := none, answer := r.take (infRoom p), chainOut := r.drop (infRoom p) }) s

/-- R575, R585: an S(WTX) is sent; `n` counts them. -/
def sendWtx (cmd : List Byte) (n : Nat) (s : State) : State :=
  updPort (fun p => { p with wait := some (cmd, n), wtxm := p.wtxmCfg, wtxSent := inc32 p.wtxSent, answer := [0xF2, BitVec.ofNat 8 p.wtxmCfg] }) s

/-- R591: the field takes the lock and the block is served. -/
def fieldServe (cmd : List Byte) (n : Nat) (w : Option Nat) (s : State) : State :=
  let r := apduRun cmd w (updPort (fun p => { p with lock := .field }) s)
  match r.2 with
  | some d => fieldAnswer d r.1
  | none => updPort (fun p => { p with wait := some (cmd, n) }) r.1

/-- R585: the wire has freed the lock: a block that waits proceeds. -/
def fieldProceeds (s : State) : State :=
  match s.port.wait with
  | some (cmd, n) => if s.port.lock = .free ∧ s.port.mbxReq.isNone then fieldServe cmd n none s else s
  | none => s

/-- The INS codes the applications list. -/
def knownIns : List Nat := [0xA4, 0xB0, 0x10, 0x20, 0xD0, 0xE0, 0x40]

/-- R591: an APDU arrives, whole or with its last fragment; the row acts on its own INS and on one that no application lists. -/
def apduArrives (ins : Nat) (inf : List Byte) (w : Option Nat) (s : State) : State :=
  let cmd := s.port.chainIn ++ inf
  let i := u8 cmd 1
  if s.port.fstate ≠ .protocol ∨ s.port.wait.isSome ∨ !(i == ins || !knownIns.contains i) then s
  else
    let s1 := updPort (fun p => { p with chainIn := [], chainOut := [] }) s
    if s1.port.lock = .free then fieldServe cmd 1 w s1 else sendWtx cmd 1 s1

/-- READ BINARY and READ_BLOCK share an INS: CLA tells them apart. -/
def claOf (s : State) (apdu : List Byte) : Nat := u8 (s.port.chainIn ++ apdu) 0

def execSelect (apdu : List Byte) (s : State) : Out := .next (apduArrives 0xA4 apdu none s)
def execReadBinary (apdu : List Byte) (s : State) : Out := .next (if claOf s apdu = 0x80 then s else apduArrives 0xB0 apdu none s)
def execGetInfo (apdu : List Byte) (s : State) : Out := .next (apduArrives 0x10 apdu none s)
def execVerify (apdu : List Byte) (w : Option Nat) (s : State) : Out := .next (apduArrives 0x20 apdu w s)
def execReadBlock (apdu : List Byte) (s : State) : Out := .next (if claOf s apdu = 0 then s else apduArrives 0xB0 apdu none s)
def execWriteBlock (apdu : List Byte) (w : Option Nat) (s : State) : Out := .next (apduArrives 0xD0 apdu w s)
def execStageCred (apdu : List Byte) (w : Option Nat) (s : State) : Out := .next (apduArrives 0xE0 apdu w s)

/-- R569: a chained fragment is acknowledged with R(ACK); an R(ACK) of the reader brings the next fragment of the response, an R(NAK) the
last block again. -/
def execChainedBlock (pcb : Byte) (f : List Byte) (s : State) : Out :=
  .next <|
    if s.port.fstate ≠ .protocol ∨ s.port.wait.isSome then s
    else if pcb &&& 0xE2 = 0x02 then
      if pcb &&& 0x10 = 0 then s
      else updPort (fun p => { p with chainIn := p.chainIn ++ f, answer := [0xA2 ||| (pcb &&& 0x01)] }) s
    else if pcb &&& 0xF2 = 0xA2 then
      if s.port.chainOut.isEmpty then s
      else updPort (fun p => { p with answer := p.chainOut.take (infRoom p), chainOut := p.chainOut.drop (infRoom p) }) s
    else s

/-! ### The wire: PORTW (R591, R592) -/

/-- PORTW_LOCK.STATE. -/
def portwLockState (s : State) : Nat :=
  match s.port.lock with
  | .free => 0
  | .app => 1
  | .net => 2
  | .field => if s.port.prio then 3 else 2

/-- A write of PORTW_LOCK. -/
def portwLock (v : Word) (s : State) : State :=
  if !s.port.grant then s
  else
    let s1 := if !bit v 3 then s
      else if s.port.lock = .app then fieldProceeds (updPort (fun p => { p with lock := .free }) s)
      else updPort (fun p => { p with prio := false }) s
    if !bit v 2 then s1
    else match s1.port.lock with
      | .free => updPort (fun p => { p with lock := .app }) s1
      | .field => if bit v 4 then updPort (fun p => { p with prio := true }) s1 else s1
      | _ => s1

def portwRefuse (e : Nat) (s : State) : State := updPort (fun p => { p with done := true, err := e }) s

/-- A write of PORTW_CMD: READ when `wr` is false. -/
def portwCmd (wr : Bool) (s : State) : State :=
  if !s.port.grant then s
  else if s.port.cmd.isSome then portwRefuse 3 s
  else if s.port.lock ≠ .app then portwRefuse 1 s
  else if s.port.block < 8 then portwRefuse 2 s
  else updPort (fun p => { p with cmd := some wr }) s

/-- A write of the whole PORTW_CMD register. -/
def portwCmdWrite (v : Word) (s : State) : State :=
  if bits v.toNat 16 16 ≠ 0xD0C5 then s
  else match v.toNat % 4 with
    | 1 => portwCmd false s
    | 2 => portwCmd true s
    | _ => s

def portwStat (s : State) : Nat :=
  let p := s.port
  let f : Nat := match p.fstate with | .off => 0 | .idle => 1 | .ready1 => 2 | .ready2 => 3 | .active => 4 | .protocol => 5 | .halt => 6
  b2n p.cmd.isSome + 2 * b2n p.done + 4 * p.err + 32 * b2n p.field + 64 * f + 512 * b2n p.fieldEvt + 1024 * b2n p.lockEvt

def execPortwTake (s : State) : Out := .next (if mayAccess s .app then portwLock 0x4 s else s)
def execPortwPrio (s : State) : Out := .next (if mayAccess s .app then portwLock 0x14 s else s)
def execPortwRelease (s : State) : Out := .next (if mayAccess s .app then portwLock 0x8 s else s)
def execPortwRead (s : State) : Out := .next (if mayAccess s .app then portwCmd false s else s)
def execPortwWrite (s : State) : Out := .next (if mayAccess s .app then portwCmd true s else s)

/-- R592: a PORTW command ends; only the lock holder's write reaches port memory. -/
def execPortwCmdDone (ok : Bool) (s : State) : Out :=
  .next <| match s.port.cmd with
  | none => s
  | some wr =>
    let s1 := updPort (fun p => { p with cmd := none, done := true, err := 0 }) s
    if s.port.lock ≠ .app then portwRefuse 1 s1
    else if wr then
      let s2 := portWrite s.port.block (s.port.buf.flatMap (le 4)) ok s1
      if ok then s2 else portwRefuse 4 s2
    else updPort (fun p => { p with buf := (List.range 8).map (fun i => u32 (portBlock s s.port.block) (4 * i)) }) s1

/-! ### Commands (R593 to R598) -/

/-- R593: the lock is not the network core's to take; a request that came through the port itself uses the field's (log 115). -/
def portHeld (s : State) (c : Ctx) : Bool := s.port.lock == .app || (s.port.lock == .field && c.req != .port)

/-- R593: a system-area command. -/
def systemArea (c : Ctx) (s : State) (checks : List (Bool × Nat)) (go : Unit → Res) : Res :=
  guardR s checks fun _ => if portHeld s c then busyR s 0x0E else go ()

/-- R590, R593: a wire-side command. -/
def wireSide (c : Ctx) (s : State) (checks : List (Bool × Nat)) (go : Unit → Res) : Res :=
  guardR s checks fun _ => if s.port.grantCfg = 1 || portHeld s c then busyR s 0x0E else go ()

def portCfgRec (s : State) : List Byte := le 1 s.port.grantCfg ++ le 1 s.port.wtxmCfg ++ le 1 s.port.flags.toNat ++ le 1 0
def pwRec (s : State) (n : Nat) : List Byte := let p := pwOf s n; le 1 n ++ le 1 p.state ++ le 1 p.limit ++ le 1 p.remaining

/-- R598. -/
def portStateRec (s : State) : List Byte :=
  let p := s.port
  le 1 (portwStat s / 64 % 8) ++ le 1 (b2n p.field + 2 * b2n (p.field && s.boot.bor) + 4 * b2n p.auth.isSome) ++
    le 1 (match p.lock with | .free => 0 | .app => 1 | .net => 2 | .field => 3) ++ le 1 (p.auth.getD 0xFF) ++ le 1 (credState s) ++ le 3 0 ++
    [p.sessions, p.blockWrites, p.verifyFail, p.wtxSent, p.wtxGiveup, p.tears].flatMap (le 4)

def portSurvey (s : State) : List Byte := portStateRec s ++ portCfgRec s ++ (List.range 4).flatMap (pwRec s)

def portStateGet : CoreFn := fun _ p s =>
  guardR s [(decide (u8 p 0 ≤ 1), 0), rsv p 1 3] fun _ =>
    okR (if u8 p 0 = 1 then updPort (fun x => { x with sessions := 0, blockWrites := 0, verifyFail := 0, wtxSent := 0, wtxGiveup := 0, tears := 0 }) s else s)
      (portStateRec s)

/-- A write of the system area: FLASH_FAIL when its read-back fails (R578). -/
def systemWrite (c : Ctx) (r : Res) : Res :=
  let s := portWritten r.s
  match c.failAt 0 with
  | some b => errR s stFLASH (b % 65536)
  | none => { r with s := s }

/-- R591, R594: the grant moves at once; the lock of the core it moves away from is released. -/
def moveGrant (g : Nat) (s : State) : State :=
  let on : Bool := g == 1 && s.boot.released
  let s1 := updPort (fun p => { p with grantCfg := g, grant := on }) s
  if on == s.port.grant then s1
  else fieldProceeds (updPort (fun p => { p with lock := if p.lock = .field then .field else .free, prio := false, cmd := none }) s1)

def portCfgSet : CoreFn := fun c p s =>
  systemArea c s [(decide (u8 p 0 ≤ 1), 0), (decide (1 ≤ u8 p 1 ∧ u8 p 1 ≤ 59), 1), (decide (u8 p 2 < 4), 2), rsv p 3 1] fun _ =>
    let s1 := moveGrant (u8 p 0) (updPort (fun x => { x with wtxmCfg := u8 p 1, flags := BitVec.ofNat 2 (u8 p 2) }) s)
    systemWrite c (okR s1 (portCfgRec s1))

def portCfgGet : CoreFn := fun c _ s => systemArea c s [] fun _ => okR s (portCfgRec s)

/-- R595 BLOCK and COUNT. -/
def memRange (p : List Byte) : List (Bool × Nat) :=
  [(decide (8 ≤ u8 p 0), 0), (decide (1 ≤ u8 p 1 ∧ u8 p 1 ≤ 7 ∧ u8 p 0 + u8 p 1 ≤ 256), 1), rsv p 2 2]

def portMemRead : CoreFn := fun c p s =>
  if c.req = .port then badR s 0
  else wireSide c s (memRange p) fun _ => okR s (portBytes s (32 * u8 p 0) (32 * u8 p 1))

/-- R593, R595: the network core takes the lock and the blocks follow one by one. -/
def portMemWrite : CoreFn := fun c p s =>
  if c.req = .port then badR s 0
  else guardR s (memRange p) fun _ =>
    if s.port.grantCfg = 1 then busyR s 0x0E
    else pendR c s fun slot =>
      updPort (fun x =>
        { x with lock := if x.lock = .free then .net else x.lock,
                 job := some { slot := slot, block := u8 p 0, blocks := (List.range (u8 p 1)).map (fun i => slice p (4 + 32 * i) 32), written := 0 } }) s

/-- R593, R595: the command ends and its lock is released. -/
def memJobEnds (j : PortJob) (st det : Nat) (s : State) : State :=
  complete j.slot st det (le 1 j.written ++ le 3 0)
    (fieldProceeds (updPort (fun p => { p with job := none, lock := if p.lock = .net then .free else p.lock }) s))

/-- R578, R595: the next block write of PORT_MEM_WRITE completes. A lock not obtained by then was not obtained within 1 s (R593). -/
def execPortBlockWrite (ok : Bool) (s : State) : Out :=
  .next <| match s.port.job with
  | none => s
  | some j =>
    if !netRuns s then s
    else if s.port.lock ≠ .net then memJobEnds j stBUSY 0x0E s
    else match j.blocks with
      | [] => memJobEnds j 0 0 s
      | b :: r =>
        let s1 := portWrite j.block b ok s
        if !ok then memJobEnds j stFLASH j.block s1
        else
          let k : PortJob := { j with block := j.block + 1, blocks := r, written := j.written + 1 }
          if r.isEmpty then memJobEnds k 0 0 s1 else updPort (fun p => { p with job := some k }) s1

def portPwSet : CoreFn := fun c p s =>
  systemArea c s [(decide (u8 p 0 ≤ 3), 0), (decide (1 ≤ u8 p 1 ∧ u8 p 1 ≤ 15), 1), rsv p 2 2] fun _ =>
    let n := u8 p 0
    let s1 := updPort (fun x => { x with auth := if x.auth = some n then none else x.auth }) (updPw n (fun _ => { pw := slice p 4 16, limit := u8 p 1, remaining := u8 p 1 }) s)
    systemWrite c (okR s1 (pwRec s1 n))

def portPwUnlock : CoreFn := fun c p s =>
  systemArea c s [(decide (u8 p 0 ≤ 3) && (pwOf s (u8 p 0)).state != 0, 0), rsv p 1 3] fun _ =>
    let s1 := updPw (u8 p 0) (fun x => { x with remaining := x.limit }) s
    systemWrite c (okR s1 (pwRec s1 (u8 p 0)))

def portPwGet : CoreFn := fun c p s => systemArea c s [(decide (u8 p 0 ≤ 3), 0), rsv p 1 3] fun _ => okR s (pwRec s (u8 p 0))

/-- R55, R597: with a trailer a credential longer than 216 bytes does not fit; DETAIL is the offset of LEN in the header of R589. -/
def portCredGet : CoreFn := fun c _ s =>
  wireSide c s [(!c.auth.isSome || decide (credLen s ≤ 216), 2)] fun _ => okR s (slice (portBlock s 8) 0 16 ++ credData s)

def portCredClear : CoreFn := fun c _ s =>
  wireSide c s [] fun _ =>
    let w := c.wFail.map Prod.fst
    let r := portWrites w 0 ([(8, 0 :: (portBlock s 8).drop 1)] ++ (List.range 7).map (fun i => (9 + i, List.replicate 32 0))) s
    if r.2 then okR r.1 [] else errR r.1 stFLASH (8 + (w.getD 0) % 8)

def execPortStateGet (v : Srv) (s : State) : Out := .next (serve 0x0E00 portStateGet v s)
def execPortCfgSet (v : Srv) (s : State) : Out := .next (serve 0x0E01 portCfgSet v s)
def execPortCfgGet (v : Srv) (s : State) : Out := .next (serve 0x0E02 portCfgGet v s)
def execPortMemRead (v : Srv) (s : State) : Out := .next (serve 0x0E10 portMemRead v s)
def execPortMemWrite (v : Srv) (s : State) : Out := .next (serve 0x0E11 portMemWrite v s)
def execPortPwSet (v : Srv) (s : State) : Out := .next (serve 0x0E20 portPwSet v s)
def execPortPwUnlock (v : Srv) (s : State) : Out := .next (serve 0x0E21 portPwUnlock v s)
def execPortPwGet (v : Srv) (s : State) : Out := .next (serve 0x0E22 portPwGet v s)
def execPortCredGet (v : Srv) (s : State) : Out := .next (serve 0x0E30 portCredGet v s)
def execPortCredClear (v : Srv) (s : State) : Out := .next (serve 0x0E31 portCredClear v s)

end Sys2Proof.Machine
end

