-- ==== Sys2Proof/Machine/Bus.lean ====
section
/-! DEFINITION. The application bus (R16 to R21): the address map, every register block, the XIP window and the RAMs, and the mailbox registers that
the host port shares (chapter 02). -/

namespace Sys2Proof.Machine

/-! ### Mailbox registers (R38 to R40) -/

def whoReq : Who → Requester
  | .app => .app | .host => .host

/-- R39, R43, R453: a doorbell of channel `n`. -/
def ring (who : Who) (s : State) (n : Nat) : State :=
  if chanOwner s n ≠ whoReq who then updMbx (fun m => { m with notown := setBit m.notown n true }) s
  else match at_ .idle s.mbx.chan n with
    | .idle =>
      let s1 := updMbx (fun m => { m with chan := m.chan.set n .busy }) s
      latchSet 8 (match who with | .host => updPwr (fun p => { p with hostDepth := .none }) s1 | .app => s1)
    | _ => updMbx (fun m => { m with dblate := setBit m.dblate n true }) s

/-- A write of MBX_DB. -/
def doorbells (who : Who) (v : Word) (s : State) : State := ((List.range 6).filter (fun n => bit v n)).foldl (ring who) s

/-- R39, R453: an acknowledgement of channel `n`. -/
def ackOne (who : Who) (s : State) (n : Nat) : State :=
  if chanOwner s n ≠ whoReq who then updMbx (fun m => { m with notown := setBit m.notown n true }) s
  else match at_ .idle s.mbx.chan n with
    | .done =>
      let s1 := updMbx (fun m => { m with chan := m.chan.set n .idle }) s
      match who with | .host => hostSleeps n s1 | .app => s1
    | _ => s

/-- A write of MBX_ACK. -/
def acks (who : Who) (v : Word) (s : State) : State := ((List.range 8).filter (fun n => bit v n)).foldl (ackOne who) s

def chanCode : ChanState → Nat
  | .idle => 0 | .busy => 1 | .done => 2

/-- MBX_STAT. -/
def mbxStat (s : State) : Nat := ((List.range 8).map (fun n => chanCode (at_ .idle s.mbx.chan n) * 4 ^ n)).sum + 2 ^ 16 * b2n s.mbx.netrdy

def mbxErr (s : State) : Nat := s.mbx.dblate.toNat + 2 ^ 8 * s.mbx.reqwr.toNat + 2 ^ 16 * s.mbx.notown.toNat
def mbxOwn (s : State) : Nat := s.mbx.own.toNat + 2 ^ 7 + 2 ^ 8 * b2n (ch7Active s)

def mbxRead (s : State) (off : Nat) : Nat :=
  match off with
  | 0x04 => mbxStat s
  | 0x0C => s.mbx.ien.toNat
  | 0x10 => mbxErr s
  | 0x14 => mbxOwn s
  | _ => 0

def mbxWrite (who : Who) (off : Nat) (v : Word) (s : State) : State :=
  match off with
  | 0x00 => doorbells who v s
  | 0x08 => acks who v s
  | 0x0C => updMbx (fun m => { m with ien := v.extractLsb' 0 8 }) s
  | 0x10 => updMbx (fun m => { m with dblate := m.dblate &&& ~~~(v.extractLsb' 0 8), reqwr := m.reqwr &&& ~~~(v.extractLsb' 8 8),
                                       notown := m.notown &&& ~~~(v.extractLsb' 16 8) }) s
  | _ => s

/-- R40: the BUSY channel in whose request buffer an address lies. -/
def busyBuffer (s : State) (a : Nat) : Option Nat :=
  if sharedBase ≤ a ∧ a < sharedBase + 0x1000 ∧ (a - sharedBase) % 0x200 < 0x100 ∧ chanBusy s ((a - sharedBase) / 0x200) then
    some ((a - sharedBase) / 0x200)
  else none

/-- A write to RAM by the core or the host: a BUSY channel's request buffer takes nothing (R40). -/
def ramWrite (a : Nat) (l : List Byte) (s : State) : State :=
  match busyBuffer s a with
  | some n => updMbx (fun m => { m with reqwr := setBit m.reqwr n true }) s
  | none => wrBytes s a l

/-! ### Queue ports (R16, R7) -/

/-- A read of register `off` of queue `q`'s port; none when a POP stalls. -/
def qmRead (m : Master) (q off : Nat) (rd : Option Nat) (s : State) : State × Option Nat :=
  if !queuePresent s q then (s, some 0)
  else match off with
    | 0x4 => portPop m q .none rd s
    | 0x8 => (s, some (queueStatus s q))
    | 0xC => (s, some (queueLimit s q))
    | _ => (s, some 0)

def qmWrite (m : Master) (q off : Nat) (v : Word) (s : State) : State :=
  if !queuePresent s q then s
  else match off with
    | 0x0 => portPush q v s
    | 0x4 => portLand m q v s
    | 0x8 => clearStatus q v s
    | _ => s

/-! ### SYSCTL -/

def clkStat (s : State) : Nat :=
  let c := s.clk
  b2n c.xordy + 2 * b2n c.plllock + 4 * b2n c.rootsrc + 8 * b2n c.tcxo + 16 * b2n c.rootfail + 32 * b2n c.lfxrdy

def mtimeStat (s : State) : Nat :=
  b2n (s.clk.rate != .held) + 2 * b2n s.clk.sync + 4 * b2n s.clk.slow + 8 * b2n s.clk.gap

def rstCause (s : State) : Nat := s.boot.causeApp + 16 * s.boot.causeNet + 256 * b2n s.boot.simul + 2 ^ 16 * s.boot.hist.toNat

def bootStat (s : State) : Nat :=
  let b := s.boot
  b.optCopy + 4 * b2n b.repaired + 8 * b2n b.merged + 16 * b2n b.imgFull + 32 * b2n b.migrated + 64 * b2n b.setDef + 128 * b2n b.forced

def sysctlRead (off : Nat) (s : State) : State × Nat :=
  match off with
  | 0x04 => (s, (Config.devcap s.dev.variant).toNat)
  | 0x10 => (s, clkStat s)
  | 0x14 => (s, s.clk.scalCount + 2 ^ 31 * b2n s.clk.scalValid)
  | 0x18 => mtimeLoRead s
  | 0x1C => (s, s.clk.mtimeHi)
  | 0x20 => (s, mtimeStat s)
  | 0x24 => (s, rstCause s)
  | 0x2C => (s, bootStat s)
  | _ => (s, 0)

def sysctlWrite (off : Nat) (v : Word) (s : State) : State :=
  match off with
  | 0x10 => updClk (fun c => { c with rootfail := c.rootfail && !bit v 4 }) s
  | 0x20 => updClk (fun c => { c with gap := c.gap && !bit v 3 }) s
  | 0x24 => updBoot (fun b => { b with hist := b.hist &&& ~~~(v.extractLsb' 16 9) }) s
  | 0x28 => corerstWrite v s
  | _ => s

/-! ### PWR -/

def pwrRead (s : State) (off : Nat) : Nat :=
  match off with
  | 0x00 => pwrModeReg s
  | 0x04 => depthCode s.pwr.sleepDepth
  | 0x08 => pwrStatReg s
  | 0x0C => pwrWakeEnReg s
  | 0x10 => s.pwr.latch.toNat
  | 0x14 => s.pwr.wakeApp.toNat
  | 0x18 => pwrRetainReg s
  | 0x1C => s.pwr.wakeAt % 2 ^ 32
  | 0x20 => s.pwr.wakeAtHi + 2 ^ 31 * b2n s.pwr.armed
  | 0x24 => pwrAcctReg s
  | 0x28 => pwrRefuserReg s
  | 0x2C => pwrLwReg s
  | 0x30 => s.pwr.lwMtime % 2 ^ 32
  | 0x34 => s.pwr.lwMtime / 2 ^ 32
  | 0x38 => s.pwr.lwRtc
  | _ => 0

def pwrWrite (off : Nat) (v : Word) (s : State) : State :=
  match off with
  | 0x04 => sleepWrite v s
  | 0x0C => wakeEnWrite v s
  | 0x10 => updPwr (fun p => { p with latch := p.latch &&& ~~~(v.extractLsb' 0 10 &&& 0x0B7) }) s
  | 0x14 => updPwr (fun p => { p with wakeApp := v.extractLsb' 0 10 }) s
  | 0x18 => updPwr (fun p => { p with retainApp := v.extractLsb' 0 8 }) s
  | 0x1C => wakeAtWrite v s
  | 0x20 => updPwr (fun p => { p with wakeAtHi := v.toNat % 2 ^ 24 }) s
  | 0x3C => if bit v 0 then acctClear s else s
  | _ => s

/-! ### RTC (R561) -/

def Alarm.timeReg (a : Alarm) : Nat :=
  at_ 0 a.vals 0 + 2 ^ 8 * at_ 0 a.vals 1 + 2 ^ 16 * at_ 0 a.vals 2 + 2 ^ 24 * bits a.mask.toNat 0 3
def Alarm.dateReg (a : Alarm) : Nat :=
  at_ 0 a.vals 3 + 2 ^ 8 * at_ 0 a.vals 4 + 2 ^ 12 * at_ 0 a.vals 5 + 2 ^ 24 * bits a.mask.toNat 3 3 + 2 ^ 31 * b2n a.en
def Alarm.setTime (a : Alarm) (n : Nat) : Alarm :=
  { a with vals := [bits n 0 6, bits n 8 6, bits n 16 5] ++ a.vals.drop 3, mask := BitVec.ofNat 6 (bits n 24 3 + 8 * bits a.mask.toNat 3 3) }
def Alarm.setDate (a : Alarm) (n : Nat) : Alarm :=
  { a with vals := a.vals.take 3 ++ [bits n 0 5, bits n 8 4, bits n 12 12], mask := BitVec.ofNat 6 (bits a.mask.toNat 0 3 + 8 * bits n 24 3),
           en := n.testBit 31 }

/-- A register read of a core; the time registers freeze (R554). -/
def rtcRegRead (off : Nat) (s : State) : State × Nat :=
  if off < 0x20 ∧ off % 4 = 0 then rtcRead false (off / 4) s
  else match off with
    | 0x28 => (s, rtcStat s false)
    | 0x2C => (s, s.rtc.bkstamp)
    | 0x30 => (s, s.rtc.alm0.timeReg)
    | 0x34 => (s, s.rtc.alm0.dateReg)
    | 0x38 => (s, s.rtc.alm1.timeReg)
    | 0x3C => (s, s.rtc.alm1.dateReg)
    | _ => (s, 0)

def rtcRegWrite (off : Nat) (v : Word) (s : State) : State :=
  if off < 0x20 ∧ off % 4 = 0 then rtcStage false (off / 4) v.toNat s
  else match off with
    | 0x20 => rtcSet false v.toNat s
    | 0x24 => rtcThaw false v s
    | 0x28 => rtcStatWrite false v s
    | 0x30 => updRtc (fun r => { r with alm0 := r.alm0.setTime v.toNat }) s
    | 0x34 => updRtc (fun r => { r with alm0 := r.alm0.setDate v.toNat }) s
    | 0x38 => updRtc (fun r => { r with alm1 := r.alm1.setTime v.toNat }) s
    | 0x3C => updRtc (fun r => { r with alm1 := r.alm1.setDate v.toNat }) s
    | _ => s

/-! ### PADS (R468, R645 to R647) -/

/-- R645: what drives a pin: a serial engine's signal, or a timer. -/
inductive PinUse where
  | gpio
  | ain
  /-- engine number and signal 0 A to 3 D -/ | se (n signal : Nat)
  | tmr (n : Nat)
  deriving DecidableEq, Repr

def pinUse (s : State) (pin : Nat) : PinUse :=
  match bits s.pads.live.func.toNat (2 * pin) 2 with
  | 0 => .gpio
  | 1 =>
    if pin < 8 then .se (pin / 4) (pin % 4)
    else if pin < 12 then .tmr (pin - 8)
    else .se ((pin - 12) / 4) (pin % 4)
  | _ =>
    if pin < 2 then .tmr pin
    else if pin = 4 ∨ pin = 5 then .tmr (pin - 2)
    else if pin = 10 then .se 0 3
    else if pin = 11 then .se 1 3
    else .ain

/-- R652: the signal is an output that the engine drives push-pull. -/
def Se.drives (e : Se) (signal : Nat) : Bool :=
  e.en && (match e.role, signal with
    | 0, 0 => true | 0, 1 => true | 0, 3 => bit e.ctl 6
    | 2, 0 => true | 2, 2 => bit e.ctl 13
    | _, _ => false)

/-- R646: the level of an input: what drives it from outside, its pull, or an undefined level. -/
def inputLevel (s : State) (pin : Nat) : State × Bool :=
  if bit s.pads.driven pin then (s, bit s.pads.level pin)
  else match bits s.pads.live.pull.toNat (2 * pin) 2 with
    | 1 => (s, false)
    | 2 => (s, true)
    | _ => let f := fresh s; (f.2, f.1 % 2 == 1)

/-- The level of a pin in PADS_IN. The level a serial engine gives its outputs while it works is its own (log 123). -/
def pinLevel (s : State) (pin : Nat) : State × Bool :=
  match pinUse s pin with
  | .ain => (s, false)
  | .gpio => if bit s.pads.live.dir pin then (s, bit s.pads.live.out pin) else inputLevel s pin
  | .se n k =>
    if !(seOf s n).drives k then inputLevel s pin
    else if (seOf s n).role = 0 ∧ k = 3 then (s, !((seOf s n).phase == .transfer || (seOf s n).csHeld))
    else let f := fresh s; (f.2, f.1 % 2 == 1)
  | .tmr n => let t := tmrOf s n; if t.en && t.mode != 2 then (s, t.out != bit t.ctl 14) else inputLevel s pin

/-- PADS_IN. -/
def padsIn (s : State) : State × Nat :=
  (List.range (Config.gpio s.dev.variant)).foldl (fun a n => let r := pinLevel a.1 n; (r.1, a.2 + 2 ^ n * b2n r.2)) (s, 0)

/-- R468: a write of a 2-bit field per pin: a reserved code leaves its field, and pins the variant lacks take nothing (R7). -/
def padFields (pins : Nat) (bad : Nat → Nat → Bool) (first count v : Nat) (old : BitVec 40) : BitVec 40 :=
  (List.range count).foldl (fun a i =>
    let p := first + i
    let c := bits v (2 * i) 2
    if pins ≤ p || bad p c then a else setBit (setBit a (2 * p) (c.testBit 0)) (2 * p + 1) (c.testBit 1)) old

def pullBad (_ c : Nat) : Bool := c == 3
/-- R645: code 3, and code 2 on GPIO12 to GPIO19. -/
def funcBad (p c : Nat) : Bool := c == 3 || (c == 2 && decide (12 ≤ p))

def padsRead (off : Nat) (s : State) : State × Nat :=
  let r := s.pads.regs
  match off with
  | 0x00 => (s, 2 * b2n s.pads.shadow.isSome)
  | 0x04 => (s, r.dir.toNat)
  | 0x08 => (s, r.out.toNat)
  | 0x14 => padsIn s
  | 0x18 => (s, bits r.pull.toNat 0 32)
  | 0x1C => (s, bits r.pull.toNat 32 8)
  | 0x20 => (s, bits r.func.toNat 0 32)
  | 0x24 => (s, bits r.func.toNat 32 8)
  | 0x28 => (s, s.pads.wakeEn.toNat)
  | 0x2C => (s, s.pads.wakePol.toNat)
  | 0x30 => (s, s.pads.wakeFlag.toNat)
  | _ => (s, 0)

def padsWrite (off : Nat) (v : Word) (s : State) : State :=
  let pins := Config.gpio s.dev.variant
  let m : BitVec 20 := v.extractLsb' 0 20 &&& pinMask s
  match off with
  | 0x00 => padsRelease v s
  | 0x04 => updPads (fun r => { r with dir := m }) s
  | 0x08 => updPads (fun r => { r with out := m }) s
  | 0x0C => outSet v s
  | 0x10 => outClr v s
  | 0x18 => updPads (fun r => { r with pull := padFields pins pullBad 0 16 v.toNat r.pull }) s
  | 0x1C => updPads (fun r => { r with pull := padFields pins pullBad 16 4 v.toNat r.pull }) s
  | 0x20 => updPads (fun r => { r with func := padFields pins funcBad 0 16 v.toNat r.func }) s
  | 0x24 => updPads (fun r => { r with func := padFields pins funcBad 16 4 v.toNat r.func }) s
  | 0x28 => { s with pads := { s.pads with wakeEn := m } }
  | 0x2C => { s with pads := { s.pads with wakePol := m } }
  | 0x30 => { s with pads := { s.pads with wakeFlag := s.pads.wakeFlag &&& ~~~(v.extractLsb' 0 20) } }
  | _ => s

/-! ### Sensor I/O (R658, R662, R664, R667) -/

def seRead (n off : Nat) (s : State) : State × Nat :=
  let e := seOf s n
  match off with
  | 0x00 => (s, e.ctl.toNat)
  | 0x04 => (s, e.div.toNat)
  | 0x08 => (s, e.xfer.toNat)
  | 0x0C => (updSe n (fun x => x.pop.1) s, e.pop.2)
  | 0x14 => (s, e.stat)
  | 0x18 => (s, e.ien.toNat)
  | _ => (s, 0)

/-- R658: SEn_GO. -/
def seGo (n : Nat) (v : Word) (s : State) : State :=
  let s1 := if bit v 0 then updSe n Se.go s else s
  let s2 := if bit v 1 then updSe n Se.abort s1 else s1
  if bit v 2 then updSe n Se.busclr s2 else s2

def seWrite (n off : Nat) (v : Word) (s : State) : State :=
  match off with
  | 0x00 => updSe n (fun e => e.config .ctl v) s
  | 0x04 => updSe n (fun e => e.config .div v) s
  | 0x08 => updSe n (fun e => e.config .xfer v) s
  | 0x0C => updSe n (fun e => e.push (v.extractLsb' 0 8)) s
  | 0x10 => seGo n v s
  | 0x14 => updSe n (fun e => e.clear v) s
  | 0x18 => updSe n (fun e => { e with ien := v.extractLsb' 0 3 }) s
  | _ => s

def adcRead (off : Nat) (s : State) : State × Nat :=
  let a := s.adc
  match off with
  | 0x00 => (s, a.ctl.toNat)
  | 0x04 => (s, a.seq.toNat)
  | 0x0C => (updAdc (fun x => x.pop.1) s, a.pop.2)
  | 0x10 => (s, a.stat)
  | 0x14 => (s, a.ien.toNat)
  | 0x18 => (s, a.code25 + 2 ^ 16 * a.slope)
  | _ => (s, 0)

def adcWrite (off : Nat) (v : Word) (s : State) : State :=
  match off with
  | 0x00 => updAdc (fun a => a.ctlWrite v) s
  | 0x04 => updAdc (fun a => { a with seq := v.extractLsb' 0 27 }) s
  | 0x08 => adcStart v s
  | 0x10 => updAdc (fun a => a.clear v) s
  | 0x14 => updAdc (fun a => { a with ien := v.extractLsb' 0 3 }) s
  | _ => s

/-- A read of a timer register. The count of a running timer depends on time the model does not measure (log 124). -/
def tmrRead (off : Nat) (s : State) : State × Nat :=
  if 0x80 ≤ off then (s, 0)
  else
    let t := tmrOf s (off / 0x20)
    match off % 0x20 with
    | 0x00 => (s, t.ctl.toNat)
    | 0x04 => if t.en then (let f := fresh s; (f.2, f.1 % (t.top.toNat + 1))) else (s, t.cnt.toNat)
    | 0x08 => (s, t.top.toNat)
    | 0x0C => (s, t.cmp.toNat)
    | 0x10 => (s, t.cap.toNat)
    | 0x14 => (s, t.stat.toNat)
    | 0x18 => (s, t.ien.toNat)
    | _ => (s, 0)

def tmrWrite (off : Nat) (v : Word) (s : State) : State :=
  if off = 0x80 then tmrSync v s
  else if 0x80 < off then s
  else
    let n := off / 0x20
    match off % 0x20 with
    | 0x00 => updTmr n (fun t => t.ctlWrite v) s
    | 0x04 => updTmr n (fun t => { t with cnt := v }) s
    | 0x08 => updTmr n (fun t => t.topWrite v) s
    | 0x0C => updTmr n (fun t => t.cmpWrite v) s
    | 0x14 => updTmr n (fun t => { t with stat := t.stat &&& ~~~(v.extractLsb' 0 4) }) s
    | 0x18 => updTmr n (fun t => { t with ien := v.extractLsb' 0 4 }) s
    | _ => s

def wdgRead (s : State) (off : Nat) : Nat :=
  let w := s.wdg
  match off with
  | 0x00 => b2n w.en + 2 * b2n w.warnEn + 4 * b2n w.lock
  | 0x04 => w.load
  | 0x0C => w.cnt
  | 0x10 => b2n w.warn
  | _ => 0

def wdgWrite (off : Nat) (v : Word) (s : State) : State :=
  match off with
  | 0x00 => updWdg (fun w => w.ctlWrite v) s
  | 0x04 => updWdg (fun w => w.loadWrite v) s
  | 0x08 => updWdg (fun w => w.feed v) s
  | 0x10 => updWdg (fun w => { w with warn := w.warn && !bit v 0 }) s
  | _ => s

/-! ### SHOT user window, PORTW and FLASHC -/

def shotCode : ShotState → Nat
  | .free => 0 | .opened => 1 | .armed => 2 | .quiescing => 3

def shotRead (s : State) (off : Nat) : Nat :=
  match off with
  | 0x00 => ((List.range 4).map (fun n => shotCode (shotOf s n).state * 4 ^ n)).sum
  | 0x04 => s.shots.done.toNat + 16 * s.shots.applied.toNat
  | 0x08 => s.shots.ien.toNat
  | _ => 0

def shotWrite (off : Nat) (v : Word) (s : State) : State :=
  match off with
  | 0x04 => { s with shots := { s.shots with done := s.shots.done &&& ~~~(v.extractLsb' 0 4), applied := s.shots.applied &&& ~~~(v.extractLsb' 4 4) } }
  | 0x08 => { s with shots := { s.shots with ien := v.extractLsb' 0 4 } }
  | _ => s

/-- R592: every register but PORTW_GRANT reads zero while the grant does not name the core. -/
def portwRead (s : State) (off : Nat) : Nat :=
  if off = 0 then b2n s.port.grant
  else if !s.port.grant then 0
  else if 0x20 ≤ off ∧ off < 0x40 ∧ off % 4 = 0 then at_ 0 s.port.buf ((off - 0x20) / 4)
  else match off with
    | 0x04 => portwLockState s
    | 0x08 => s.port.block
    | 0x10 => portwStat s
    | 0x14 => s.port.ien.toNat
    | _ => 0

def portwWrite (off : Nat) (v : Word) (s : State) : State :=
  if !s.port.grant then s
  else if 0x20 ≤ off ∧ off < 0x40 ∧ off % 4 = 0 then updPort (fun p => { p with buf := p.buf.set ((off - 0x20) / 4) v.toNat }) s
  else match off with
    | 0x04 => portwLock v s
    | 0x08 => updPort (fun p => { p with block := v.toNat % 256 }) s
    | 0x0C => portwCmdWrite v s
    | 0x10 => updPort (fun p => { p with done := p.done && !bit v 1, fieldEvt := p.fieldEvt && !bit v 9, lockEvt := p.lockEvt && !bit v 10 }) s
    | 0x14 => updPort (fun p => { p with ien := v.extractLsb' 0 3 }) s
    | _ => s

def flashcRead (off : Nat) (s : State) : State × Nat :=
  let f := s.flash
  match off with
  | 0x00 => (s, flashcCtl s)
  | 0x04 => (s, f.addr)
  | 0x08 => (s, f.waddr + 2 ^ 16 * f.len)
  | 0x10 => (s, flashcStat s)
  | 0x14 => (ecccntRead s, f.ce + 2 ^ 16 * f.ue)
  | 0x18 => (s, eccAddrReg s)
  | 0x1C => (s, f.rdLast + 4 * b2n f.stkUe + 8 * b2n f.stkUnrel)
  | 0x20 => (s, f.bsel)
  | 0x24 => (s, f.bstatEcnt + 2 ^ 24 * f.bstatState + 2 ^ 31 * b2n f.bstatReady)
  | 0x28 => (s, b2n f.lockApp)
  | _ => (s, 0)

def flashcWrite (off : Nat) (v : Word) (s : State) : State :=
  match off with
  | 0x00 => updFlash (fun f => { f with autosus := bit v 0, errfault := bit v 1, ien := bit v 2 }) s
  | 0x04 => updFlash (fun f => { f with addr := v.toNat % 2 ^ 26 }) s
  | 0x08 => updFlash (fun f => { f with waddr := v.toNat % 2 ^ 13, len := bits v.toNat 16 9 }) s
  | 0x0C => flashcCmd v s
  | 0x10 => updFlash (fun f => { f with done := f.done && !bit v 1 }) s
  | 0x1C => updFlash (fun f => { f with stkUe := f.stkUe && !bit v 2, stkUnrel := f.stkUnrel && !bit v 3 }) s
  | 0x20 => bselWrite v s
  | 0x28 => lockWrite v s
  | _ => s

/-! ### The map (R19, R20) -/

/-- What lies at an address. -/
inductive Place where
  | rom | xip | ram | shared | reg | none
  deriving DecidableEq, Repr

def placeOf (a : Nat) : Place :=
  if a < 0x8000 then .rom
  else if xipBase ≤ a ∧ a < xipBase + 0x4000000 then .xip
  else if 0x20000000 ≤ a ∧ a < 0x20080000 then .ram
  else if sharedBase ≤ a ∧ a < sharedBase + 0x8000 then .shared
  else if 0x30000000 ≤ a ∧ a < 0x30004000 then .ram
  else if 0x40000000 ≤ a ∧ a < 0x4000C000 then .reg
  else if 0x48000000 ≤ a ∧ a < 0x48002000 then .reg
  else if 0x49000000 ≤ a ∧ a < 0x49001000 then .reg
  else .none

def pureR (s : State) (v : Nat) : State × Option Nat := (s, some v)
def someR (r : State × Nat) : State × Option Nat := (r.1, some r.2)

/-- The application core reads the register at an aligned address; none when a POP stalls. -/
def regRead (a : Nat) (rd : Option Nat) (s : State) : State × Option Nat :=
  let off := a % 0x1000
  if 0x49000000 ≤ a then someR (flashcRead off s)
  else if 0x48000000 ≤ a then qmRead .app ((a - 0x48000000) / 16) (a % 16) rd s
  else match a / 0x1000 - 0x40000 with
    | 0x0 => someR (sysctlRead off s)
    | 0x1 => pureR s (pwrRead s off)
    | 0x2 => pureR s (mbxRead s off)
    | 0x3 => someR (rtcRegRead off s)
    | 0x4 => someR (padsRead off s)
    | 0x5 => someR (seRead 0 off s)
    | 0x6 => someR (seRead 1 off s)
    | 0x7 => someR (adcRead off s)
    | 0x8 => someR (tmrRead off s)
    | 0x9 => pureR s (wdgRead s off)
    | 0xA => pureR s (shotRead s off)
    | _ => pureR s (portwRead s off)

/-- The application core writes the register at an aligned address. -/
def regWrite (a : Nat) (v : Word) (s : State) : State :=
  let off := a % 0x1000
  if 0x49000000 ≤ a then flashcWrite off v s
  else if 0x48000000 ≤ a then qmWrite .app ((a - 0x48000000) / 16) (a % 16) v s
  else match a / 0x1000 - 0x40000 with
    | 0x0 => sysctlWrite off v s
    | 0x1 => pwrWrite off v s
    | 0x2 => mbxWrite .app off v s
    | 0x3 => rtcRegWrite off v s
    | 0x4 => padsWrite off v s
    | 0x5 => seWrite 0 off v s
    | 0x6 => seWrite 1 off v s
    | 0x7 => adcWrite off v s
    | 0x8 => tmrWrite off v s
    | 0x9 => wdgWrite off v s
    | 0xA => shotWrite off v s
    | _ => portwWrite off v s

/-! ### Accesses of the application core -/

def sizeBytes : Size → Nat
  | .b => 1 | .h => 2 | .w => 4

/-- What an access answers: a value, a stall of a POP, a wait for the flash, an alignment failure, a bus fault. -/
inductive BusRes where
  | val (v : Nat) | stall | wait | align | fault
  deriving DecidableEq, Repr

/-- R604 check 1. -/
def misaligned (a : Nat) (z : Size) : Bool := a % sizeBytes z != 0 && placeOf a != .reg && placeOf a != .none

/-- R18, R499 to R501: a read of the XIP window. -/
def xipRead (a n : Nat) (fetch : Bool) (s : State) : State × BusRes :=
  if !xipRange s a n then (s, .fault)
  else match flashRead (a - xipBase) n s.flash.autosus s with
    | none => (s, .wait)
    | some (t, l, st) =>
      let bad : Bool := bits st 1 2 != 0
      if fetch then (t, if bad then .fault else .val (unle l))
      else
        let last := if st.testBit 1 then 2 else if st.testBit 2 then 3 else if st.testBit 0 then 1 else 0
        let ret : Bool := !(bad && s.flash.errfault)
        (updFlash (fun f => { f with rdLast := last, stkUe := f.stkUe || (ret && last == 2), stkUnrel := f.stkUnrel || (ret && last == 3) }) t,
          if ret then .val (unle l) else .fault)

/-- Bytes of the boot ROM (log 8). -/
def romBytes (a : Nat) : Nat → List Byte
  | 0 => []
  | n + 1 => Config.rom a :: romBytes (a + 1) n

/-- R20, R604: a read that has passed the alignment check; `rd` is the register a stalled POP will write. -/
def busRead (a : Nat) (z : Size) (rd : Option Nat) (s : State) : State × BusRes :=
  match placeOf a with
  | .rom => (s, .val (unle (romBytes a (sizeBytes z))))
  | .xip => xipRead a (sizeBytes z) false s
  | .ram => (s, .val (unle (rdBytes s a (sizeBytes z))))
  | .shared => (s, .val (unle (rdBytes s a (sizeBytes z))))
  | .reg =>
    if z ≠ .w ∨ a % 4 ≠ 0 then (s, .fault)
    else match regRead a rd s with
      | (t, some v) => (t, .val v)
      | (t, none) => (t, .stall)
  | .none => (s, .fault)

/-- R20: a write that has passed the alignment check; none is a bus fault. -/
def busWrite (a : Nat) (z : Size) (v : Word) (s : State) : Option State :=
  match placeOf a with
  | .ram => some (wrBytes s a (le (sizeBytes z) v.toNat))
  | .shared => some (ramWrite a (le (sizeBytes z) v.toNat) s)
  | .reg => if z ≠ .w ∨ a % 4 ≠ 0 then none else some (regWrite a v s)
  | _ => none

/-! ### Rows -/

def execDoorbell (who : Who) (v : Word) (s : State) : Out := .next (if mayAccess s who then doorbells who v s else s)
def execMbxAck (who : Who) (v : Word) (s : State) : Out := .next (if mayAccess s who then acks who v s else s)

/-- R82: the host may write a word at this offset of the buffers: those of the channels it owns. -/
def hostOwnsBuffer (s : State) (off : Nat) : Bool := decide (off < 0x1000) && chanOwner s (off / 0x200) == .host

/-- R40: a write into a request buffer. A write that R20 or R82 forbids, or that goes elsewhere, is not this row. -/
def execRequestBufferWrite (who : Who) (addr : Nat) (size : Size) (v : Word) (s : State) : Out :=
  .next <|
    if !mayAccess s who || !(decide (sharedBase ≤ addr ∧ addr < sharedBase + 0x1000) && decide ((addr - sharedBase) % 0x200 < 0x100)) ||
        addr % sizeBytes size != 0 then s
    else match who with
      | .app => ramWrite addr (le (sizeBytes size) v.toNat) s
      | .host => if size = .w && hostOwnsBuffer s (addr - sharedBase) then ramWrite addr (le 4 v.toNat) s else s

/-- A write of a register that has no row of its own, by the core or, in the MBX block and the queue ports, by the host port (R79). -/
def execRegisterWrite (who : Who) (addr : Word) (v : Word) (s : State) : Out :=
  .next <|
    let a := addr.toNat
    if !mayAccess s who || placeOf a != .reg || a % 4 != 0 then s
    else match who with
      | .app => regWrite a v s
      | .host =>
        if 0x40002000 ≤ a ∧ a < 0x40003000 then mbxWrite .host (a % 0x1000) v s
        else if 0x48000000 ≤ a ∧ a < 0x48002000 then qmWrite .host ((a - 0x48000000) / 16) (a % 16) v s
        else s

end Sys2Proof.Machine
end

