-- ==== Sys2Proof/Machine/HostPort.lean ====
section
/-! DEFINITION. The SPI host port's transactions (R79 to R82), the delivery of events (R59 to R63) and the end of a lockout (R58). -/

namespace Sys2Proof.Machine

/-! ### Transactions -/

/-- R82: HOST_IRQ is low: a host-owned channel is DONE. -/
def hostIrq (s : State) : Bool := (List.range 8).any (fun n => chanOwner s n == .host && at_ .idle s.mbx.chan n == .done)

/-- R80: the status byte. -/
def hostStatus (s : State) : Nat := b2n s.mbx.netrdy + 2 * b2n (hostIrq s) + 4 * b2n s.hostp.err

/-- R81: whole data words, least significant byte first; what is left over is a partial word. -/
def sdiWords : List Byte → List Word
  | a :: b :: c :: d :: r => BitVec.ofNat 32 (unle [a, b, c, d]) :: sdiWords r
  | _ => []

/-- R79, R82: a word written to SPACE at an offset; false when the access fails. -/
def hostWrite (space a : Nat) (v : Word) (s : State) : State × Bool :=
  match space with
  | 0 => if hostOwnsBuffer s a then (ramWrite (sharedBase + a) (le 4 v.toNat) s, true) else (s, false)
  | 1 => if a < 0x1000 then (mbxWrite .host a v s, true) else (s, false)
  | 2 => if a < 0x2000 then (qmWrite .host (a / 16) (a % 16) v s, true) else (s, false)
  | _ => (s, false)

/-- R81: words written one after another, each judged as it arrives (log 33). -/
def hostWrites (space : Nat) : List Word → Nat → State → State × Bool
  | [], _, s => (s, true)
  | v :: r, a, s =>
    let x := hostWrite space a v s
    let y := hostWrites space r (if space = 2 then a else a + 4) x.1
    (y.1, x.2 && y.2)

/-- A word read from SPACE; `first` tells whether a POP may still be made, and `more` how many words follow. -/
def hostRead (space a : Nat) (first : Bool) (s : State) : State × Option Nat × Bool :=
  match space with
  | 0 => if hostOwnsBuffer s a then (s, some (unle (rdBytes s (sharedBase + a) 4)), true) else (s, some 0, false)
  | 1 => if a < 0x1000 then (s, some (mbxRead s a), true) else (s, some 0, false)
  | 2 =>
    if 0x2000 ≤ a then (s, some 0, false)
    else if a % 16 = 4 && !first then (s, some emptyToken, true)
    else let r := qmRead .host (a / 16) (a % 16) none s; (r.1, r.2, true)
  | _ => (s, some 0, false)

/-- R81: words read one after another: the data, whether all succeeded, and whether the first stalls in a POP. -/
def hostReads (space : Nat) : Nat → Nat → Bool → State → State × List Byte × Bool × Bool
  | 0, _, _, s => (s, [], true, false)
  | n + 1, a, first, s =>
    match hostRead space a first s with
    | (t, none, _) => (t, [], true, true)
    | (t, some v, ok) =>
      let y := hostReads space n (if space = 2 then a else a + 4) false t
      (y.1, le 4 v ++ y.2.1, ok && y.2.2.1, y.2.2.2)

/-- R81: a transaction that ends before the marker takes nothing: its stalled POP is dropped. -/
def hostEnds (s : State) : State :=
  if s.hostp.cs then { updQm (fun m => { m with stalls := m.stalls.filter (fun t => t.master != .host) }) s with hostp := { s.hostp with cs := false, left := 0 } }
  else s

/-- R79: the fields of the access header. -/
def sdiOp (sdi : List Byte) : Nat := u8 sdi 0 / 64
def sdiSpace (sdi : List Byte) : Nat := u8 sdi 0 / 16 % 4
def sdiAddr (sdi : List Byte) : Nat := unbe (slice sdi 1 3)

/-- R79, R82: the header is whole, its OP is the one meant, its SPACE exists and its ADDRESS is a multiple of 4. -/
def headerOk (sdi : List Byte) (op : Nat) : Bool :=
  decide (4 ≤ sdi.length) && sdiOp sdi == op && decide (sdiSpace sdi < 3) && sdiAddr sdi % 4 == 0

/-- A transaction that writes: every byte on HOST_SDI, and whether a part of a byte follows them. One whose OP reads is not this row. -/
def execHostWriteTransaction (sdi : List Byte) (partWord : Bool) (s0 : State) : Out :=
  .next <|
    if !mayAccess s0 .host || (decide (4 ≤ sdi.length) && sdiOp sdi == 0) then s0
    else
      let s := hostEnds s0
      let part : Bool := partWord || sdi.length % 4 != 0
      let sent := [BitVec.ofNat 8 (hostStatus s), 0, 0, 0]
      let r := if headerOk sdi 1 then hostWrites (sdiSpace sdi) (sdiWords (sdi.drop 4)) (sdiAddr sdi) s else (s, false)
      { r.1 with hostp := { r.1.hostp with err := part || !r.2, sdo := sent } }

/-- A transaction that reads `words` words; the number of wait bytes, at most 2, is open. -/
def execHostReadTransaction (sdi : List Byte) (words : Nat) (partWord : Bool) (s0 : State) : Out :=
  .next <|
    if !mayAccess s0 .host || (decide (4 ≤ sdi.length) && sdiOp sdi != 0) then s0
    else
      let s := hostEnds s0
      let f := fresh s
      let sent := [BitVec.ofNat 8 (hostStatus s), 0, 0, 0] ++ List.replicate (f.1 % 3) 0
      if !headerOk sdi 0 then
        { f.2 with hostp := { f.2.hostp with err := true, sdo := sent ++ (0x01#8 :: List.replicate (4 * words) 0) } }
      else
        let r := hostReads (sdiSpace sdi) words (sdiAddr sdi) true f.2
        if r.2.2.2 then { r.1 with hostp := { r.1.hostp with err := partWord, cs := true, left := words - 1, sdo := sent } }
        else { r.1 with hostp := { r.1.hostp with err := partWord || !r.2.2.1, sdo := sent ++ (0x01#8 :: r.2.1) } }

/-! ### Events -/

/-- R59, R62: the message of an event: its header carries the count of discarded events when there are any. -/
def eventMessage (e : Ev) (seq lost : Nat) : List Byte :=
  let more : Bool := match e.kind with | .survey m => m | _ => false
  let flags := 6 + b2n e.auth.isSome + 8 * b2n (lost != 0) + 16 * b2n more
  let head := le 2 e.op ++ le 2 seq ++ le 2 e.payload.length ++ le 2 flags ++ le 4 0 ++ le 2 0 ++ le 2 lost
  match e.auth with
  | none => head ++ e.payload
  | some k => head ++ e.payload ++ trailer k head e.payload

/-- R62, R63: the next event of an IDLE event channel is written to its response buffer; a completion event frees its pending slot. -/
def eventWrite (ch : Nat) (s : State) : State :=
  let seven : Bool := ch == 7
  let q := evq s seven
  if (ch ≠ 6 ∧ ch ≠ 7) ∨ (seven && !ch7Active s) ∨ !firmwareServes s ∨ at_ .idle s.mbx.chan ch ≠ .idle then s
  else match q.events with
    | [] => s
    | e :: r =>
      let s1 := wrBytes (setEvq s seven { q with events := r, lost := 0, seq := (q.seq + 1) % 65536 }) (rspBuf ch) (eventMessage e q.seq q.lost)
      updMbx (fun m => { m with chan := m.chan.set ch .done,
                                pend := match e.kind with | .completion slot => m.pend.filter (fun p => p.slot != slot) | _ => m.pend }) s1

def execEventWrite (ch : Nat) (s : State) : Out := .next (eventWrite ch s)

/-- R58: 60 s of slow clock have passed. -/
def execAuthLockoutEnd (req : Requester) (s : State) : Out := .next (updMbx (fun m => { m with lockout := pset m.lockout req 0 }) s)

end Sys2Proof.Machine
end

