-- ==== Sys2Proof/Machine/System.lean ====
section
/-! DEFINITION. The system commands (R64 to R75). -/

namespace Sys2Proof.Machine

/-- R64: OPTION_COPY. -/
def optionCopy (s : State) : Nat := if s.boot.optCopy = 3 then 0xFF else s.boot.optCopy

/-- R66. -/
def sysInfo : CoreFn := fun _ _ s =>
  okR s (le 2 s.dev.stepping ++ le 4 s.dev.fwVersion ++ le 4 s.dev.loaderVersion ++ le 2 s.dev.settingsFormat ++ slice s.dev.eui64 0 8 ++
    le 1 (modeCode s.pwr.mode) ++ le 1 s.pwr.allowed.toNat ++ le 1 s.boot.causeNet ++ le 1 s.boot.debug ++ le 1 (optionCopy s) ++ le 3 0 ++ le 8 s.clk.mtime)

/-- R67. -/
def sysCaps : CoreFn := fun _ _ s =>
  let v := s.dev.variant
  okR s (le 4 (Config.devcap v).toNat ++ le 4 (Config.neighbours v) ++ le 4 (Config.routeRanges v) ++ le 4 (Config.queues v) ++ le 4 (Config.cells v) ++
    le 4 (Config.framesInFlight v) ++ le 4 (Config.flashKib v))

/-- R68: the reset follows 50 µs later. -/
def sysReset : CoreFn := fun _ p s =>
  guardR s [(decide (u8 p 0 ≤ 1), 0), rsv p 1 3] fun _ =>
    okR (updBoot (fun b => { b with delayed := some (if u8 p 0 = 0 then .sys else .ldr) }) s) []

/-- R71. -/
def debugUnlock : CoreFn := fun _ p s =>
  guardR s [(decide (1 ≤ u8 p 0 ∧ u8 p 0 ≤ 2), 0), rsv p 1 3] fun _ =>
    let t := updBoot (fun b => { b with debug := max b.debug (u8 p 0) }) s
    okR t (le 1 t.boot.debug ++ le 3 0)

/-! ### The option area (R70, R72, R73) -/

/-- Bytes of a block; the last four are its CRC. -/
def optBytes (b : OptBlock) (a n : Nat) : List Byte :=
  let crc : List Byte := if a + n ≤ 0xFFC then [] else le 4 (crc32 ((List.range 0xFFC).map (fun i => tget 0 i b.bytes)))
  (List.range n).map (fun i => if a + i < 0xFFC then tget 0 (a + i) b.bytes else crc.getD (a + i - 0xFFC) 0)

/-- R55, R72: SIZE is smaller when the response carries a trailer. -/
def optionRead : CoreFn := fun c p s =>
  let a := u16 p 0
  let n := u16 p 2
  guardR s [(decide (a < 4096), 0), (decide (1 ≤ n ∧ n ≤ (if c.auth.isSome then 228 else 232) ∧ a + n ≤ 4096), 2)] fun _ =>
    okR s (le 1 (optionCopy s) ++ le 3 0 ++ optBytes s.boot.opt a n)

/-- R73: the base block. -/
def optionBase (s : State) : OptBlock := s.boot.optBase.getD s.boot.opt

/-- R484: the reserved bytes. -/
def optReserved (a : Nat) : Bool :=
  a == 6 || a == 7 || a == 0xE || a == 0xF || decide (0x18 ≤ a ∧ a < 0x20) || decide (0x61 ≤ a ∧ a < 0x64) || decide (0x6C ≤ a ∧ a < 0x100) ||
    decide (0x800 ≤ a ∧ a < 0xFFC)

/-- R73: what a written byte alone offends: a reserved byte set, a CRC byte named, MAGIC or FORMAT changed. -/
def optByteBad (base new : OptBlock) (a : Nat) : Bool :=
  (optReserved a && oByte new a != 0) || decide (0xFFC ≤ a) || (decide (a < 6) && oByte new a != oByte base a)

/-- R484: the one-way fields have not gone back. -/
def optOneWay (base new : OptBlock) : List (Bool × Nat) :=
  [(oByte base 0x060 &&& oByte new 0x060 == oByte base 0x060, 0x060), (decide (oWord base 0x064 4 ≤ oWord new 0x064 4), 0x064),
   (decide (oWord base 0x068 4 ≤ oWord new 0x068 4), 0x068)]

/-- R523: the running network firmware would fail check 4 or 6 of R522; the offset of the byte whose change causes it. -/
def optRunning (s : State) (base new : OptBlock) : Option Nat :=
  if s.boot.stage == .loader then none
  else match s.upd.netfw with
    | none => none
    | some h =>
      let hash (b : OptBlock) (n : Nat) : Bool := (List.range 32).map (fun i => tget 0 (0x020 + 32 * n + i) b.bytes) == h.signer
      if !signerOk new h.signer then
        let kept := oPut new 0x060 (le 1 (oByte base 0x060))
        if signerOk kept h.signer then some 0x060
        else if hash base 0 && !hash new 0 && !(oByte base 0x060).testBit 0 then some 0x020 else some 0x040
      else if !versionOk new 1 h.version then some 0x064
      else none

/-- R73: the offset that a refused block offends at first. -/
def optOffends (s : State) (a n : Nat) (base new : OptBlock) : Option Nat :=
  let bytes := ((List.range n).map (fun i => a + i)).filter (optByteBad base new)
  let fields := ((optOneWay base new ++ optRange s.dev.variant new).filter (fun x => !x.1)).map (fun x => x.2)
  match (bytes ++ fields).min? with
  | some o => some o
  | none => optRunning s base new

/-- R73: both copies are written, the one not loaded at the last reset first; a copy whose write fails holds what it holds. -/
def optionStore (c : Ctx) (new : OptBlock) (s : State) (done : State → Res) : Res :=
  let firstOne : Bool := s.boot.optCopy == 2
  let set (one : Bool) (b : OptBlock) (t : State) : State := updBoot (fun x => if one then { x with copy1 := b } else { x with copy2 := b }) t
  match c.failAt 0 with
  | some b => errR s stFLASH (b % 65536)
  | none =>
    let s1 := updBoot (fun x => { x with optBase := some new }) (set firstOne new s)
    match c.failAt 1 with
    | some b =>
      let f := fresh s1
      let old := if firstOne then s.boot.copy2 else s.boot.copy1
      errR (set (!firstOne) { old with crcOk := f.1 % 2 == 1 } f.2) stFLASH (b % 65536)
    | none => done (set (!firstOne) new s1)

/-- R73. -/
def optionWrite : CoreFn := fun c p s =>
  let a := u16 p 0
  let n := u16 p 2
  let base := optionBase s
  guardR s [(decide (a < 4096), 0)] fun _ =>
    let new : OptBlock := { oPut base a (slice p 4 (min n (0xFFC - a))) with crcOk := true }
    match optOffends s a n base new with
    | some o => badR s o
    | none => optionStore c new s fun t => okR t []

/-- R70: the mask goes into both copies, and into the block in force. -/
def modeLock : CoreFn := fun c p s =>
  let m := u8 p 0
  guardR s [(decide (m < 64) && m.testBit 5 && m.testBit (modeCode s.pwr.mode), 0), rsv p 1 3] fun _ =>
    optionStore c (oPut (optionBase s) 0x00C (le 1 m)) s fun t =>
      okR { t with boot := { t.boot with opt := oPut t.boot.opt 0x00C (le 1 m) }, pwr := { t.pwr with allowed := BitVec.ofNat 6 m } } (le 1 m ++ le 3 0)

/-! ### Counters and filters (R56, R65, R74, R75) -/

def counterRec (s : State) (r : Requester) : List Byte :=
  le 4 (pget s.mbx.counter r) ++ le 1 (pget s.mbx.fails r) ++ le 1 0 ++ le 2 (cdiv (pget s.mbx.lockout r) 32768)

def cmdCounterGet : CoreFn := fun _ _ s => okR s (counterRec s .app ++ counterRec s .host ++ counterRec s .port)

def codeReq : Nat → Requester
  | 0 => .app | 1 => .host | _ => .port

def counterRaise : CoreFn := fun c p s =>
  let r := codeReq (u8 p 0)
  guardR s [(decide (u8 p 0 ≤ 2), 0), rsv p 1 3, (decide (pget s.mbx.counter r < u32 p 4), 4)] fun _ =>
    match c.failAt 0 with
    | some b => errR s stFLASH (b % 65536)
    | none => okR (updMbx (fun m => { m with counter := pset m.counter r (u32 p 4) }) s) []

/-- R65: the system group is always enabled. -/
def eventFilterSet : CoreFn := fun _ p s =>
  let seven : Bool := u8 p 0 == 7
  guardR s [(decide (u8 p 0 = 6 ∨ u8 p 0 = 7), 0), rsv p 1 1, (u16 p 2 % 2 == 0, 2)] fun _ =>
    let m := u16 p 2 ||| 2
    okR (setEvq s seven { evq s seven with mask := m }) (le 2 m)

def eventFilterGet : CoreFn := fun _ p s =>
  guardR s [(decide (u8 p 0 = 6 ∨ u8 p 0 = 7), 0), rsv p 1 3] fun _ => okR s (le 2 (evq s (u8 p 0 == 7)).mask)

def execSysInfo (v : Srv) (s : State) : Out := .next (serve 0x0100 sysInfo v s)
def execSysCaps (v : Srv) (s : State) : Out := .next (serve 0x0101 sysCaps v s)
def execSysReset (v : Srv) (s : State) : Out := .next (serve 0x0103 sysReset v s)
def execModeLock (v : Srv) (s : State) : Out := .next (serve 0x0112 modeLock v s)
def execDebugUnlock (v : Srv) (s : State) : Out := .next (serve 0x0120 debugUnlock v s)
def execOptionRead (v : Srv) (s : State) : Out := .next (serve 0x0130 optionRead v s)
def execOptionWrite (v : Srv) (s : State) : Out := .next (serve 0x0131 optionWrite v s)
def execCmdCounterGet (v : Srv) (s : State) : Out := .next (serve 0x0140 cmdCounterGet v s)
def execCounterRaise (v : Srv) (s : State) : Out := .next (serve 0x0141 counterRaise v s)
def execEventFilterSet (v : Srv) (s : State) : Out := .next (serve 0x0150 eventFilterSet v s)
def execEventFilterGet (v : Srv) (s : State) : Out := .next (serve 0x0151 eventFilterGet v s)

end Sys2Proof.Machine
end

