-- ==== Sys2Proof/Machine/Shots.lean ====
section
/-! DEFINITION. Shots (chapter 03): entries, validation, triggers, quiesce and swap. -/

namespace Sys2Proof.Machine

/-! ### Entries (R87, R88) -/

/-- R88: the shot-capable commands, as the tables of the chapters mark them. -/
def shotCore : Nat → Option CoreFn
  | 0x0201 => some radioTuneSet
  | 0x0203 => some radioPaSet
  | 0x0205 => some radioCompSet
  | 0x0207 => some radioDivSet
  | 0x0209 => some radioExtSet
  | 0x0301 => some laneSet
  | 0x0320 => some phyProfileSet
  | 0x0401 => some canarySet
  | 0x0501 => some linkCfgSet
  | 0x0510 => some nbrSet
  | 0x0520 => some routeSet
  | 0x0601 => some timingCfgSet
  | 0x0603 => some timingChseqSet
  | 0x0700 => some tallyCfgSet
  | 0x0702 => some tallyBandSet
  | 0x0801 => some queueSet
  | 0x0804 => some qmCfgSet
  | 0x0901 => some flowSet
  | 0x0904 => some shaperSet
  | 0x0A02 => some keyUsageSet
  | _ => none

/-- R87: the address of a register in PADS, SE0, SE1, ADC or TMR. -/
def shotAddr (a : Nat) : Bool := decide (0x40004000 ≤ a ∧ a < 0x40009000) && a % 4 == 0

/-- R87: the size of an entry in a request or a buffer. -/
def pad4 (n : Nat) : Nat := (n + 3) / 4 * 4

/-- R88: the LENGTH of a mailbox entry lies where its opcode allows. -/
def entrySizeOk (op n : Nat) : Bool :=
  match cmdOf op with
  | some i => decide (i.len.lo ≤ n ∧ n ≤ i.len.hi)
  | none => false

/-- What parsing one entry gives: the entry and its size, the first offending offset, or a request that ends too early. -/
inductive EntryRes where
  | ok (e : Entry) (size : Nat)
  | bad (off : Nat)
  | short
  deriving DecidableEq, Repr

/-- R87, R88: the entry at offset `o` of a request. -/
def parseEntry (p : List Byte) (o : Nat) : EntryRes :=
  let left := p.length - o
  if left = 0 then .short
  else match u8 p o with
    | 0 =>
      if left < 8 then .short
      else
        let n := u16 p (o + 2)
        let op := u16 p (o + 4)
        let size := 8 + pad4 n
        let capable : Bool := (shotCore op).isSome
        match firstBad [rsv p (o + 1) 1, (decide (n ≤ 224) && (!capable || entrySizeOk op n), o + 2), (capable, o + 4), rsv p (o + 6) 2] with
        | some x => .bad x
        | none =>
          if left < size then .short
          else match firstBad [rsv p (o + 8 + n) (pad4 n - n)] with
            | some x => .bad x
            | none => .ok (.mbx op (slice p (o + 8) n)) size
    | 1 =>
      if left < 16 then .short
      else match firstBad [rsv p (o + 1) 3, (shotAddr (u32 p (o + 4)), o + 4)] with
        | some x => .bad x
        | none => .ok (.reg (u32 p (o + 4)) (u32 p (o + 8)) (u32 p (o + 12))) 16
    | _ => .bad o

/-- R106: the entries of a request, all or nothing: the new entries and their bytes, or the answer of a request that fails. -/
def parseEntries (p : List Byte) : Nat → Nat → List Entry → Nat → EntryRes ⊕ (List Entry × Nat)
  | 0, o, es, n => if o = p.length then .inr (es, n) else .inl .short
  | k + 1, o, es, n =>
    match parseEntry p o with
    | .ok e size => if 256 ≤ es.length ∨ 16384 < n + size then .inl (.bad o) else parseEntries p k (o + size) (es ++ [e]) (n + size)
    | .bad x => if 256 ≤ es.length then .inl (.bad o) else .inl (.bad x)
    | .short => .inl .short

/-! ### Validation (R90, R91, R100) -/

/-- What an entry touches of the copy-on-write shadows: a neighbour entry, or a range. -/
def Entry.nbr : Entry → Option Nat
  | .mbx 0x0510 p => some (u16 p 0)
  | _ => none
def Entry.range : Entry → Option Nat
  | .mbx 0x0520 p => some (u16 p 0)
  | _ => none

/-- R100: at most 64 shadows of either kind. -/
def shadowsOk (es : List Entry) : Bool := decide ((es.filterMap Entry.nbr).eraseDups.length ≤ 64) && decide ((es.filterMap Entry.range).eraseDups.length ≤ 64)

/-- A mailbox entry executes as its command would. -/
def entryRun (op : Nat) (p : List Byte) (req : Requester) (s : State) : Res :=
  match cmdOf op, shotCore op with
  | some i, some core =>
    if !i.len.ok p.length p then errR s stLENGTH i.len.expect
    else core { op := op, req := req, chan := 0xFF, seq := 0, auth := none, wFail := none, shot := true } p s
  | _, _ => errR s stUNKNOWN 0

/-- R90: the walk over the entries from index `i`, each against what those before it made of the configuration; the first that fails, and the
status and DETAIL it would have returned (none for a 65th shadow, whose status the spec does not state). -/
def shotWalk (req : Requester) : List Entry → List Entry → Nat → State → Option (Nat × Option (Nat × Nat))
  | _, [], _, _ => none
  | before, e :: r, i, s =>
    if !shadowsOk (before ++ [e]) then some (i, none)
    else match e with
      | .reg _ _ _ => shotWalk req (before ++ [e]) r (i + 1) s
      | .mbx op p =>
        let x := entryRun op p req s
        if x.st ≠ 0 then some (i, some (x.st, x.det)) else shotWalk req (before ++ [e]) r (i + 1) x.s

/-- The entry's status as reported: free where the spec states none. -/
def entryStatus (x : Option (Nat × Nat)) (s : State) : State × Nat × Nat :=
  match x with
  | some y => (s, y)
  | none => let f := fresh s; (f.2, f.1 % 65536, f.1 / 65536 % 65536)

def Shot.req (b : Shot) : Requester := b.owner.getD .app

/-! ### Commands (R86, R105 to R110) -/

def shotOpen : CoreFn := fun c _ s =>
  match (List.range 4).find? (fun n => (shotOf s n).state == .free) with
  | none => busyR s 1
  | some n => okR (updShot n (fun _ => { Shot.reset with state := .opened, owner := some c.req }) s) (le 1 n ++ le 1 0 ++ le 2 256 ++ le 2 16384 ++ le 2 0)

/-- R86: the shot a command names; a state that the command does not accept gives BUSY. -/
def namedShot (c : Ctx) (p : List Byte) (s : State) (accepts : ShotState → Bool) (go : Nat → Shot → Res) : Res :=
  let n := u8 p 0
  let b := shotOf s n
  if 3 < n ∨ b.state = .free ∨ b.owner ≠ some c.req then badR s 0
  else if !accepts b.state then busyR s 1
  else go n b

def shotAdd : CoreFn := fun c p s =>
  namedShot c p s (· == .opened) fun n b =>
    guardR s [(decide (1 ≤ u8 p 1 ∧ u8 p 1 ≤ 14), 1), rsv p 2 2] fun _ =>
      match parseEntries p (u8 p 1) 4 b.entries b.bytes with
      | .inl (.bad o) => badR s o
      | .inl _ => errR s stLENGTH 0xFFFF
      | .inr (es, k) =>
        okR (updShot n (fun x => { x with entries := es, bytes := k }) s) (le 1 n ++ le 1 0 ++ le 2 es.length ++ le 2 k ++ le 2 0)

/-- R92: WHEN as the trigger asks. -/
def shotWhenOk (s : State) (trigger : Nat) (p : List Byte) : Bool :=
  let w := u64 p 8
  match trigger with
  | 3 => decide (w < mtMod) && mtLater w s.clk.mtime && decide ((w + mtMod - s.clk.mtime) % mtMod < 2 ^ 40)
  | 4 => dateOk (dateOf p 8) && u8 p 15 == 0 && decide (dateSeconds s.rtc.now.date < dateSeconds (dateOf p 8))
  | _ => w == 0

def shotFire : CoreFn := fun c p s =>
  namedShot c p s (· == .opened) fun n b =>
    let t := u8 p 1
    guardR s [(!b.entries.isEmpty, 0), (decide (t ≤ 4), 1), (decide (u16 p 2 ≤ 3), 2), (decide (u16 p 4 ≤ 5000), 4), rsv p 6 2, (shotWhenOk s t p, 8)] fun _ =>
      if t = 4 && s.rtc.osf then errR s stTIME 0
      else match shotWalk b.req [] b.entries 0 s with
        | some (i, x) =>
          let y := entryStatus x s
          ⟨y.1, stMISFIRE, i, le 2 i ++ le 2 y.2.1 ++ le 2 y.2.2 ++ le 2 0⟩
        | none =>
          let r := pendR c s fun slot =>
            let armed := updShot n (fun x =>
              { x with state := .armed, trigger := t, rxCut := (u16 p 2).testBit 0, persist := (u16 p 2).testBit 1, bound := u16 p 4, whenAt := u64 p 8,
                       slot := slot, trigAt := s.clk.mtime }) s
            if t = 0 then shotFalls n armed else armed
          if r.st = stPENDING then { r with body := le 1 n ++ le 1 0 ++ le 2 b.entries.length ++ le 2 (unitMask b.entries) ++ le 2 0 } else r

def shotAbort : CoreFn := fun c p s =>
  namedShot c p s (· != .quiescing) fun n b =>
    guardR s [rsv p 1 3] fun _ => okR (if b.state = .opened then updShot n (fun _ => .reset) s else shotDropped n s) []

def reqCode : Option Requester → Nat
  | some .app => 0 | some .host => 1 | some .port => 2 | none => 0xFF

def shotRec (s : State) (n : Nat) : List Byte :=
  let b := shotOf s n
  let fired : Bool := b.state == .armed || b.state == .quiescing
  le 1 (shotCode b.state) ++ le 1 (reqCode b.owner) ++ le 2 b.entries.length ++ le 2 b.bytes ++ le 1 (if fired then b.trigger else 0xFF) ++ le 1 0 ++
    le 8 (if fired then b.whenAt else 0)

def shotStatus : CoreFn := fun _ _ s => okR s ((List.range 4).flatMap (shotRec s))

def execShotOpen (v : Srv) (s : State) : Out := .next (serve 0x0180 shotOpen v s)
def execShotAdd (v : Srv) (s : State) : Out := .next (serve 0x0181 shotAdd v s)
def execShotFire (v : Srv) (s : State) : Out := .next (serve 0x0182 shotFire v s)
def execShotAbort (v : Srv) (s : State) : Out := .next (serve 0x0183 shotAbort v s)
def execShotStatus (v : Srv) (s : State) : Out := .next (serve 0x0184 shotStatus v s)

/-! ### Triggers and quiesce (R92 to R98) -/

/-- R92 FRAME: no frame on air, no acknowledgement due and none awaited. -/
def radioIdle (s : State) : Bool := s.radio.onAir.isNone && s.radio.owed.isNone && s.radio.awaiting.isNone

def execShotTrigger (n : Nat) (s : State) : Out :=
  .next <| let b := shotOf s n; if b.state == .armed && shotDue s (radioIdle s) b then shotFalls n s else s

/-- R92: 1 s has passed since acceptance. -/
def execShotFrameTimeout (n : Nat) (s : State) : Out :=
  .next <| let b := shotOf s n; if b.state == .armed && b.trigger == 1 then shotFalls n s else s

/-- R78: a consistent survey is capturing. -/
def surveyCapturing (s : State) : Bool :=
  match s.mbx.survey with
  | some v => v.consistent && !v.captured
  | none => false

/-- R95: shot `n` is the next whose quiesce may begin: by trigger, then by id. -/
def shotNext (s : State) (n : Nat) : Bool :=
  let b := shotOf s n
  b.state == .quiescing && !b.begun && !surveyCapturing s &&
    (List.range 4).all (fun m =>
      let x := shotOf s m
      m == n || x.state != .quiescing || (!x.begun && (mtLater x.trigAt b.trigAt || (x.trigAt == b.trigAt && decide (n < m)))))

/-- What waited goes on when the units resume. -/
def resume (s : State) : State := if netRuns s then linkKick s else s

/-- R91, R95, R96: the quiesce begins with the second walk. -/
def execShotQuiesceStart (n : Nat) (s : State) : Out :=
  .next <|
    if !shotNext s n then s
    else
      let b := shotOf s n
      match shotWalk b.req [] b.entries 0 s with
      | some (i, x) => let y := entryStatus x s; shotEnd n false stMISFIRE i 0 (shotUs s b) y.2.1 y.2.2 y.1
      | none => updShot n (fun z => { z with begun := true }) s

/-- Lanes that a shot changes. -/
def shotLanes (b : Shot) : List Nat :=
  b.entries.filterMap (fun e => match e with | .mbx 0x0301 p => some (u8 p 0) | _ => none)

/-- R96, R97: the unit has quiesced, for a capture (`b` none) or for a shot. -/
def unitQuiesced (s : State) (b : Option Shot) (u : Nat) : Bool :=
  let cut : Bool := match b with | some x => x.rxCut | none => false
  match u with
  | 2 => radioIdle s && s.radio.state != .cal
  | 3 => cut || (match b with
      | some x => (shotLanes x).all (fun n => (laneOf s n).frame.isNone)
      | none => s.lanes.lane.all (fun l => l.frame.isNone))
  | 4 => (cut || s.canary.phase != .sequence) && s.canary.phase != .sending
  | 5 => match s.radio.onAir with | some q => (match q.who with | .ack _ => false | _ => true) | none => true
  | 10 => s.link.rx.all (fun f => f.phase != .micPending)
  | _ => true

def maskUnits (m : Nat) : List Nat := (List.range 16).filter (fun u => m.testBit u)

/-- R102: the first unit that has not quiesced; none has before the quiesce begins. -/
def firstBusyUnit (s : State) (b : Shot) : Nat := ((maskUnits (unitMask b.entries)).find? (fun u => !b.begun || !unitQuiesced s (some b) u)).getD 0

/-! ### The swap (R89, R97, R99, R104) -/

/-- R89: offsets whose bits a write keeps where MASK is 0: the RW registers; the others act on the bits written. -/
def shotKeeps (a : Nat) : Bool :=
  let o := a % 0x1000
  match a / 0x1000 with
  | 0x40004 => [0x04, 0x08, 0x18, 0x1C, 0x20, 0x24, 0x28, 0x2C].contains o
  | 0x40005 => [0x00, 0x04, 0x08, 0x18].contains o
  | 0x40006 => [0x00, 0x04, 0x08, 0x18].contains o
  | 0x40007 => [0x00, 0x04, 0x14].contains o
  | 0x40008 => decide (o < 0x80) && [0x00, 0x04, 0x08, 0x0C, 0x18].contains (o % 0x20)
  | _ => false

/-- R89: a register entry: the bits of MASK take VALUE, through the path of a write by the core. -/
def regEntry (a mask value : Nat) (s : State) : State :=
  let m := BitVec.ofNat 32 mask
  let r := if shotKeeps a then regRead a none s else (s, some 0)
  regWrite a ((BitVec.ofNat 32 (r.2.getD 0) &&& ~~~m) ||| (BitVec.ofNat 32 value &&& m)) r.1

def applyEntry (req : Requester) (s : State) (e : Entry) : State :=
  match e with
  | .reg a m v => regEntry a m v s
  | .mbx op p => (entryRun op p req s).s

/-- R97: receptions on changed lanes, and the canary's, are abandoned and counted in CUT. -/
def cutReceptions (b : Shot) (s : State) : State :=
  let s1 := (shotLanes b).eraseDups.foldl (fun a n =>
    updLane n (fun l => if l.frame.isSome then { l with frame := none, stats := { l.stats with cut := inc32 l.stats.cut } } else l) a) s
  if (unitMask b.entries).testBit 4 && s.canary.phase == .sequence then
    updCanary (fun c => { c with phase := .listen, stats := { c.stats with cut := inc32 c.stats.cut } }) s1
  else s1

/-- R99: every unit has quiesced and the staged build has ended: the swap edge. -/
def execShotSwap (n : Nat) (s : State) : Out :=
  .next <|
    let b := shotOf s n
    if b.state ≠ .quiescing ∨ !b.begun ∨ b.saving ∨ !(maskUnits (unitMask b.entries)).all (unitQuiesced s (some b)) then s
    else
      let s1 := b.entries.foldl (applyEntry b.req) (if b.rxCut then cutReceptions b s else s)
      let us := shotUs s b
      resume <|
        if b.persist then updShot n (fun x => { x with saving := true, swapAt := s.clk.mtime, quiesceUs := us }) s1
        else shotEnd n true 0 0 s.clk.mtime us 0 0 s1

/-- R102: the bound expires before the swap. -/
def execShotBoundExpiry (n : Nat) (s : State) : Out :=
  .next <|
    let b := shotOf s n
    if b.state ≠ .quiescing ∨ b.saving then s
    else resume (shotEnd n false stQUIESCE (firstBusyUnit s b) 0 (shotUs s b) 0 0 s)

/-- R104: the settings write of a PERSIST shot ends; `fail` is the block that failed. -/
def execShotPersistDone (n : Nat) (fail : Option Nat) (s : State) : Out :=
  .next <|
    let b := shotOf s n
    if b.state ≠ .quiescing ∨ !b.saving then s
    else match fail with
      | none => shotEnd n true 0 0 b.swapAt b.quiesceUs 0 0 (writeSettings s)
      | some k => shotEnd n true stFLASH (k % 65536) b.swapAt b.quiesceUs 0 0 s

/-! ### Survey (R76 to R78) -/

/-- The body of a unit's record. The spec gives the system group's record no layout: its body is free (log 42). -/
def unitBody (u : Nat) (s : State) : State × List Byte :=
  match u with
  | 0x02 => (s, radioSurvey s)
  | 0x03 => (s, lanesSurvey s)
  | 0x04 => (s, canarySurvey s)
  | 0x05 => (s, linkSurvey s)
  | 0x06 => (s, timingSurvey s)
  | 0x07 => (s, tallySurvey s)
  | 0x08 => (s, qmSurvey s)
  | 0x09 => (s, schedSurvey s)
  | 0x0A => (s, cipherSurvey s)
  | 0x0B => (s, flashSurvey s)
  | 0x0C => (s, updateRec s)
  | 0x0D => (s, rtcSurvey s)
  | 0x0E => (s, portSurvey s)
  | 0x0F => (s, pwrSurvey s)
  | _ => let f := fresh s; let b := freshBytes (f.1 % 217) f.2; (b.2, b.1)

/-- R76, R95: a shot is quiescing, or a survey streams. -/
def survey : CoreFn := fun c p s =>
  let us := if u32 p 4 = 0 then List.range' 1 15 else maskUnits (u32 p 4)
  guardR s [(decide (u16 p 0 ≤ 1), 0), (decide (u16 p 2 ≤ 5000), 2), (decide (u32 p 4 < 65536) && u32 p 4 % 2 == 0, 4)] fun _ =>
    if s.mbx.survey.isSome || s.shots.buf.any (fun b => b.state == .quiescing) then busyR s 1
    else
      let all : Bool := u16 p 0 == 1
      let v : SurveyRun :=
        { id := s.mbx.surveyId, units := us, records := us.length, index := 0, part := 0, consistent := all, bound := u16 p 2, captured := !all,
          mtime := s.clk.mtime, rest := [], bodies := [], status := 0, detail := 0, req := c.req }
      okR (updMbx (fun m => { m with survey := some v, surveyId := (m.surveyId + 1) % 256 }) s) (le 1 v.id ++ le 1 0 ++ le 2 v.records ++ le 8 s.clk.mtime)

def execSurvey (v : Srv) (s : State) : Out := .next (serve 0x0102 survey v s)

/-- R78: every selected unit has quiesced: all records are captured on one edge. -/
def execSurveyCapture (s : State) : Out :=
  .next <| match s.mbx.survey with
  | none => s
  | some v =>
    if !v.consistent || v.captured || !v.units.all (unitQuiesced s none) then s
    else
      let r := v.units.foldl (fun a u => let x := unitBody u a.1; (x.1, a.2 ++ [(u, x.2)])) (s, ([] : List (Nat × List Byte)))
      resume (updMbx (fun m => { m with survey := some { v with captured := true, mtime := s.clk.mtime, bodies := r.2 } }) r.1)

/-- R78: the bound expires first: only the end record follows. -/
def execSurveyQuiesceTimeout (s : State) : Out :=
  .next <| match s.mbx.survey with
  | none => s
  | some v =>
    if !v.consistent || v.captured then s
    else
      let first := (v.units.find? (fun u => !unitQuiesced s none u)).getD 0
      resume (updMbx (fun m => { m with survey := some { v with captured := true, units := [], status := stQUIESCE, detail := first } }) s)

/-- R77: the payload of one record. -/
def surveyPayload (v : SurveyRun) (mtime unit index part format : Nat) (body : List Byte) : List Byte :=
  le 8 mtime ++ le 1 v.id ++ le 1 unit ++ le 2 index ++ le 2 v.records ++ le 1 part ++ le 1 0 ++ le 2 format ++ le 2 body.length ++ le 4 0 ++ body

def surveyEvent (v : SurveyRun) (more : Bool) (payload : List Byte) (s : State) : State :=
  enqueue (evChan7 s v.req) { op := 0x8102, kind := .survey more, payload := payload, auth := none } s

/-- R77, R78: the record of the first unit left, or its next part; a body longer than 216 bytes goes out in parts. -/
def surveyPart (v : SurveyRun) (u : Nat) (us : List Nat) (s : State) : State :=
  let got : State × Nat × List Byte :=
    if 0 < v.part then (s, v.mtime, v.rest)
    else if v.consistent then (s, v.mtime, ((v.bodies.find? (fun x => x.1 == u)).map (fun x => x.2)).getD [])
    else let x := unitBody u s; (x.1, s.clk.mtime, x.2)
  let f : State × Nat := if u = 1 then (let y := fresh got.1; (y.2, y.1 % 65536)) else (got.1, 1)
  let body := got.2.2
  let more : Bool := decide (216 < body.length)
  let next : SurveyRun :=
    if more then { v with mtime := got.2.1, rest := body.drop 216, part := v.part + 1 }
    else { v with units := us, rest := [], part := 0, index := v.index + 1 }
  updMbx (fun m => { m with survey := some next }) (surveyEvent v more (surveyPayload v got.2.1 u v.index v.part f.2 (body.take 216)) f.1)

/-- R77: the end record; its INDEX and FORMAT are not stated. -/
def surveyEnds (v : SurveyRun) (s : State) : State :=
  let f := fresh s
  updMbx (fun m => { m with survey := none })
    (surveyEvent v false (surveyPayload v s.clk.mtime 0 (f.1 % 65536) 0 (f.1 / 65536 % 65536) (le 2 v.status ++ le 2 v.detail)) f.2)

/-- R62, R77: a record enters its queue once that holds fewer than 32 events. -/
def execSurveyRecord (s : State) : Out :=
  .next <| match s.mbx.survey with
  | none => s
  | some v =>
    if !v.captured || !firmwareServes s || decide (32 ≤ (evq s (evChan7 s v.req)).events.length) then s
    else match v.units with
      | [] => surveyEnds v s
      | u :: us => surveyPart v u us s

end Sys2Proof.Machine
end

