-- ==== Sys2Proof/Machine/Field.lean ====
section
/-! DEFINITION. Every opcode's meaning in one place (R50), and what the commissioning port needs of it: MAILBOX and the waiting-time extensions
(R575, R585, R590). -/

namespace Sys2Proof.Machine

/-- R50: the meaning of an opcode. -/
def coreOf (op : Nat) : CoreFn :=
  match op with
  | 0x0100 => sysInfo
  | 0x0101 => sysCaps
  | 0x0102 => survey
  | 0x0103 => sysReset
  | 0x0110 => modeSet
  | 0x0111 => modeGet
  | 0x0112 => modeLock
  | 0x0120 => debugUnlock
  | 0x0130 => optionRead
  | 0x0131 => optionWrite
  | 0x0140 => cmdCounterGet
  | 0x0141 => counterRaise
  | 0x0150 => eventFilterSet
  | 0x0151 => eventFilterGet
  | 0x0180 => shotOpen
  | 0x0181 => shotAdd
  | 0x0182 => shotFire
  | 0x0183 => shotAbort
  | 0x0184 => shotStatus
  | 0x0200 => radioStateGet
  | 0x0201 => radioTuneSet
  | 0x0202 => radioTuneGet
  | 0x0203 => radioPaSet
  | 0x0204 => radioPaGet
  | 0x0205 => radioCompSet
  | 0x0206 => radioCompGet
  | 0x0207 => radioDivSet
  | 0x0208 => radioDivGet
  | 0x0209 => radioExtSet
  | 0x020A => radioExtGet
  | 0x0210 => radioCal
  | 0x0211 => radioRssi
  | 0x0212 => radioCca
  | 0x0218 => radioStatsGet
  | 0x0220 => radioTestTx
  | 0x0221 => radioTestStop
  | 0x0300 => laneStateGet
  | 0x0301 => laneSet
  | 0x0302 => laneGet
  | 0x0310 => laneStatsGet
  | 0x0320 => phyProfileSet
  | 0x0321 => phyProfileGet
  | 0x0322 => phyQualityGet
  | 0x0323 => phyStatsGet
  | 0x0400 => canaryStateGet
  | 0x0401 => canarySet
  | 0x0402 => canaryGet
  | 0x0410 => canarySend
  | 0x0418 => canaryStatsGet
  | 0x0500 => linkStateGet
  | 0x0501 => linkCfgSet
  | 0x0502 => linkCfgGet
  | 0x0510 => nbrSet
  | 0x0511 => nbrGet
  | 0x0512 => nbrFind
  | 0x0520 => routeSet
  | 0x0521 => routeGet
  | 0x0522 => routeLookup
  | 0x0530 => linkJoin
  | 0x0531 => linkJoinReply
  | 0x0540 => linkStatsGet
  | 0x0600 => timingStateGet
  | 0x0601 => timingCfgSet
  | 0x0602 => timingCfgGet
  | 0x0603 => timingChseqSet
  | 0x0604 => timingChseqGet
  | 0x0608 => timingNbrGet
  | 0x0610 => timingMtimeSet
  | 0x0611 => timingBeacon
  | 0x0612 => timingResync
  | 0x0620 => timeSync
  | 0x0630 => timingStatsGet
  | 0x0700 => tallyCfgSet
  | 0x0701 => tallyCfgGet
  | 0x0702 => tallyBandSet
  | 0x0703 => tallyBandGet
  | 0x0710 => tallyUsageGet
  | 0x0711 => tallyCheck
  | 0x0718 => tallyStatsGet
  | 0x0720 => tallyClear
  | 0x0800 => qmStateGet
  | 0x0801 => queueSet
  | 0x0802 => queueGet
  | 0x0803 => queueStatusGet
  | 0x0804 => qmCfgSet
  | 0x0805 => qmCfgGet
  | 0x0810 => queueFlush
  | 0x0818 => qmStatsGet
  | 0x0900 => schedStateGet
  | 0x0901 => flowSet
  | 0x0902 => flowGet
  | 0x0903 => flowStateGet
  | 0x0904 => shaperSet
  | 0x0905 => shaperGet
  | 0x0910 => schedStatsGet
  | 0x0A00 => cipherStateGet
  | 0x0A01 => keyInfoGet
  | 0x0A02 => keyUsageSet
  | 0x0A10 => keyImport
  | 0x0A11 => keyRetire
  | 0x0A12 => keyGenerate
  | 0x0A20 => cipherRun
  | 0x0A21 => rngGet
  | 0x0A22 => hashRun
  | 0x0A23 => sigVerify
  | 0x0A30 => cipherStatsGet
  | 0x0B00 => flashStateGet
  | 0x0B10 => flashReadCmd
  | 0x0B11 => flashProgram
  | 0x0B12 => flashErase
  | 0x0B13 => flashBlockGet
  | 0x0B18 => flashStatsGet
  | 0x0C00 => updateStateGet
  | 0x0C10 => updateStageBegin
  | 0x0C11 => updateStageWrite
  | 0x0C12 => updateStageCheck
  | 0x0C20 => updateCommit
  | 0x0C21 => updateSchedule
  | 0x0C22 => updateCancel
  | 0x0D00 => rtcStateGet
  | 0x0D01 => rtcTimeGet
  | 0x0D02 => rtcTimeSet
  | 0x0D03 => rtcAlarmSet
  | 0x0D04 => rtcAlarmGet
  | 0x0D05 => rtcFlagsClear
  | 0x0E00 => portStateGet
  | 0x0E01 => portCfgSet
  | 0x0E02 => portCfgGet
  | 0x0E10 => portMemRead
  | 0x0E11 => portMemWrite
  | 0x0E20 => portPwSet
  | 0x0E21 => portPwUnlock
  | 0x0E22 => portPwGet
  | 0x0E30 => portCredGet
  | 0x0E31 => portCredClear
  | 0x0F00 => pwrStateGet
  | 0x0F01 => pwrCfgSet
  | 0x0F02 => pwrCfgGet
  | 0x0F10 => pwrSleep
  | _ => fun _ _ s => errR s stUNKNOWN 0

/-- R590: the meaning of an opcode for the commissioning port. -/
def portCore : CoreFn := fun c p s => if c.op = 0x0E10 ∨ c.op = 0x0E11 then badR s 0 else coreOf c.op c p s

/-- R590: the firmware takes the message, unless channel 0 stands before it, and its response goes to the field. -/
def mailboxServe (ctrFail : Option Nat) (wFail : Option (Nat × Nat)) (s : State) : State :=
  match s.port.wait, s.port.mbxReq with
  | some _, some m =>
    if !firmwareServes s || chanBusy s 0 then s
    else
      let r := handle portCore .port 0xFF ctrFail wFail m (updPort (fun p => { p with mbxReq := none }) s)
      if r.2.isEmpty then r.1 else fieldAnswer (r.2 ++ sw 0x9000) r.1
  | _, _ => s

/-- R575: a block that waits sends its first S(WTX). -/
def firstWtx (s : State) : State :=
  match s.port.wait, s.port.mbxReq with
  | some (cmd, n), some _ => sendWtx cmd n s
  | _, _ => s

def execMailbox (apdu : List Byte) (ctrFail : Option Nat) (wFail : Option (Nat × Nat)) (s : State) : Out :=
  .next (if s.port.wait.isSome then s else firstWtx (mailboxServe ctrFail wFail (apduArrives 0x40 apdu none s)))

/-- R575, R585: an extension runs out: the response is ready, or a further S(WTX) follows, or after the third the wait ends with 0x6400. -/
def execWtxExpiry (ctrFail : Option Nat) (wFail : Option (Nat × Nat)) (s : State) : Out :=
  .next <|
    let t := mailboxServe ctrFail wFail (fieldProceeds s)
    match t.port.wait with
    | none => t
    | some (cmd, n) =>
      if n < 3 then sendWtx cmd (n + 1) t
      else updPort (fun p => { p with wtxGiveup := inc32 p.wtxGiveup }) (fieldAnswer (sw 0x6400) t)

/-- R575: the reader answers an S(WTX) with its WTXM. -/
def execSWtxAnswer (wtxm : Nat) (s : State) : Out :=
  .next (if s.port.wait.isSome && decide (1 ≤ wtxm ∧ wtxm ≤ 59) then updPort (fun p => { p with wtxm := wtxm }) s else s)

end Sys2Proof.Machine
end

