-- ==== Sys2Proof/Machine/Flags.lean ====
section
/-! DEFINITION. What Talxa has in place of flags (R601, R631): comparisons that yield 1 or 0, and the carry and borrow of an addition and a
subtraction as values. -/

namespace Sys2Proof.Machine

/-- R631: a comparison yields 1 when it holds and 0 when it does not. -/
def truth (b : Bool) : Word := if b then 1#32 else 0#32

/-- R631 `<s`. -/
def ltS (x y : Word) : Bool := x.slt y
/-- R631 `<u`. -/
def ltU (x y : Word) : Bool := x.ult y

/-- R632 cy: 1 when the 33-bit sum exceeds 0xFFFFFFFF. -/
def carry (x y : Word) : Word := truth (decide (2 ^ 32 ≤ x.toNat + y.toNat))

/-- R632 bw: the borrow as a mask. -/
def borrow (x y : Word) : Word := if ltU x y then 0xFFFFFFFF#32 else 0#32

end Sys2Proof.Machine
end

