-- ==== Sys2Proof/Machine/Operands.lean ====
section
/-! DEFINITION. Talxa's operand forms and the values its operations compute (R628, R631 to R637, R639). -/

namespace Sys2Proof.Machine

/-! ### Immediates -/

/-- R631: sext of a field. -/
def sext {w : Nat} (v : BitVec w) : Word := v.signExtend 32
/-- R631: zext of a field. -/
def zext {w : Nat} (v : BitVec w) : Word := v.setWidth 32

/-- R609, R639, R640: a signed word offset in bytes. -/
def wordOff {w : Nat} (v : BitVec w) : Word := sext v * 4#32

/-! ### Operations on values (R632 to R635) -/

/-- R631: a register shift amount is bits [4:0]. -/
def shAmt (y : Word) : Nat := y.toNat % 32

def opShl (x y : Word) : Word := x <<< shAmt y
def opShr (x y : Word) : Word := x >>> shAmt y
def opSar (x y : Word) : Word := x.sshiftRight (shAmt y)
def opMulhs (x y : Word) : Word := BitVec.ofInt 32 (x.toInt * y.toInt / 2 ^ 32)
def opMulhu (x y : Word) : Word := BitVec.ofNat 32 (x.toNat * y.toNat / 2 ^ 32)

/-- R633: division by zero gives all ones; the most negative number by −1 gives itself. -/
def opDivS (x y : Word) : Word := if y = 0#32 then 0xFFFFFFFF#32 else x.sdiv y
def opDivU (x y : Word) : Word := if y = 0#32 then 0xFFFFFFFF#32 else x.udiv y
/-- R633: the remainder by zero is the dividend. -/
def opModS (x y : Word) : Word := if y = 0#32 then x else x.srem y
def opModU (x y : Word) : Word := if y = 0#32 then x else x.umod y

/-! ### Short operations (R630, R635, R637) -/

/-- {rs, MOD}: the 6-bit immediate. -/
def slotImm6 (x : Short) : BitVec 6 := x.rs ++ x.md

/-- The op is a short load. -/
def slotLoads (x : Short) : Bool := decide (19 ≤ x.op.toNat ∧ x.op.toNat ≤ 23)
/-- The op is a short store. -/
def slotStores (x : Short) : Bool := decide (24 ≤ x.op.toNat ∧ x.op.toNat ≤ 26)
def slotMem (x : Short) : Bool := (slotLoads x) || (slotStores x)

/-- The width a short or long load or store moves, by the short op. -/
def opSize (op : Nat) : Size :=
  match op with
  | 19 => .w | 20 => .h | 21 => .h | 22 => .b | 23 => .b | 24 => .w | 25 => .h | _ => .b

/-- R636: how a loaded value fills the register, by the short op. -/
def extend (op v : Nat) : Word :=
  match op with
  | 20 => sext (BitVec.ofNat 16 v)
  | 22 => sext (BitVec.ofNat 8 v)
  | _ => BitVec.ofNat 32 v

/-- R635: the value of a short register operation on u[rd] and u[rs]. -/
def slotValue (x : Short) (d v : Word) : Word :=
  match x.op.toNat with
  | 1 => v
  | 2 => d + v
  | 3 => d - v
  | 4 => d &&& v
  | 5 => d ||| v
  | 6 => d ^^^ v
  | 7 => opShl d v
  | 8 => opShr d v
  | 9 => opSar d v
  | 10 => truth (ltS d v)
  | 11 => truth (ltU d v)
  | 12 => d * v
  | 13 => d + sext (slotImm6 x)
  | 14 => sext (slotImm6 x)
  | 15 =>
    match x.md.toNat with
    | 0 => 0#32 - v
    | 1 => ~~~v
    | 2 => sext (v.extractLsb' 0 8)
    | _ => sext (v.extractLsb' 0 16)
  | 16 => d <<< ((slotImm6 x).toNat % 32)
  | 17 => d >>> ((slotImm6 x).toNat % 32)
  | 18 => d.sshiftRight ((slotImm6 x).toNat % 32)
  | 27 => opMulhs d v
  | _ => opMulhu d v

/-- R630, R635, R637, R638: the slot is not an operation that the reference defines. -/
def slotUndefined (x : Short) : Bool :=
  let op := x.op.toNat
  if op = 0 then x.rd != 0 || x.rs != 0 || x.md != 0
  else if 29 ≤ op then true
  else if op ≤ 12 ∨ 27 ≤ op then x.md != 0
  else if op ≤ 15 then false
  else if op ≤ 18 then bit x.rs 3
  else x.md == 3 || ((slotLoads x) && x.md != 0 && x.rd == x.rs)

/-- R608: the registers a slot writes, counting an address register that it updates. -/
def slotWrites (x : Short) : List Reg :=
  if x.op = 0 then []
  else if slotLoads x then x.rd :: (if x.md = 0 then [] else [x.rs])
  else if slotStores x then (if x.md = 0 then [] else [x.rd])
  else [x.rd]

/-- R608: the two slots write the same register, or both access memory. -/
def pairClash (a b : Short) : Bool := (slotWrites a).any (fun r => (slotWrites b).contains r) || ((slotMem a) && (slotMem b))

/-- R637: the address a memory slot accesses and the value its address register takes. -/
def slotAddress (x : Short) (p : Word) : Word × Word :=
  let z := BitVec.ofNat 32 (match opSize x.op.toNat with | .w => 4 | .h => 2 | .b => 1)
  match x.md.toNat with
  | 0 => (p, p)
  | 1 => (p, p + z)
  | _ => (p - z, p - z)

/-! ### Words as numbers (R627 to R630) -/

/-- The fields of a slot from its 15 bits. -/
def shortOf (n : Nat) : Short :=
  { op := BitVec.ofNat 5 (bits n 10 5), rd := BitVec.ofNat 4 (bits n 6 4), rs := BitVec.ofNat 4 (bits n 2 4), md := BitVec.ofNat 2 (bits n 0 2) }

/-- R628, R629, R632, R634, R644: the long word is one that the reference defines. -/
def longDefined (n : Nat) : Bool :=
  let op := bits n 25 6
  if op = 0x01 then bits n 5 8 == 0 && decide (bits n 0 5 ≤ 18)
  else if 0x02 ≤ op ∧ op ≤ 0x07 then true
  else if op = 0x08 then bits n 7 10 == 0 && decide (bits n 5 2 ≤ 2)
  else if 0x09 ≤ op ∧ op ≤ 0x0E then true
  else if 0x10 ≤ op ∧ op ≤ 0x12 then true
  else if op = 0x17 ∨ op = 0x1C ∨ op = 0x1D then bits n 0 25 == 0
  else if op = 0x18 ∨ op = 0x19 then bits n 17 4 == 0 && bits n 8 9 == 0
  else if op = 0x1A then
    bits n 21 2 == 0 && bits n 8 9 == 0 &&
      (if n.testBit 23 then bits n 0 8 == 0 else bits n 17 4 == 0 && (!n.testBit 24 || decide (bits n 0 8 ≤ 63)))
  else if op = 0x1E ∨ op = 0x1F then bits n 17 8 == 0
  else if 0x20 ≤ op ∧ op ≤ 0x25 then true
  else if 0x28 ≤ op ∧ op ≤ 0x33 then true
  else if op = 0x38 ∨ op = 0x39 then true
  else if op = 0x3A ∨ op = 0x3B then bits n 0 21 == 0
  else false

/-- R627: the word is one that executes. -/
def wordDefined (w : Word) : Bool :=
  let n := w.toNat
  if !bit w 31 then longDefined n
  else !bit w 15 && !slotUndefined (shortOf (bits n 16 15)) && !slotUndefined (shortOf (bits n 0 15)) && !pairClash (shortOf (bits n 16 15)) (shortOf (bits n 0 15))

/-- R611, R644: a word that a repeat prefix may not stand before. -/
def notRepeatable (w : Word) : Bool :=
  let op := bits w.toNat 25 6
  !bit w 31 && (decide (0x17 ≤ op ∧ op ≤ 0x1F) || decide (0x20 ≤ op ∧ op ≤ 0x25) || decide (0x28 ≤ op ∧ op ≤ 0x33) || decide (0x38 ≤ op ∧ op ≤ 0x3B))

end Sys2Proof.Machine
end

