-- ==== Sys2Proof/Machine/Talxa.lean ====
section
/-! DEFINITION. The application core (chapter 20): its registers, protection, accesses, the end of a word, exceptions, interrupts and the two stack
disciplines. A row runs one word at the program counter; the word is the row's own (log 127). -/

namespace Sys2Proof.Machine

/-! ### Registers (R601 to R603) -/

/-- R601: a general register; u15 is the stack pointer of the privilege in force. -/
def Core.get (c : Core) (r : Nat) : Word := if r = 15 then (if c.mach then c.spm else c.spt) else at_ 0#32 c.u r
def Core.put (c : Core) (r : Nat) (v : Word) : Core :=
  if r = 15 then (if c.mach then { c with spm := v } else { c with spt := v }) else { c with u := c.u.set r v }

/-- R603: the ST word. -/
def Core.st (c : Core) : Word :=
  BitVec.ofNat 32 (b2n c.ie + 2 * b2n c.mach + 4 * b2n c.split + 8 * b2n c.ract + 16 * b2n c.runi + 256 * c.ilvl.toNat)

/-- ST written but for SPLIT. -/
def Core.setSt (c : Core) (v : Word) : Core :=
  { c with ie := bit v 0, mach := bit v 1, ract := bit v 3, runi := bit v 4, ilvl := v.extractLsb' 8 4 }

/-- R610: the load that waits for the end of this word is written. -/
def Core.land (c : Core) : Core :=
  match c.pendLoad with
  | some (r, v) => { c.put r v with pendLoad := none }
  | none => c

/-- R611: the program counter after a word that changes no flow, by the state of the repeat at the word's start. -/
def Core.advance (old c : Core) : Core :=
  if !old.ract then { c with pc := old.pc + 4#32 }
  else if old.rpc ≤ 1 then { c with ract := false, runi := false, rpc := 0, pc := old.pc + 4#32 }
  else { c with rpc := old.rpc - 1, pc := old.pc }

/-! ### Interrupt sources (R618) -/

/-- The source is asserted. -/
def pends (s : State) (n : Nat) : Bool :=
  if n < 12 then
    match n with
    | 0 => (List.range 8).any (fun k => bit s.mbx.ien k && at_ .idle s.mbx.chan k == .done)
    | 1 => s.shots.done &&& s.shots.ien != 0
    | 2 => s.flash.ien && s.flash.done
    | 3 => (bit s.port.ien 0 && s.port.done) || (bit s.port.ien 1 && s.port.fieldEvt) || (bit s.port.ien 2 && s.port.lockEvt)
    | 4 => s.se0.irq
    | 5 => s.se1.irq
    | 6 => s.adc.irq
    | 11 => s.wdg.warnEn && s.wdg.warn
    | k => (tmrOf s (k - 7)).irq
  else if n < 32 then bit s.pads.wakeFlag (n - 12)
  else if n < 40 then bit s.core.swi (n - 32)
  else false

/-- The source exists in this variant. -/
def sourceHere (s : State) (n : Nat) : Bool := decide (n < 12 + Config.gpio s.dev.variant) || decide (32 ≤ n)

/-- R621: a source with its IEN bit set is pending. -/
def enabledPends (s : State) : Bool := (List.range 64).any (fun n => bit s.core.ien n && pends s n)

/-- R620: the source is taken at this boundary, if no other goes before it. -/
def qualifies (s : State) (n : Nat) : Bool :=
  bit s.core.ien n && pends s n && s.core.ie && decide (s.core.ilvl.toNat < (at_ 0#3 s.core.ipri n).toNat + 1)

/-- R620: the source taken: the highest priority, and the lowest number among those. -/
def nextSource (s : State) : Option Nat :=
  if s.core.ract && s.core.runi then none
  else (List.range 64).foldl (fun b n =>
    if !qualifies s n then b
    else match b with
      | none => some n
      | some m => if (at_ 0#3 s.core.ipri m).toNat < (at_ 0#3 s.core.ipri n).toNat then some n else b) none

/-! ### Protection (R606) -/

/-- The address lies in the region. -/
def MpuRegion.holds (r : MpuRegion) (a : Nat) : Bool := r.en && a / 2 ^ (r.size + 1) == r.base.toNat * 256 / 2 ^ (r.size + 1)

/-- The region of highest number that holds the address. -/
def regionFor (l : List MpuRegion) (a : Nat) : Option MpuRegion := (l.filter (fun r => r.holds a)).getLast?

/-- R606: an access of kind 0 read, 1 write, 2 execute is permitted. -/
def mpuAllows (c : Core) (mach : Bool) (kind a : Nat) : Bool :=
  if !bit c.mpuCtl 0 then true
  else match regionFor c.mpu a with
    | some r => if mach then !bit c.mpuCtl 1 || bit r.perm (3 + kind) else bit r.perm kind
    | none => mach

/-! ### Exceptions as values -/

/-- What an exception records: its number, its KIND and SLOTB (none where the spec states no value), and FADDR. -/
structure Fail where
  exc : Nat
  kind : Option Nat
  slotb : Option Bool
  addr : Word
  deriving DecidableEq, Repr

/-- What an access of the core comes to: a value, an exception, or no end yet (it stalls, it waits for the flash, or the core has been reset). -/
inductive Acc where
  | ok (v : Nat) (s : State)
  | fail (exc : Nat) (s : State)
  | stop (s : State)
  deriving DecidableEq, Repr

/-- R604: a read by the core at a privilege. A POP that stalls stops the core in `stalledPop`. -/
def coreRead (mach : Bool) (a : Word) (z : Size) (rd : Option Nat) (s : State) : Acc :=
  if misaligned a.toNat z then .fail 3 s
  else if !mpuAllows s.core mach 0 a.toNat then .fail 6 s
  else match busRead a.toNat z rd s with
    | (t, .val v) => .ok v t
    | (t, .align) => .fail 3 t
    | (t, .fault) => .fail 2 t
    | (t, .stall) => .stop t
    | (_, .wait) => .stop s

/-- R604: a write by the core at a privilege; a write that resets the core stops it. -/
def coreWrite (mach : Bool) (a : Word) (z : Size) (v : Word) (s : State) : Acc :=
  if misaligned a.toNat z then .fail 3 s
  else if !mpuAllows s.core mach 1 a.toNat then .fail 6 s
  else match busWrite a.toNat z v s with
    | none => .fail 2 s
    | some t => if t.core.run == .held then .stop t else .ok 0 t

/-! ### Entries (R613, R614, R619, R620, R622) -/

/-- How an entry comes out. -/
inductive CoreEntry where
  | done (s : State)
  /-- R622: the address at which it failed -/
  | failed (a : Word) (s : State)
  | overflow (s : State)
  | stop (s : State)

/-- R613, R614: the return address and ST are pushed; a failed push leaves the stack pointer and the hardware stack as they were. -/
def entryPush (ret : Word) (s : State) : CoreEntry :=
  let c := s.core
  if c.split then
    if 64 ≤ c.hw.length then .overflow s else .done (updCore (fun x => { x with hw := { ret := ret, st := some c.st } :: x.hw }) s)
  else if c.spm.toNat % 4 ≠ 0 then .failed c.spm s
  else match coreWrite true (c.spm - 4#32) .w c.st s with
    | .fail _ t => .failed (c.spm - 4#32) t
    | .stop t => .stop t
    | .ok _ t =>
      match coreWrite true (c.spm - 8#32) .w ret t with
      | .fail _ t2 => .failed (c.spm - 8#32) t2
      | .stop t2 => .stop t2
      | .ok _ t2 => .done (updCore (fun x => { x with spm := c.spm - 8#32 }) t2)

/-- R617: the address of a vector word. -/
def vectorAddr (s : State) (n : Nat) : Word := s.core.vbase ++ 0#8 + BitVec.ofNat 32 (4 * n)

/-- R613, R617, R620: an entry through vector `n`; `level` is the ILVL of an interrupt, none for an exception. -/
def enter (n : Nat) (level : Option (BitVec 4)) (ret : Word) (s : State) : CoreEntry :=
  match entryPush ret s with
  | .done t =>
    let back (x : State) : State := updCore (fun c => { c with spm := s.core.spm, hw := s.core.hw }) x
    match coreRead true (vectorAddr s n) .w none t with
    | .fail _ t2 => .failed (vectorAddr s n) (back t2)
    | .stop t2 => .stop (back t2)
    | .ok v t2 =>
      if v = 0 ∨ v % 4 ≠ 0 then .failed (vectorAddr s n) (back t2)
      else .done (updCore (fun c =>
        { c with mach := true, ract := false, runi := false, pc := BitVec.ofNat 32 v, run := .running,
                 ie := if level.isSome then c.ie else false, ilvl := level.getD c.ilvl }) t2)
  | e => e

/-- R603: FCAUSE and FADDR. KIND and SLOTB are free where the spec states none (log 129). -/
def record (f : Fail) (under : Bool) (s : State) : State :=
  let k := match f.kind with | some k => (k, s) | none => let x := fresh s; (x.1 % 4, x.2)
  let b := match f.slotb with | some b => (b2n b, k.2) | none => let x := fresh k.2; (x.1 % 2, x.2)
  updCore (fun c => { c with faddr := f.addr, fcause := BitVec.ofNat 8 (f.exc + 16 * k.1 + 64 * b.1 + 128 * b2n under) }) b.2

/-- R614: a stack fault of the word at the program counter: the ROM routine continues at word 10 of the vector table, or performs a CORE reset
(log 131). -/
def stackFault (under : Bool) (s : State) : State :=
  let s1 := record { exc := 10, kind := none, slotb := some false, addr := s.core.pc } under (updCore Core.land s)
  let s2 := updCore (fun c => { c with hw := [], mach := true, ie := false, ract := false, runi := false }) s1
  match coreRead true (vectorAddr s2 10) .w none s2 with
  | .ok v t => if v = 0 ∨ v % 4 ≠ 0 then coreReset 7 t else updCore (fun c => { c with pc := BitVec.ofNat 32 v, run := .running }) t
  | .fail _ t => coreReset 7 t
  | .stop t => t

/-- R622: an entry with what its failure leads to: DOUBLE, and a CORE reset where DOUBLE's entry fails too. -/
def enterOr (n : Nat) (level : Option (BitVec 4)) (ret : Word) (s : State) : State :=
  match enter n level ret s with
  | .done t => t
  | .stop t => t
  | .overflow t => stackFault false t
  | .failed a t =>
    let t1 := record { exc := 9, kind := some 3, slotb := some false, addr := a } false t
    match enter 9 none s.core.pc t1 with
    | .done u => u
    | .stop u => u
    | .overflow u => stackFault false u
    | .failed _ u => coreReset 7 u

/-- R610, R619: an exception of the word at the program counter is taken; the load before it completes first. -/
def raiseExc (f : Fail) (ret : Word) (s : State) : State :=
  let s1 := updCore Core.land s
  enterOr f.exc none ret (if f.exc = 7 ∨ f.exc = 8 then s1 else record f false s1)

/-- R610, R620: interrupt source `n` is taken at this boundary. -/
def takeInterrupt (n : Nat) (s : State) : State :=
  let s1 := updCore Core.land s
  enterOr (16 + n) (some (BitVec.ofNat 4 ((at_ 0#3 s.core.ipri n).toNat + 1))) s1.core.pc s1

/-! ### One word -/

/-- What a word's operation comes to: registers to write at its end, in order, and the load that the next word's end writes; or an exception;
or no end yet. -/
inductive Done where
  | work (writes : List (Nat × Word)) (load : Option (Nat × Word)) (s : State)
  | fail (f : Fail) (s : State)
  | stop (s : State)
  deriving DecidableEq, Repr

/-- R608, R610: the end of a word. -/
def Core.endWord (writes : List (Nat × Word)) (load : Option (Nat × Word)) (c : Core) : Core :=
  Core.advance c { writes.foldl (fun a x => a.put x.1 x.2) c.land with pendLoad := load }

def finish : Done → State
  | .work ws l t => updCore (Core.endWord ws l) t
  | .fail f t => raiseExc f t.core.pc t
  | .stop t => t

/-- R603, R609: the word at the program counter ends and the next lies at `t`. -/
def goTo (t : Word) (s : State) : State := updCore (fun c => { c.land with pc := t }) s

/-- R604 to R606, R609: the fetch of the word at the program counter fails: its exception. -/
def fetchFails (s : State) : Option Nat :=
  let a := s.core.pc.toNat
  if a % 4 ≠ 0 then some 3
  else if !mpuAllows s.core s.core.mach 2 a then some 6
  else match placeOf a with
    | .rom => none
    | .ram => none
    | .xip => if xipRange s a 4 then none else some 2
    | _ => some 2

/-- R621: a core that waits goes on when an enabled source pends. -/
def awaken (s : State) : State := if s.core.run == .waiting && enabledPends s then updCore (fun c => { c with run := .running }) s else s

/-- The word at the program counter is executed, its fetch first; a core that does not run executes nothing. -/
def word (body : State → State) (s : State) : State :=
  let t := awaken s
  if t.core.run ≠ .running then s
  else match fetchFails t with
    | some e => raiseExc { exc := e, kind := some 2, slotb := some false, addr := t.core.pc } t.core.pc t
    | none => body t

/-- The value of a general register. -/
def greg (s : State) (r : Reg) : Word := s.core.get r.toNat

/-- An exception of this word with no access behind it. -/
def illegal (s : State) : Done := .fail { exc := 4, kind := none, slotb := some false, addr := s.core.pc } s
def privFail (s : State) : Done := .fail { exc := 5, kind := none, slotb := some false, addr := s.core.pc } s

/-! ### Loads and stores (R636, R637) -/

/-- A load for register `rd`, by its short op, with the registers it updates. -/
def loadAt (slotb : Bool) (op : Nat) (rd : Reg) (a : Word) (ws : List (Nat × Word)) (s : State) : Done :=
  match coreRead s.core.mach a (opSize op) (some rd.toNat) s with
  | .ok v t => .work ws (some (rd.toNat, extend op v)) t
  | .fail e t => .fail { exc := e, kind := some 0, slotb := some slotb, addr := a } t
  | .stop t => if t.core.run == .stalledPop then .work ws none t else .stop t

/-- A store, by its short op. -/
def storeAt (slotb : Bool) (op : Nat) (v : Word) (a : Word) (ws : List (Nat × Word)) (s : State) : Done :=
  match coreWrite s.core.mach a (opSize op) v s with
  | .ok _ t => .work ws none t
  | .fail e t => .fail { exc := e, kind := some 1, slotb := some slotb, addr := a } t
  | .stop t => .stop t

/-! ### Pairs (R608) -/

/-- One slot of a pair. -/
def slotWork (slotb : Bool) (x : Short) (s : State) : Done :=
  let op := x.op.toNat
  if op = 0 then .work [] none s
  else if slotLoads x then
    let p := slotAddress x (greg s x.rs)
    loadAt slotb op x.rd p.1 (if x.md = 0 then [] else [(x.rs.toNat, p.2)]) s
  else if slotStores x then
    let p := slotAddress x (greg s x.rd)
    storeAt slotb op (greg s x.rs) p.1 (if x.md = 0 then [] else [(x.rd.toNat, p.2)]) s
  else .work [(x.rd.toNat, slotValue x (greg s x.rd) (greg s x.rs))] none s

/-- R608, R627: the SLOTB of a pair that is ILLEGAL; none where neither slot alone, or both, make it so. -/
def pairFault (a b : Short) : Option (Option Bool) :=
  match slotUndefined a, slotUndefined b with
  | true, true => some none
  | true, false => some (some false)
  | false, true => some (some true)
  | false, false => if pairClash a b then some none else none

/-- Both slots of a pair that clashes in nothing. -/
def pairWork (a b : Short) (s : State) : Done :=
  match slotWork false a s with
  | .work wa la t =>
    match slotWork true b t with
    | .work wb lb u => .work (wa ++ wb) (la.orElse (fun _ => lb)) u
    | d => d
  | d => d

/-! ### Stacks (R613, R614, R640, R641) -/

/-- A call pushes its return address and goes to `t`. -/
def callTo (t : Word) (s : State) : State :=
  let c := s.core
  let ret := c.pc + 4#32
  if c.split then
    if 64 ≤ c.hw.length then stackFault false s
    else goTo t (updCore (fun x => { x with hw := { ret := ret, st := none } :: x.hw }) s)
  else
    let a := c.get 15 - 4#32
    match coreWrite c.mach a .w ret s with
    | .ok _ u => updCore (fun x => { (x.land).put 15 a with pc := t }) u
    | .fail e u => raiseExc { exc := e, kind := some 1, slotb := some false, addr := a } c.pc u
    | .stop u => u

/-- R641: the check of a popped address: an unaligned one raises ALIGN. -/
def poppedBad (v : Word) : Bool := v.toNat % 4 != 0
def alignAt (v : Word) (s : State) : State := raiseExc { exc := 3, kind := some 2, slotb := some false, addr := v } s.core.pc s

/-- ret. -/
def doRet (s : State) : State :=
  let c := s.core
  if c.split then
    match c.hw with
    | { ret := r, st := none } :: rest => if poppedBad r then alignAt r s else goTo r (updCore (fun x => { x with hw := rest }) s)
    | _ => stackFault true s
  else
    match coreRead c.mach (c.get 15) .w none s with
    | .ok n u =>
      let v := BitVec.ofNat 32 n
      if poppedBad v then alignAt v u else updCore (fun x => { (x.land).put 15 (c.get 15 + 4#32) with pc := v }) u
    | .fail e u => raiseExc { exc := e, kind := some 0, slotb := some false, addr := c.get 15 } c.pc u
    | .stop u => u

/-- R623, R642: ST is restored, the live SPLIT kept; the load before the rfe goes to the stack pointer of the restored privilege (R638). -/
def restoreSt (v : Word) (c : Core) : Core := (c.setSt v).land

/-- rfe. -/
def doRfe (s : State) : State :=
  let c := s.core
  if !c.mach then finish (privFail s)
  else if c.split then
    match c.hw with
    | { ret := r, st := some v } :: rest =>
      if poppedBad r then alignAt r s else updCore (fun x => { restoreSt v x with hw := rest, pc := r }) s
    | _ => stackFault true s
  else
    match coreRead true c.spm .w none s with
    | .fail e u => raiseExc { exc := e, kind := some 0, slotb := some false, addr := c.spm } c.pc u
    | .stop u => u
    | .ok n u =>
      match coreRead true (c.spm + 4#32) .w none u with
      | .fail e w => raiseExc { exc := e, kind := some 0, slotb := some false, addr := c.spm + 4#32 } c.pc w
      | .stop w => w
      | .ok m w =>
        let r := BitVec.ofNat 32 n
        if poppedBad r then alignAt r w
        else updCore (fun x => { restoreSt (BitVec.ofNat 32 m) x with spm := c.spm + 8#32, pc := r }) w

/-! ### System registers (R602, R603, R615, R643) -/

/-- R602: the number is listed. -/
def srListed (n : Nat) : Bool := decide (n ≤ 8 ∨ (16 ≤ n ∧ n ≤ 20) ∨ (24 ≤ n ∧ n ≤ 48))

/-- A 32-bit half of 64 per-source bits. -/
def half (f : Nat → Bool) (h : Nat) : Nat := ((List.range 32).map (fun i => b2n (f (32 * h + i)) * 2 ^ i)).sum

def regionAt (c : Core) (n : Nat) : MpuRegion := at_ .reset c.mpu n

/-- A read of a system register. CYC counts clock cycles, which the model does not measure (log 138). -/
def srRead (s : State) (n : Nat) : State × Word :=
  let c := s.core
  let nat (v : Nat) : State × Word := (s, BitVec.ofNat 32 v)
  if 24 ≤ n ∧ n < 32 then
    nat ((List.range 8).map (fun m => (if sourceHere s (8 * (n - 24) + m) then (at_ 0#3 c.ipri (8 * (n - 24) + m)).toNat else 0) * 16 ^ m)).sum
  else if 32 ≤ n ∧ n < 40 then
    let r := regionAt c (n - 32)
    nat (b2n r.en + 2 * r.size + 256 * r.base.toNat)
  else if 40 ≤ n ∧ n < 48 then nat (regionAt c (n - 40)).perm.toNat
  else match n with
    | 0 => (s, c.st)
    | 1 => nat c.rpc
    | 2 => (s, c.vbase ++ 0#8)
    | 3 => (s, c.spt)
    | 4 => (s, c.spm)
    | 5 => (s, c.faddr)
    | 6 => nat c.fcause.toNat
    | 7 => nat c.hw.length
    | 8 => let f := fresh s; (f.2, BitVec.ofNat 32 f.1)
    | 16 => nat (half (fun k => bit c.ien k && sourceHere s k) 0)
    | 17 => nat (half (fun k => bit c.ien k) 1)
    | 18 => nat (half (pends s) 0)
    | 19 => nat (half (pends s) 1)
    | 48 => nat c.mpuCtl.toNat
    | _ => nat 0

/-- A write of a system register but ST. -/
def Core.srWrite (n : Nat) (v : Word) (c : Core) : Core :=
  if 24 ≤ n ∧ n < 32 then
    { c with ipri := (List.range 8).foldl (fun l m => l.set (8 * (n - 24) + m) (v.extractLsb' (4 * m) 3)) c.ipri }
  else if 32 ≤ n ∧ n < 40 then
    let r := { regionAt c (n - 32) with en := bit v 0, size := max 7 (bits v.toNat 1 5), base := v.extractLsb' 8 24 }
    { c with mpu := c.mpu.set (n - 32) r }
  else if 40 ≤ n ∧ n < 48 then { c with mpu := c.mpu.set (n - 40) { regionAt c (n - 40) with perm := v.extractLsb' 0 6 } }
  else match n with
    | 1 => { c with rpc := v.toNat % 512 }
    | 2 => { c with vbase := v.extractLsb' 8 24 }
    | 3 => { c with spt := v }
    | 4 => { c with spm := v }
    | 8 => { c with cyc := v }
    | 16 => { c with ien := c.ien.extractLsb' 32 32 ++ v }
    | 17 => { c with ien := v ++ c.ien.extractLsb' 0 32 }
    | 19 => { c with swi := c.swi &&& ~~~(v.extractLsb' 0 8) }
    | 20 => { c with swi := c.swi ||| v.extractLsb' 0 8 }
    | 48 => { c with mpuCtl := v.extractLsb' 0 2 }
    | _ => c

/-- R602, R643: mfs. -/
def doMfs (rd : Reg) (n : Nat) (s : State) : Done :=
  if !srListed n then illegal s
  else if !s.core.mach && !(n == 0 || n == 1 || n == 8) then privFail s
  else let r := srRead s n; .work [(rd.toNat, r.2)] none r.1

/-- R602, R615, R643: mts. -/
def doMts (n : Nat) (v : Word) (s : State) : State :=
  let c := s.core
  let next : Word := c.pc + 4#32
  if !srListed n then finish (illegal s)
  else if !c.mach && n != 1 then finish (privFail s)
  else if 5 ≤ n ∧ n ≤ 7 then finish (illegal s)
  else if n = 0 then
    if c.split && !bit v 2 && s.pwr.mode != .service then
      if c.hw ≠ [] then finish (illegal s) else updCore (fun x => { (x.setSt v).land with split := false, pc := next }) s
    else updCore (fun x => { (x.setSt v).land with pc := next }) s
  else updCore (fun x => { Core.srWrite n v x.land with pc := next }) s

/-! ### Repeat (R611, R644) -/

/-- The word at an address as the core would fetch it; none where nothing can be fetched. -/
def peek (s : State) (a : Nat) : Option Word :=
  match placeOf a with
  | .rom => some (BitVec.ofNat 32 (unle (romBytes a 4)))
  | .ram => some (BitVec.ofNat 32 (unle (rdBytes s a 4)))
  | .xip => if xipRange s a 4 then some (BitVec.ofNat 32 (unle (flashBytes s (a - xipBase) 4))) else none
  | _ => none

/-- The count a prefix asks for. -/
def repCount (s : State) : RepCount → Nat
  | .imm f => f.toNat + 1
  | .reg ra => (greg s ra).toNat

/-- R611: a repeat prefix of either kind. -/
def doRep (uni : Bool) (k : RepCount) (s : State) : State :=
  let n := repCount s k
  let c := s.core
  if (if uni then 64 else 256) < n then finish (illegal s)
  else if ((peek s (c.pc + 4#32).toNat).map notRepeatable).getD false then finish (illegal s)
  else if n = 0 then goTo (c.pc + 8#32) s
  else updCore (fun x => { x.land with ract := true, runi := uni, rpc := n, pc := c.pc + 4#32 }) s

/-! ### The array read of a fetch or of a load (R499, R500) -/

/-- A read of the array by the core: the status is counted, and a fetch of the word at the program counter, or a data read, may end in a bus
fault. -/
def xipAccess (a : Nat) (z : Size) (fetch : Bool) (s : State) : State :=
  if s.core.run ≠ .running ∨ placeOf a ≠ .xip ∨ a % sizeBytes z ≠ 0 then s
  else match xipRead a (sizeBytes z) fetch s with
    | (t, .fault) =>
      if !fetch then raiseExc { exc := 2, kind := some 0, slotb := some false, addr := BitVec.ofNat 32 a } s.core.pc t
      else if s.core.pc.toNat = a then raiseExc { exc := 2, kind := some 2, slotb := some false, addr := s.core.pc } s.core.pc t
      else t
    | (t, _) => t

end Sys2Proof.Machine
end

