-- ==== Sys2Proof/Machine/TalxaRows.lean ====
section
/-! DEFINITION. The rows of the Talxa instruction reference (chapter 21), the interrupt entry, and the debug port. -/

namespace Sys2Proof.Machine

/-- R608: the end of a word with one register result. -/
def result (rd : Reg) (v : Word) (s : State) : State := finish (.work [(rd.toNat, v)] none s)

/-- A row of the ALU group or of an immediate operation. -/
def aluRow (rd : Reg) (f : State → Word) (s : State) : Out := .next (word (fun t => result rd (f t) t) s)

/-! ### The ALU group (R632, R633) -/

def execAdd (rd ra rb : Reg) (s : State) : Out := aluRow rd (fun t => greg t ra + greg t rb) s
def execSub (rd ra rb : Reg) (s : State) : Out := aluRow rd (fun t => greg t ra - greg t rb) s
def execAnd (rd ra rb : Reg) (s : State) : Out := aluRow rd (fun t => greg t ra &&& greg t rb) s
def execOr (rd ra rb : Reg) (s : State) : Out := aluRow rd (fun t => greg t ra ||| greg t rb) s
def execXor (rd ra rb : Reg) (s : State) : Out := aluRow rd (fun t => greg t ra ^^^ greg t rb) s
def execShl (rd ra rb : Reg) (s : State) : Out := aluRow rd (fun t => opShl (greg t ra) (greg t rb)) s
def execShr (rd ra rb : Reg) (s : State) : Out := aluRow rd (fun t => opShr (greg t ra) (greg t rb)) s
def execSar (rd ra rb : Reg) (s : State) : Out := aluRow rd (fun t => opSar (greg t ra) (greg t rb)) s
def execCmpLt (rd ra rb : Reg) (s : State) : Out := aluRow rd (fun t => truth (ltS (greg t ra) (greg t rb))) s
def execCmpLo (rd ra rb : Reg) (s : State) : Out := aluRow rd (fun t => truth (ltU (greg t ra) (greg t rb))) s
def execMul (rd ra rb : Reg) (s : State) : Out := aluRow rd (fun t => greg t ra * greg t rb) s
def execMulhs (rd ra rb : Reg) (s : State) : Out := aluRow rd (fun t => opMulhs (greg t ra) (greg t rb)) s
def execMulhu (rd ra rb : Reg) (s : State) : Out := aluRow rd (fun t => opMulhu (greg t ra) (greg t rb)) s
def execDivS (rd ra rb : Reg) (s : State) : Out := aluRow rd (fun t => opDivS (greg t ra) (greg t rb)) s
def execDivU (rd ra rb : Reg) (s : State) : Out := aluRow rd (fun t => opDivU (greg t ra) (greg t rb)) s
def execModS (rd ra rb : Reg) (s : State) : Out := aluRow rd (fun t => opModS (greg t ra) (greg t rb)) s
def execModU (rd ra rb : Reg) (s : State) : Out := aluRow rd (fun t => opModU (greg t ra) (greg t rb)) s
def execCy (rd ra rb : Reg) (s : State) : Out := aluRow rd (fun t => carry (greg t ra) (greg t rb)) s
def execBw (rd ra rb : Reg) (s : State) : Out := aluRow rd (fun t => borrow (greg t ra) (greg t rb)) s

/-! ### Immediates and shifts (R634) -/

def execAddi (rd ra : Reg) (imm : BitVec 17) (s : State) : Out := aluRow rd (fun t => greg t ra + sext imm) s
def execAndi (rd ra : Reg) (imm : BitVec 17) (s : State) : Out := aluRow rd (fun t => greg t ra &&& zext imm) s
def execOri (rd ra : Reg) (imm : BitVec 17) (s : State) : Out := aluRow rd (fun t => greg t ra ||| zext imm) s
def execXori (rd ra : Reg) (imm : BitVec 17) (s : State) : Out := aluRow rd (fun t => greg t ra ^^^ zext imm) s
def execCmpiLt (rd ra : Reg) (imm : BitVec 17) (s : State) : Out := aluRow rd (fun t => truth (ltS (greg t ra) (sext imm))) s
def execCmpiLo (rd ra : Reg) (imm : BitVec 17) (s : State) : Out := aluRow rd (fun t => truth (ltU (greg t ra) (sext imm))) s
def execShli (rd ra : Reg) (imm : BitVec 5) (s : State) : Out := aluRow rd (fun t => greg t ra <<< imm.toNat) s
def execShri (rd ra : Reg) (imm : BitVec 5) (s : State) : Out := aluRow rd (fun t => greg t ra >>> imm.toNat) s
def execSari (rd ra : Reg) (imm : BitVec 5) (s : State) : Out := aluRow rd (fun t => (greg t ra).sshiftRight imm.toNat) s
def execLdhi (rd : Reg) (imm : BitVec 21) (s : State) : Out := aluRow rd (fun _ => imm ++ 0#11) s

/-! ### Loads and stores (R636); the number is that of the short op -/

def loadRow (op : Nat) (rd ra : Reg) (imm : BitVec 17) (s : State) : Out :=
  .next (word (fun t => finish (loadAt false op rd (greg t ra + sext imm) [] t)) s)
def storeRow (op : Nat) (rs ra : Reg) (imm : BitVec 17) (s : State) : Out :=
  .next (word (fun t => finish (storeAt false op (greg t rs) (greg t ra + sext imm) [] t)) s)

def execLdW (rd ra : Reg) (imm : BitVec 17) (s : State) : Out := loadRow 19 rd ra imm s
def execLdHs (rd ra : Reg) (imm : BitVec 17) (s : State) : Out := loadRow 20 rd ra imm s
def execLdHz (rd ra : Reg) (imm : BitVec 17) (s : State) : Out := loadRow 21 rd ra imm s
def execLdBs (rd ra : Reg) (imm : BitVec 17) (s : State) : Out := loadRow 22 rd ra imm s
def execLdBz (rd ra : Reg) (imm : BitVec 17) (s : State) : Out := loadRow 23 rd ra imm s
def execStW (rd ra : Reg) (imm : BitVec 17) (s : State) : Out := storeRow 24 rd ra imm s
def execStH (rd ra : Reg) (imm : BitVec 17) (s : State) : Out := storeRow 25 rd ra imm s
def execStB (rd ra : Reg) (imm : BitVec 17) (s : State) : Out := storeRow 26 rd ra imm s

/-! ### Pairs (R607, R608, R635, R637) -/

def execPairWord (a b : Short) (s : State) : Out :=
  .next (word (fun t => match pairFault a b with
    | some f => finish (.fail { exc := 4, kind := none, slotb := f, addr := t.core.pc } t)
    | none => finish (pairWork a b t)) s)

/-! ### Flow (R639, R640) -/

def branchRow (taken : State → Bool) (off : BitVec 17) (s : State) : Out :=
  .next (word (fun t => goTo (t.core.pc + if taken t then wordOff off else 4#32) t) s)

def execBrEq (ra rb : Reg) (off : BitVec 17) (s : State) : Out := branchRow (fun t => greg t ra == greg t rb) off s
def execBrNe (ra rb : Reg) (off : BitVec 17) (s : State) : Out := branchRow (fun t => greg t ra != greg t rb) off s
def execBrLt (ra rb : Reg) (off : BitVec 17) (s : State) : Out := branchRow (fun t => ltS (greg t ra) (greg t rb)) off s
def execBrGe (ra rb : Reg) (off : BitVec 17) (s : State) : Out := branchRow (fun t => !ltS (greg t ra) (greg t rb)) off s
def execBrBl (ra rb : Reg) (off : BitVec 17) (s : State) : Out := branchRow (fun t => ltU (greg t ra) (greg t rb)) off s
def execBrNb (ra rb : Reg) (off : BitVec 17) (s : State) : Out := branchRow (fun t => !ltU (greg t ra) (greg t rb)) off s
def execBriEq (ra : Reg) (imm : BitVec 5) (off : BitVec 17) (s : State) : Out := branchRow (fun t => greg t ra == sext imm) off s
def execBriNe (ra : Reg) (imm : BitVec 5) (off : BitVec 17) (s : State) : Out := branchRow (fun t => greg t ra != sext imm) off s
def execBriLt (ra : Reg) (imm : BitVec 5) (off : BitVec 17) (s : State) : Out := branchRow (fun t => ltS (greg t ra) (sext imm)) off s
def execBriGe (ra : Reg) (imm : BitVec 5) (off : BitVec 17) (s : State) : Out := branchRow (fun t => !ltS (greg t ra) (sext imm)) off s
def execBriBl (ra : Reg) (imm : BitVec 5) (off : BitVec 17) (s : State) : Out := branchRow (fun t => ltU (greg t ra) (zext imm)) off s
def execBriNb (ra : Reg) (imm : BitVec 5) (off : BitVec 17) (s : State) : Out := branchRow (fun t => !ltU (greg t ra) (zext imm)) off s

def execJ (off : BitVec 25) (s : State) : Out := .next (word (fun t => goTo (t.core.pc + wordOff off) t) s)
def execCall (off : BitVec 25) (s : State) : Out := .next (word (fun t => callTo (t.core.pc + wordOff off) t) s)
/-- R609: a target that is not word-aligned raises ALIGN. -/
def execJmpR (ra : Reg) (s : State) : Out :=
  .next (word (fun t => if poppedBad (greg t ra) then alignAt (greg t ra) t else goTo (greg t ra) t) s)
def execCallR (ra : Reg) (s : State) : Out :=
  .next (word (fun t => if poppedBad (greg t ra) then alignAt (greg t ra) t else callTo (greg t ra) t) s)
def execRet (s : State) : Out := .next (word doRet s)
def execRfe (s : State) : Out := .next (word doRfe s)

/-! ### System operations (R642, R643) -/

def execSyscall (s : State) : Out :=
  .next (word (fun t => raiseExc { exc := 7, kind := none, slotb := none, addr := t.core.pc } (t.core.pc + 4#32) t) s)

/-- R642: a debugger that holds the debug port open halts the core in place of the exception (log 41). -/
def execBreak (s : State) : Out :=
  .next (word (fun t =>
    if decide (1 ≤ t.boot.debug) && t.core.debugHalt then updCore (fun c => { c with run := .halted }) (goTo (t.core.pc + 4#32) t)
    else raiseExc { exc := 8, kind := none, slotb := none, addr := t.core.pc } (t.core.pc + 4#32) t) s)

/-- R621: the core's clock is gated until a source with its IEN bit set pends. -/
def execWait (s : State) : Out :=
  .next (word (fun t => let u := goTo (t.core.pc + 4#32) t; if enabledPends t then u else updCore (fun c => { c with run := .waiting }) u) s)

def execMfs (rd : Reg) (sr : BitVec 8) (s : State) : Out := .next (word (fun t => finish (doMfs rd sr.toNat t)) s)
def execMts (sr : BitVec 8) (ra : Reg) (s : State) : Out := .next (word (fun t => doMts sr.toNat (greg t ra) t) s)
def execRepI (c : RepCount) (s : State) : Out := .next (word (doRep false c) s)
def execRepU (c : RepCount) (s : State) : Out := .next (word (doRep true c) s)

/-- R627: the core executes a word that the reference does not define; SLOTB is a pair's own. -/
def execIllegalEncoding (w : Word) (s : State) : Out :=
  .next <|
    if wordDefined w then s
    else
      let f : Option Bool :=
        if !bit w 31 then some false
        else if bit w 15 then none
        else (pairFault (shortOf (bits w.toNat 16 15)) (shortOf (bits w.toNat 0 15))).getD none
      word (fun t => finish (.fail { exc := 4, kind := none, slotb := f, addr := t.core.pc } t)) s

/-! ### Interrupt entry (R452, R620, R621) -/

/-- R620, R621: at a word boundary the interrupt that qualifies is taken. A core that waits goes on; a stalled POP or a stalled write of
PWR_SLEEP ends first. -/
def execInterruptEntry (s : State) : Out :=
  .next <|
    match s.core.run with
    | .running => (match nextSource s with | some n => takeInterrupt n s | none => s)
    | .waiting =>
      if !enabledPends s then s
      else
        let t := awaken s
        (match nextSource t with | some n => takeInterrupt n t | none => t)
    | .stalledPop =>
      (match nextSource s, s.qm.stalls.find? (fun t => decide (t.master = .app)) with
       | some n, some t =>
         takeInterrupt n (endStall t emptyToken (countEmpty (updQueue t.queue (fun x => { x with stallIntr := true }) s)))
       | _, _ => s)
    | .stalledSleep =>
      if s.pwr.phase == .awake && decide (depthCode (shallower s.pwr.appDepth (sleepReach s)) ≤ 1) then
        (match nextSource s with | some n => takeInterrupt n (endAppSleep 1 s) | none => s)
      else s
    | _ => s

/-! ### The array read of a word (R499) -/

def execFlashXipRead (addr : Nat) (size : Size) (fetch : Bool) (s : State) : Out := .next (xipAccess addr size fetch s)

/-! ### The debug port (R71, R685) -/

/-- R17, R685: the debug port's view of the application core and its bus; the queue ports are not read through it (log 41). -/
def debugServe (a : DebugAccess) (s : State) : State :=
  let answer (v : Word) (t : State) : State := updCore (fun c => { c with debugHalt := true, debugRead := v }) t
  match a with
  | .halt => answer 0 (updCore (fun c => { c with run := if c.run == .running || c.run == .waiting then .halted else c.run }) s)
  | .resume => answer 0 (updCore (fun c => { c with run := if c.run == .halted then .running else c.run }) s)
  | .coreReset => answer 0 (coreReset 7 s)
  | .readMem a =>
    if misaligned a.toNat .w || decide (0x48000000 ≤ a.toNat ∧ a.toNat < 0x48002000) then answer 0 s
    else (match busRead a.toNat .w none s with
      | (t, .val v) => answer (BitVec.ofNat 32 v) t
      | (t, _) => answer 0 t)
  | .writeMem a v => answer 0 (if misaligned a.toNat .w then s else (busWrite a.toNat .w v s).getD s)
  | .readReg r => answer (greg s r) s
  | .writeReg r v => answer 0 (updCore (fun c => c.put r.toNat v) s)

def execDebugPortAccess (a : DebugAccess) (s : State) : Out :=
  .next (if s.boot.debug = 0 then updCore (fun c => { c with debugRead := 0 }) s else debugServe a s)

end Sys2Proof.Machine
end

