-- ==== Sys2Proof/Machine/Dispatch.lean ====
section
/-! DEFINITION. One arm per command: what it does to everything but the queue. -/

namespace Sys2Proof.Machine

/-- The effect of a command (its row of the opcode table). -/
def exec (i : Instr) (s : State) : Host.Outcome State Fault Refusal :=
  match i with
  | .doorbell who v => Sys2Proof.Machine.execDoorbell who v s
  | .mbxAck who v => Sys2Proof.Machine.execMbxAck who v s
  | .requestBufferWrite who addr size v => Sys2Proof.Machine.execRequestBufferWrite who addr size v s
  | .eventWrite ch => Sys2Proof.Machine.execEventWrite ch s
  | .authLockoutEnd req => Sys2Proof.Machine.execAuthLockoutEnd req s
  | .hostWriteTransaction sdi partWord => Sys2Proof.Machine.execHostWriteTransaction sdi partWord s
  | .hostReadTransaction sdi words partWord => Sys2Proof.Machine.execHostReadTransaction sdi words partWord s
  | .sysInfo v => Sys2Proof.Machine.execSysInfo v s
  | .sysCaps v => Sys2Proof.Machine.execSysCaps v s
  | .survey v => Sys2Proof.Machine.execSurvey v s
  | .surveyRecord => Sys2Proof.Machine.execSurveyRecord s
  | .surveyCapture => Sys2Proof.Machine.execSurveyCapture s
  | .surveyQuiesceTimeout => Sys2Proof.Machine.execSurveyQuiesceTimeout s
  | .sysReset v => Sys2Proof.Machine.execSysReset v s
  | .resetDelayExpiry => Sys2Proof.Machine.execResetDelayExpiry s
  | .modeSet v => Sys2Proof.Machine.execModeSet v s
  | .modeDrainEnd => Sys2Proof.Machine.execModeDrainEnd s
  | .modeDrainTimeout => Sys2Proof.Machine.execModeDrainTimeout s
  | .modeGet v => Sys2Proof.Machine.execModeGet v s
  | .modeLock v => Sys2Proof.Machine.execModeLock v s
  | .debugUnlock v => Sys2Proof.Machine.execDebugUnlock v s
  | .optionRead v => Sys2Proof.Machine.execOptionRead v s
  | .optionWrite v => Sys2Proof.Machine.execOptionWrite v s
  | .cmdCounterGet v => Sys2Proof.Machine.execCmdCounterGet v s
  | .counterRaise v => Sys2Proof.Machine.execCounterRaise v s
  | .eventFilterSet v => Sys2Proof.Machine.execEventFilterSet v s
  | .eventFilterGet v => Sys2Proof.Machine.execEventFilterGet v s
  | .shotOpen v => Sys2Proof.Machine.execShotOpen v s
  | .shotAdd v => Sys2Proof.Machine.execShotAdd v s
  | .shotFire v => Sys2Proof.Machine.execShotFire v s
  | .shotAbort v => Sys2Proof.Machine.execShotAbort v s
  | .shotStatus v => Sys2Proof.Machine.execShotStatus v s
  | .shotTrigger n => Sys2Proof.Machine.execShotTrigger n s
  | .shotFrameTimeout n => Sys2Proof.Machine.execShotFrameTimeout n s
  | .shotQuiesceStart n => Sys2Proof.Machine.execShotQuiesceStart n s
  | .shotSwap n => Sys2Proof.Machine.execShotSwap n s
  | .shotBoundExpiry n => Sys2Proof.Machine.execShotBoundExpiry n s
  | .shotPersistDone n fail => Sys2Proof.Machine.execShotPersistDone n fail s
  | .radioStateGet v => Sys2Proof.Machine.execRadioStateGet v s
  | .radioTuneSet v => Sys2Proof.Machine.execRadioTuneSet v s
  | .radioTuneGet v => Sys2Proof.Machine.execRadioTuneGet v s
  | .radioPaSet v => Sys2Proof.Machine.execRadioPaSet v s
  | .radioPaGet v => Sys2Proof.Machine.execRadioPaGet v s
  | .radioCompSet v => Sys2Proof.Machine.execRadioCompSet v s
  | .radioCompGet v => Sys2Proof.Machine.execRadioCompGet v s
  | .radioDivSet v => Sys2Proof.Machine.execRadioDivSet v s
  | .radioDivGet v => Sys2Proof.Machine.execRadioDivGet v s
  | .radioExtSet v => Sys2Proof.Machine.execRadioExtSet v s
  | .radioExtGet v => Sys2Proof.Machine.execRadioExtGet v s
  | .radioCal v => Sys2Proof.Machine.execRadioCal v s
  | .radioCalDone => Sys2Proof.Machine.execRadioCalDone s
  | .radioRssi v => Sys2Proof.Machine.execRadioRssi v s
  | .rssiMeasureEnd rssi => Sys2Proof.Machine.execRssiMeasureEnd rssi s
  | .radioCca v => Sys2Proof.Machine.execRadioCca v s
  | .ccaListenEnd rssiA rssiB => Sys2Proof.Machine.execCcaListenEnd rssiA rssiB s
  | .radioStatsGet v => Sys2Proof.Machine.execRadioStatsGet v s
  | .radioTestTx v => Sys2Proof.Machine.execRadioTestTx v s
  | .radioTestStop v => Sys2Proof.Machine.execRadioTestStop v s
  | .testTxEnd => Sys2Proof.Machine.execTestTxEnd s
  | .radioTransitionDone => Sys2Proof.Machine.execRadioTransitionDone s
  | .calEnd code => Sys2Proof.Machine.execCalEnd code s
  | .lockTimeout => Sys2Proof.Machine.execLockTimeout s
  | .tempMeasure temp => Sys2Proof.Machine.execTempMeasure temp s
  | .autoRecal => Sys2Proof.Machine.execAutoRecal s
  | .recalWaitTimeout => Sys2Proof.Machine.execRecalWaitTimeout s
  | .homeRetune => Sys2Proof.Machine.execHomeRetune s
  | .txStart vbat temp => Sys2Proof.Machine.execTxStart vbat temp s
  | .txEnd => Sys2Proof.Machine.execTxEnd s
  | .txLate => Sys2Proof.Machine.execTxLate s
  | .divDecisionEnd lane rssiA rssiB cut => Sys2Proof.Machine.execDivDecisionEnd lane rssiA rssiB cut s
  | .refFail => Sys2Proof.Machine.execRefFail s
  | .refRetry => Sys2Proof.Machine.execRefRetry s
  | .xordy => Sys2Proof.Machine.execXordy s
  | .pllLock env => Sys2Proof.Machine.execPllLock env s
  | .lfxrdy => Sys2Proof.Machine.execLfxrdy s
  | .scalWindowEnd count => Sys2Proof.Machine.execScalWindowEnd count s
  | .mtimeLoRead => Sys2Proof.Machine.execMtimeLoRead s
  | .laneStateGet v => Sys2Proof.Machine.execLaneStateGet v s
  | .laneSet v => Sys2Proof.Machine.execLaneSet v s
  | .laneGet v => Sys2Proof.Machine.execLaneGet v s
  | .laneStatsGet v => Sys2Proof.Machine.execLaneStatsGet v s
  | .laneSofDetect lane path coded stamp => Sys2Proof.Machine.execLaneSofDetect lane path coded stamp s
  | .laneHeader lane h => Sys2Proof.Machine.execLaneHeader lane h s
  | .seamPilotBlock lane weak energy => Sys2Proof.Machine.execSeamPilotBlock lane weak energy s
  | .laneFcsResult lane r => Sys2Proof.Machine.execLaneFcsResult lane r s
  | .agcClip path => Sys2Proof.Machine.execAgcClip path s
  | .phyProfileSet v => Sys2Proof.Machine.execPhyProfileSet v s
  | .phyProfileGet v => Sys2Proof.Machine.execPhyProfileGet v s
  | .phyQualityGet v => Sys2Proof.Machine.execPhyQualityGet v s
  | .phyStatsGet v => Sys2Proof.Machine.execPhyStatsGet v s
  | .canaryStateGet v => Sys2Proof.Machine.execCanaryStateGet v s
  | .canarySet v => Sys2Proof.Machine.execCanarySet v s
  | .canaryGet v => Sys2Proof.Machine.execCanaryGet v s
  | .canarySend v => Sys2Proof.Machine.execCanarySend v s
  | .canarySendEnd => Sys2Proof.Machine.execCanarySendEnd s
  | .canaryStatsGet v => Sys2Proof.Machine.execCanaryStatsGet v s
  | .preambleSeen => Sys2Proof.Machine.execPreambleSeen s
  | .manchesterViolation => Sys2Proof.Machine.execManchesterViolation s
  | .canarySequenceEnd rx => Sys2Proof.Machine.execCanarySequenceEnd rx s
  | .canaryMatch => Sys2Proof.Machine.execCanaryMatch s
  | .canaryBlankEnd => Sys2Proof.Machine.execCanaryBlankEnd s
  | .linkStateGet v => Sys2Proof.Machine.execLinkStateGet v s
  | .linkCfgSet v => Sys2Proof.Machine.execLinkCfgSet v s
  | .linkCfgGet v => Sys2Proof.Machine.execLinkCfgGet v s
  | .nbrSet v => Sys2Proof.Machine.execNbrSet v s
  | .nbrGet v => Sys2Proof.Machine.execNbrGet v s
  | .nbrFind v => Sys2Proof.Machine.execNbrFind v s
  | .routeSet v => Sys2Proof.Machine.execRouteSet v s
  | .routeGet v => Sys2Proof.Machine.execRouteGet v s
  | .routeLookup v => Sys2Proof.Machine.execRouteLookup v s
  | .linkJoin v => Sys2Proof.Machine.execLinkJoin v s
  | .joinReqInterval => Sys2Proof.Machine.execJoinReqInterval s
  | .joinTimeout => Sys2Proof.Machine.execJoinTimeout s
  | .linkJoinReply v => Sys2Proof.Machine.execLinkJoinReply v s
  | .linkStatsGet v => Sys2Proof.Machine.execLinkStatsGet v s
  | .frameReceive rx => Sys2Proof.Machine.execFrameReceive rx s
  | .ackDecision rx => Sys2Proof.Machine.execAckDecision rx s
  | .micResult rx ecc => Sys2Proof.Machine.execMicResult rx ecc s
  | .pendHoldEnd => Sys2Proof.Machine.execPendHoldEnd s
  | .linkTakeFrame flow ecc => Sys2Proof.Machine.execLinkTakeFrame flow ecc s
  | .ackReceive rx => Sys2Proof.Machine.execAckReceive rx s
  | .ackWaitExpiry => Sys2Proof.Machine.execAckWaitExpiry s
  | .retryBackoffEnd flight => Sys2Proof.Machine.execRetryBackoffEnd flight s
  | .linkDrop => Sys2Proof.Machine.execLinkDrop s
  | .timingStateGet v => Sys2Proof.Machine.execTimingStateGet v s
  | .timingCfgSet v => Sys2Proof.Machine.execTimingCfgSet v s
  | .timingCfgGet v => Sys2Proof.Machine.execTimingCfgGet v s
  | .timingChseqSet v => Sys2Proof.Machine.execTimingChseqSet v s
  | .timingChseqGet v => Sys2Proof.Machine.execTimingChseqGet v s
  | .timingNbrGet v => Sys2Proof.Machine.execTimingNbrGet v s
  | .timingMtimeSet v => Sys2Proof.Machine.execTimingMtimeSet v s
  | .timingBeacon v => Sys2Proof.Machine.execTimingBeacon v s
  | .timingResync v => Sys2Proof.Machine.execTimingResync v s
  | .timeSync v => Sys2Proof.Machine.execTimeSync v s
  | .timingStatsGet v => Sys2Proof.Machine.execTimingStatsGet v s
  | .mtimeStep => Sys2Proof.Machine.execMtimeStep s
  | .calendarOverflowMove => Sys2Proof.Machine.execCalendarOverflowMove s
  | .ownWindowOpen => Sys2Proof.Machine.execOwnWindowOpen s
  | .ownWindowClose => Sys2Proof.Machine.execOwnWindowClose s
  | .keepaliveBeacon nbr => Sys2Proof.Machine.execKeepaliveBeacon nbr s
  | .resyncBeacon nbr => Sys2Proof.Machine.execResyncBeacon nbr s
  | .resyncInterval nbr => Sys2Proof.Machine.execResyncInterval nbr s
  | .resyncListenEnd => Sys2Proof.Machine.execResyncListenEnd s
  | .tallyCfgSet v => Sys2Proof.Machine.execTallyCfgSet v s
  | .tallyCfgGet v => Sys2Proof.Machine.execTallyCfgGet v s
  | .tallyBandSet v => Sys2Proof.Machine.execTallyBandSet v s
  | .tallyBandGet v => Sys2Proof.Machine.execTallyBandGet v s
  | .tallyUsageGet v => Sys2Proof.Machine.execTallyUsageGet v s
  | .tallyCheck v => Sys2Proof.Machine.execTallyCheck v s
  | .tallyStatsGet v => Sys2Proof.Machine.execTallyStatsGet v s
  | .tallyClear v => Sys2Proof.Machine.execTallyClear v s
  | .bucketRoll => Sys2Proof.Machine.execBucketRoll s
  | .lbtListenEnd rssiA rssiB => Sys2Proof.Machine.execLbtListenEnd rssiA rssiB s
  | .lbtBackoffEnd => Sys2Proof.Machine.execLbtBackoffEnd s
  | .tallyRefuse => Sys2Proof.Machine.execTallyRefuse s
  | .qmStateGet v => Sys2Proof.Machine.execQmStateGet v s
  | .queueSet v => Sys2Proof.Machine.execQueueSet v s
  | .queueGet v => Sys2Proof.Machine.execQueueGet v s
  | .queueStatusGet v => Sys2Proof.Machine.execQueueStatusGet v s
  | .qmCfgSet v => Sys2Proof.Machine.execQmCfgSet v s
  | .qmCfgGet v => Sys2Proof.Machine.execQmCfgGet v s
  | .queueFlush v => Sys2Proof.Machine.execQueueFlush v s
  | .qmStatsGet v => Sys2Proof.Machine.execQmStatsGet v s
  | .qmPush who q v => Sys2Proof.Machine.execQmPush who q v s
  | .qmPop who q ecc => Sys2Proof.Machine.execQmPop who q ecc s
  | .qmLandingWrite who q v => Sys2Proof.Machine.execQmLandingWrite who q v s
  | .popStallExpired who => Sys2Proof.Machine.execPopStallExpired who s
  | .schedStateGet v => Sys2Proof.Machine.execSchedStateGet v s
  | .flowSet v => Sys2Proof.Machine.execFlowSet v s
  | .flowGet v => Sys2Proof.Machine.execFlowGet v s
  | .flowStateGet v => Sys2Proof.Machine.execFlowStateGet v s
  | .shaperSet v => Sys2Proof.Machine.execShaperSet v s
  | .shaperGet v => Sys2Proof.Machine.execShaperGet v s
  | .schedStatsGet v => Sys2Proof.Machine.execSchedStatsGet v s
  | .schedRelease => Sys2Proof.Machine.execSchedRelease s
  | .shaperRefill => Sys2Proof.Machine.execShaperRefill s
  | .wheelEligible flow => Sys2Proof.Machine.execWheelEligible flow s
  | .schedBlocked => Sys2Proof.Machine.execSchedBlocked s
  | .cipherStateGet v => Sys2Proof.Machine.execCipherStateGet v s
  | .keyInfoGet v => Sys2Proof.Machine.execKeyInfoGet v s
  | .keyUsageSet v => Sys2Proof.Machine.execKeyUsageSet v s
  | .keyImport v => Sys2Proof.Machine.execKeyImport v s
  | .keyRetire v => Sys2Proof.Machine.execKeyRetire v s
  | .keyGenerate v => Sys2Proof.Machine.execKeyGenerate v s
  | .cipherRun v => Sys2Proof.Machine.execCipherRun v s
  | .cipherRunDone => Sys2Proof.Machine.execCipherRunDone s
  | .rngGet v => Sys2Proof.Machine.execRngGet v s
  | .hashRun v => Sys2Proof.Machine.execHashRun v s
  | .hashRunDone => Sys2Proof.Machine.execHashRunDone s
  | .sigVerify v => Sys2Proof.Machine.execSigVerify v s
  | .sigVerifyDone => Sys2Proof.Machine.execSigVerifyDone s
  | .cipherStatsGet v => Sys2Proof.Machine.execCipherStatsGet v s
  | .fcReserveWrite slot fail => Sys2Proof.Machine.execFcReserveWrite slot fail s
  | .fcReserveRetry => Sys2Proof.Machine.execFcReserveRetry s
  | .drbgReseed mask => Sys2Proof.Machine.execDrbgReseed mask s
  | .cipherHalt mask => Sys2Proof.Machine.execCipherHalt mask s
  | .healthFail => Sys2Proof.Machine.execHealthFail s
  | .sourceRestartEnd pass => Sys2Proof.Machine.execSourceRestartEnd pass s
  | .pwrStateGet v => Sys2Proof.Machine.execPwrStateGet v s
  | .pwrCfgSet v => Sys2Proof.Machine.execPwrCfgSet v s
  | .pwrCfgGet v => Sys2Proof.Machine.execPwrCfgGet v s
  | .pwrSleep v => Sys2Proof.Machine.execPwrSleep v s
  | .pwrSleepWrite v => Sys2Proof.Machine.execPwrSleepWrite v s
  | .sleepCommit => Sys2Proof.Machine.execSleepCommit s
  | .napReached => Sys2Proof.Machine.execNapReached s
  | .hibernateReached => Sys2Proof.Machine.execHibernateReached s
  | .napWake => Sys2Proof.Machine.execNapWake s
  | .wakePinEdge => Sys2Proof.Machine.execWakePinEdge s
  | .gpioEdge pin rising held => Sys2Proof.Machine.execGpioEdge pin rising held s
  | .nettimer => Sys2Proof.Machine.execNettimer s
  | .apptimerArm v => Sys2Proof.Machine.execApptimerArm v s
  | .apptimer => Sys2Proof.Machine.execApptimer s
  | .pwrWakeenWrite v => Sys2Proof.Machine.execPwrWakeenWrite v s
  | .pwrClr v => Sys2Proof.Machine.execPwrClr v s
  | .padsRelease v => Sys2Proof.Machine.execPadsRelease v s
  | .padsOutset v => Sys2Proof.Machine.execPadsOutset v s
  | .padsOutclr v => Sys2Proof.Machine.execPadsOutclr v s
  | .por => Sys2Proof.Machine.execPor s
  | .bor => Sys2Proof.Machine.execBor s
  | .borRelease => Sys2Proof.Machine.execBorRelease s
  | .backupRetention => Sys2Proof.Machine.execBackupRetention s
  | .backupReturn => Sys2Proof.Machine.execBackupReturn s
  | .aonLoss => Sys2Proof.Machine.execAonLoss s
  | .nrstAssert => Sys2Proof.Machine.execNrstAssert s
  | .nrstRelease => Sys2Proof.Machine.execNrstRelease s
  | .nwdtExpire => Sys2Proof.Machine.execNwdtExpire s
  | .sysctlCorerst v => Sys2Proof.Machine.execSysctlCorerst v s
  | .coreRestart => Sys2Proof.Machine.execCoreRestart s
  | .wakeReset => Sys2Proof.Machine.execWakeReset s
  | .bootHandover => Sys2Proof.Machine.execBootHandover s
  | .flashStateGet v => Sys2Proof.Machine.execFlashStateGet v s
  | .flashRead v => Sys2Proof.Machine.execFlashRead v s
  | .flashProgram v => Sys2Proof.Machine.execFlashProgram v s
  | .flashErase v => Sys2Proof.Machine.execFlashErase v s
  | .flashBlockGet v => Sys2Proof.Machine.execFlashBlockGet v s
  | .flashStatsGet v => Sys2Proof.Machine.execFlashStatsGet v s
  | .flashcProgram v => Sys2Proof.Machine.execFlashcProgram v s
  | .flashcErase v => Sys2Proof.Machine.execFlashcErase v s
  | .flashCommandStart plane => Sys2Proof.Machine.execFlashCommandStart plane s
  | .flashProgramDone plane r => Sys2Proof.Machine.execFlashProgramDone plane r s
  | .flashEraseDone plane r => Sys2Proof.Machine.execFlashEraseDone plane r s
  | .flashXipRead addr size fetch => Sys2Proof.Machine.execFlashXipRead addr size fetch s
  | .eraseResume plane => Sys2Proof.Machine.execEraseResume plane s
  | .flashcBsel v => Sys2Proof.Machine.execFlashcBsel v s
  | .blockQueryDone => Sys2Proof.Machine.execBlockQueryDone s
  | .flashcLock v => Sys2Proof.Machine.execFlashcLock v s
  | .flashcEcccntRead => Sys2Proof.Machine.execFlashcEcccntRead s
  | .updateStateGet v => Sys2Proof.Machine.execUpdateStateGet v s
  | .updateStageBegin v => Sys2Proof.Machine.execUpdateStageBegin v s
  | .updateStageBeginDone fail => Sys2Proof.Machine.execUpdateStageBeginDone fail s
  | .updateStageWrite v => Sys2Proof.Machine.execUpdateStageWrite v s
  | .updateStageCheck v => Sys2Proof.Machine.execUpdateStageCheck v s
  | .updateStageCheckDone => Sys2Proof.Machine.execUpdateStageCheckDone s
  | .updateCommit v => Sys2Proof.Machine.execUpdateCommit v s
  | .updateSchedule v => Sys2Proof.Machine.execUpdateSchedule v s
  | .updateCancel v => Sys2Proof.Machine.execUpdateCancel v s
  | .sdCardSearch env => Sys2Proof.Machine.execSdCardSearch env s
  | .rtcStateGet v => Sys2Proof.Machine.execRtcStateGet v s
  | .rtcTimeGet v => Sys2Proof.Machine.execRtcTimeGet v s
  | .rtcTimeSet v => Sys2Proof.Machine.execRtcTimeSet v s
  | .rtcAlarmSet v => Sys2Proof.Machine.execRtcAlarmSet v s
  | .rtcAlarmGet v => Sys2Proof.Machine.execRtcAlarmGet v s
  | .rtcFlagsClear v => Sys2Proof.Machine.execRtcFlagsClear v s
  | .rtcTimeRead net k => Sys2Proof.Machine.execRtcTimeRead net k s
  | .rtcSet net v => Sys2Proof.Machine.execRtcSet net v s
  | .rtcThaw net v => Sys2Proof.Machine.execRtcThaw net v s
  | .rtcCommit => Sys2Proof.Machine.execRtcCommit s
  | .rtcSecondRollover => Sys2Proof.Machine.execRtcSecondRollover s
  | .oscStop => Sys2Proof.Machine.execOscStop s
  | .shadowStale net => Sys2Proof.Machine.execShadowStale net s
  | .fieldOn => Sys2Proof.Machine.execFieldOn s
  | .fieldLoss => Sys2Proof.Machine.execFieldLoss s
  | .reqa => Sys2Proof.Machine.execReqa s
  | .wupa => Sys2Proof.Machine.execWupa s
  | .anticollision f => Sys2Proof.Machine.execAnticollision f s
  | .cascadeSelect f => Sys2Proof.Machine.execCascadeSelect f s
  | .hlta => Sys2Proof.Machine.execHlta s
  | .rats param => Sys2Proof.Machine.execRats param s
  | .pps pps => Sys2Proof.Machine.execPps pps s
  | .sDeselect => Sys2Proof.Machine.execSDeselect s
  | .wtxExpiry ctrFail wFail => Sys2Proof.Machine.execWtxExpiry ctrFail wFail s
  | .select_ apdu => Sys2Proof.Machine.execSelect apdu s
  | .readBinary apdu => Sys2Proof.Machine.execReadBinary apdu s
  | .getInfo apdu => Sys2Proof.Machine.execGetInfo apdu s
  | .verify apdu w => Sys2Proof.Machine.execVerify apdu w s
  | .readBlock apdu => Sys2Proof.Machine.execReadBlock apdu s
  | .writeBlock apdu w => Sys2Proof.Machine.execWriteBlock apdu w s
  | .stageCred apdu w => Sys2Proof.Machine.execStageCred apdu w s
  | .mailbox apdu ctrFail wFail => Sys2Proof.Machine.execMailbox apdu ctrFail wFail s
  | .portBlockWrite ok => Sys2Proof.Machine.execPortBlockWrite ok s
  | .portwTake => Sys2Proof.Machine.execPortwTake s
  | .portwPrio => Sys2Proof.Machine.execPortwPrio s
  | .portwRelease => Sys2Proof.Machine.execPortwRelease s
  | .portwRead => Sys2Proof.Machine.execPortwRead s
  | .portwWrite => Sys2Proof.Machine.execPortwWrite s
  | .portwCmdDone ok => Sys2Proof.Machine.execPortwCmdDone ok s
  | .portStateGet v => Sys2Proof.Machine.execPortStateGet v s
  | .portCfgSet v => Sys2Proof.Machine.execPortCfgSet v s
  | .portCfgGet v => Sys2Proof.Machine.execPortCfgGet v s
  | .portMemRead v => Sys2Proof.Machine.execPortMemRead v s
  | .portMemWrite v => Sys2Proof.Machine.execPortMemWrite v s
  | .portPwSet v => Sys2Proof.Machine.execPortPwSet v s
  | .portPwUnlock v => Sys2Proof.Machine.execPortPwUnlock v s
  | .portPwGet v => Sys2Proof.Machine.execPortPwGet v s
  | .portCredGet v => Sys2Proof.Machine.execPortCredGet v s
  | .portCredClear v => Sys2Proof.Machine.execPortCredClear v s
  | .interruptEntry => Sys2Proof.Machine.execInterruptEntry s
  | .pairWord a b => Sys2Proof.Machine.execPairWord a b s
  | .add rd ra rb => Sys2Proof.Machine.execAdd rd ra rb s
  | .sub rd ra rb => Sys2Proof.Machine.execSub rd ra rb s
  | .and_ rd ra rb => Sys2Proof.Machine.execAnd rd ra rb s
  | .or_ rd ra rb => Sys2Proof.Machine.execOr rd ra rb s
  | .xor rd ra rb => Sys2Proof.Machine.execXor rd ra rb s
  | .shl rd ra rb => Sys2Proof.Machine.execShl rd ra rb s
  | .shr rd ra rb => Sys2Proof.Machine.execShr rd ra rb s
  | .sar rd ra rb => Sys2Proof.Machine.execSar rd ra rb s
  | .cmpLt rd ra rb => Sys2Proof.Machine.execCmpLt rd ra rb s
  | .cmpLo rd ra rb => Sys2Proof.Machine.execCmpLo rd ra rb s
  | .mul rd ra rb => Sys2Proof.Machine.execMul rd ra rb s
  | .mulhs rd ra rb => Sys2Proof.Machine.execMulhs rd ra rb s
  | .mulhu rd ra rb => Sys2Proof.Machine.execMulhu rd ra rb s
  | .divS rd ra rb => Sys2Proof.Machine.execDivS rd ra rb s
  | .divU rd ra rb => Sys2Proof.Machine.execDivU rd ra rb s
  | .modS rd ra rb => Sys2Proof.Machine.execModS rd ra rb s
  | .modU rd ra rb => Sys2Proof.Machine.execModU rd ra rb s
  | .cy rd ra rb => Sys2Proof.Machine.execCy rd ra rb s
  | .bw rd ra rb => Sys2Proof.Machine.execBw rd ra rb s
  | .addi rd ra imm => Sys2Proof.Machine.execAddi rd ra imm s
  | .andi rd ra imm => Sys2Proof.Machine.execAndi rd ra imm s
  | .ori rd ra imm => Sys2Proof.Machine.execOri rd ra imm s
  | .xori rd ra imm => Sys2Proof.Machine.execXori rd ra imm s
  | .cmpiLt rd ra imm => Sys2Proof.Machine.execCmpiLt rd ra imm s
  | .cmpiLo rd ra imm => Sys2Proof.Machine.execCmpiLo rd ra imm s
  | .shli rd ra imm => Sys2Proof.Machine.execShli rd ra imm s
  | .shri rd ra imm => Sys2Proof.Machine.execShri rd ra imm s
  | .sari rd ra imm => Sys2Proof.Machine.execSari rd ra imm s
  | .ldhi rd imm => Sys2Proof.Machine.execLdhi rd imm s
  | .ldW rd ra imm => Sys2Proof.Machine.execLdW rd ra imm s
  | .ldHs rd ra imm => Sys2Proof.Machine.execLdHs rd ra imm s
  | .ldHz rd ra imm => Sys2Proof.Machine.execLdHz rd ra imm s
  | .ldBs rd ra imm => Sys2Proof.Machine.execLdBs rd ra imm s
  | .ldBz rd ra imm => Sys2Proof.Machine.execLdBz rd ra imm s
  | .stW rd ra imm => Sys2Proof.Machine.execStW rd ra imm s
  | .stH rd ra imm => Sys2Proof.Machine.execStH rd ra imm s
  | .stB rd ra imm => Sys2Proof.Machine.execStB rd ra imm s
  | .wait_ => Sys2Proof.Machine.execWait s
  | .mfs rd sr => Sys2Proof.Machine.execMfs rd sr s
  | .mts sr ra => Sys2Proof.Machine.execMts sr ra s
  | .repI c => Sys2Proof.Machine.execRepI c s
  | .repU c => Sys2Proof.Machine.execRepU c s
  | .ret => Sys2Proof.Machine.execRet s
  | .rfe => Sys2Proof.Machine.execRfe s
  | .syscall => Sys2Proof.Machine.execSyscall s
  | .break_ => Sys2Proof.Machine.execBreak s
  | .brEq ra rb off => Sys2Proof.Machine.execBrEq ra rb off s
  | .brNe ra rb off => Sys2Proof.Machine.execBrNe ra rb off s
  | .brLt ra rb off => Sys2Proof.Machine.execBrLt ra rb off s
  | .brGe ra rb off => Sys2Proof.Machine.execBrGe ra rb off s
  | .brBl ra rb off => Sys2Proof.Machine.execBrBl ra rb off s
  | .brNb ra rb off => Sys2Proof.Machine.execBrNb ra rb off s
  | .briEq ra imm off => Sys2Proof.Machine.execBriEq ra imm off s
  | .briNe ra imm off => Sys2Proof.Machine.execBriNe ra imm off s
  | .briLt ra imm off => Sys2Proof.Machine.execBriLt ra imm off s
  | .briGe ra imm off => Sys2Proof.Machine.execBriGe ra imm off s
  | .briBl ra imm off => Sys2Proof.Machine.execBriBl ra imm off s
  | .briNb ra imm off => Sys2Proof.Machine.execBriNb ra imm off s
  | .j off => Sys2Proof.Machine.execJ off s
  | .call off => Sys2Proof.Machine.execCall off s
  | .jmpR ra => Sys2Proof.Machine.execJmpR ra s
  | .callR ra => Sys2Proof.Machine.execCallR ra s
  | .seGo n => Sys2Proof.Machine.execSeGo n s
  | .seAbort n => Sys2Proof.Machine.execSeAbort n s
  | .seBusclr n => Sys2Proof.Machine.execSeBusclr n s
  | .seDataWrite n v => Sys2Proof.Machine.execSeDataWrite n v s
  | .seDataRead n => Sys2Proof.Machine.execSeDataRead n s
  | .seConfigWrite n reg v => Sys2Proof.Machine.execSeConfigWrite n reg v s
  | .seTransferEnd n r => Sys2Proof.Machine.execSeTransferEnd n r s
  | .seI2cTimeout n => Sys2Proof.Machine.execSeI2cTimeout n s
  | .seUartRxByte n b e => Sys2Proof.Machine.execSeUartRxByte n b e s
  | .seUartTxByte n => Sys2Proof.Machine.execSeUartTxByte n s
  | .adcStart v => Sys2Proof.Machine.execAdcStart v s
  | .adcSettled => Sys2Proof.Machine.execAdcSettled s
  | .adcConversionEnd volt vref => Sys2Proof.Machine.execAdcConversionEnd volt vref s
  | .adcDataRead => Sys2Proof.Machine.execAdcDataRead s
  | .tmrSync v => Sys2Proof.Machine.execTmrSync v s
  | .timerMatch n => Sys2Proof.Machine.execTimerMatch n s
  | .timerWrap n => Sys2Proof.Machine.execTimerWrap n s
  | .timerCapture n rising count => Sys2Proof.Machine.execTimerCapture n rising count s
  | .wdgStart v => Sys2Proof.Machine.execWdgStart v s
  | .wdgFeed v => Sys2Proof.Machine.execWdgFeed v s
  | .wdgReload => Sys2Proof.Machine.execWdgReload s
  | .wdgWarn => Sys2Proof.Machine.execWdgWarn s
  | .wdtExpire => Sys2Proof.Machine.execWdtExpire s
  | .debugPortAccess a => Sys2Proof.Machine.execDebugPortAccess a s
  | .registerWrite who addr v => Sys2Proof.Machine.execRegisterWrite who addr v s
  | .mtimeRateHandover => Sys2Proof.Machine.execMtimeRateHandover s
  | .networkScheduledSleep d => Sys2Proof.Machine.execNetworkScheduledSleep d s
  | .eraseSuspended plane => Sys2Proof.Machine.execEraseSuspended plane s
  | .portFrameError => Sys2Proof.Machine.execPortFrameError s
  | .sWtxAnswer wtxm => Sys2Proof.Machine.execSWtxAnswer wtxm s
  | .chainedBlock pcb f => Sys2Proof.Machine.execChainedBlock pcb f s
  | .illegalEncoding w => Sys2Proof.Machine.execIllegalEncoding w s
  | .ctsChange n level => Sys2Proof.Machine.execCtsChange n level s
  | .vioLoss => Sys2Proof.Machine.execVioLoss s
  | .vioReturn => Sys2Proof.Machine.execVioReturn s
  | .vbkupLoss => Sys2Proof.Machine.execVbkupLoss s

end Sys2Proof.Machine
end

