-- ==== Sys2Proof/Safety.lean ====
section
/-! DEFINITION. What counts as a safe state and a safe run, and the words that statements about commands are made of: a request that stands to be
served, what the firmware answers, and what a word of the application core runs under. -/

namespace Sys2Proof

/-- The RAMs are in their canonical form. -/
abbrev MemWf (s : Machine.State) : Prop := Machine.Memory.wf s.mem = true

/-- A step answers a next state: it neither faults nor is refused. -/
def Completes (s : Machine.State) : Prop := ∃ t, Machine.step s = .next t

namespace Machine

/-! ### Requests that are served (R39, R41, R44, R53) -/

/-- A request with opcode `op` and payload `p`, AUTH clear, stands in the buffer of channel `v.ch`; the running firmware serves that channel next. -/
structure Stands (op : Nat) (v : Srv) (p : List Byte) (s : State) : Prop where
  serves : firmwareServes s = true
  firmware : s.boot.stage ≠ .loader
  next : nextServed s = some v.ch
  opcode : u16 (requestOf s v.ch) 0 = op
  length : u16 (requestOf s v.ch) 4 = p.length
  flags : u16 (requestOf s v.ch) 6 = 0
  payload : slice (requestOf s v.ch) 16 p.length = p
  /-- R41: channel 0 takes the system group alone -/
  group : v.ch = 0 → bits op 8 8 = 1

/-- R41, R98: no quiesce and no background work of the opcode's unit holds a change back. -/
abbrev Unhindered (op : Nat) (s : State) : Prop :=
  (bits op 8 8 = 1 ∨ quiescing s (bits op 8 8) = false) ∧ (r41Exempt op = true ∨ unitPending s (bits op 8 8) = false)

/-- The requester behind a channel, as a command is told of it. -/
def ctxOf (op : Nat) (v : Srv) (s : State) : Ctx :=
  { op := op, req := chanOwner s v.ch, chan := v.ch, seq := u16 (requestOf s v.ch) 2, auth := none, wFail := v.wFail, shot := false }

/-- The firmware answers the request of channel `v.ch` of `s` with STATUS, DETAIL and payload, and leaves the block at `t`. -/
def replied (v : Srv) (s : State) (st det : Nat) (body : List Byte) (t : State) : Out :=
  .next (reply v.ch (response (requestOf s v.ch) st det body none) t)

/-- A command that only reports: STATUS OK with `body` of the state, and nothing else changes. -/
def Reports (i : Srv → Instr) (op : Nat) (ok : List Byte → State → Prop) (body : List Byte → State → List Byte) : Prop :=
  ∀ v p s, Stands op v p s → ok p s → exec (i v) s = replied v s 0 0 (body p (taken s)) (taken s)

/-- A command that reports and, where the octet at `k` of its payload is 1, clears what it reports. -/
def Clears (i : Srv → Instr) (op : Nat) (ok : List Byte → State → Prop) (k : Nat) (clear : List Byte → State → State)
    (body : List Byte → State → List Byte) : Prop :=
  ∀ v p s, Stands op v p s → ok p s →
    exec (i v) s = replied v s 0 0 (body p (taken s)) (if u8 p k = 1 then clear p (taken s) else taken s)

/-- A command that changes the state by `run` at once; its answer is `body` of the request, the state before and the state after. -/
def Sets (i : Srv → Instr) (op : Nat) (ok : Srv → List Byte → State → Prop) (run : Srv → List Byte → State → State)
    (body : List Byte → State → State → List Byte) : Prop :=
  ∀ v p s, Stands op v p s → Unhindered op s → ok v p s →
    exec (i v) s = replied v s 0 0 (body p (taken s) (run v p (taken s))) (run v p (taken s))

/-- As `Sets`, for a command that no quiesce and no background work holds back. -/
def Yields (i : Srv → Instr) (op : Nat) (ok : Srv → List Byte → State → Prop) (run : Srv → List Byte → State → State)
    (body : List Byte → State → State → List Byte) : Prop :=
  ∀ v p s, Stands op v p s → ok v p s → exec (i v) s = replied v s 0 0 (body p (taken s) (run v p (taken s))) (run v p (taken s))

/-- Every check of a list passes (R53 step 8). -/
abbrev Pass (l : List (Bool × Nat)) : Prop := ∀ c ∈ l, c.1 = true

/-- R287: the OPTS octet at `k` asks for no store, or the store succeeds. -/
abbrev Savable (k : Nat) (v : Srv) (p : List Byte) : Prop := u8 p k = 0 ∨ (u8 p k = 1 ∧ v.wFail = none)

/-- R287: the settings are stored where the OPTS octet at `k` is PERSIST. -/
def saved (k : Nat) (p : List Byte) (t : State) : State := if u8 p k = 1 then writeSettings t else t

/-- The pending slot `n` is held for the request (R42, R61). -/
def heldSlot (op : Nat) (v : Srv) (n : Nat) (s t : State) : State :=
  updMbx (fun m => { m with pend := m.pend ++
    [{ slot := n, op := op, chan := v.ch, req := chanOwner s v.ch, seq := u16 (requestOf s v.ch) 2, auth := none, ended := false }] }) t

/-- A command with background work: PENDING with the lowest free slot in DETAIL, the work begun by `run`. -/
def Starts (i : Srv → Instr) (op : Nat) (ok : Srv → List Byte → State → Prop) (run : Nat → Srv → List Byte → State → State)
    (body : List Byte → State → List Byte) : Prop :=
  ∀ v p s n, Stands op v p s → Unhindered op s → ok v p s → freeSlot s = some n →
    exec (i v) s = replied v s stPENDING n (body p (taken s)) (heldSlot op v n s (run n v p (taken s)))

/-! ### Requests with a trailer (R52 to R58) -/

/-- As `Stands`, with AUTH set, a right trailer and a fresh counter, from a requester that is not locked out. -/
structure StandsAuth (op : Nat) (v : Srv) (p : List Byte) (s : State) : Prop where
  serves : firmwareServes s = true
  firmware : s.boot.stage ≠ .loader
  next : nextServed s = some v.ch
  opcode : u16 (requestOf s v.ch) 0 = op
  length : u16 (requestOf s v.ch) 4 = p.length
  flags : u16 (requestOf s v.ch) 6 = 1
  payload : slice (requestOf s v.ch) 16 p.length = p
  group : v.ch = 0 → bits op 8 8 = 1
  engine : s.cipher.halt = false
  unlocked : pget s.mbx.lockout (chanOwner s v.ch) = 0
  trailer : trailerOk s (requestOf s v.ch) = true
  counter : pget s.mbx.counter (chanOwner s v.ch) < u32 (requestOf s v.ch) 8
  stored : v.ctrFail = none

/-- R53 steps 6 and 7: the failures of the requester are forgotten and its counter is stored. -/
def accepted (v : Srv) (s : State) : State :=
  let r := chanOwner s v.ch
  updMbx (fun m => { m with fails := pset m.fails r 0, counter := pset m.counter r (u32 (requestOf s v.ch) 8) })
    (maskUse (16 + u16 (requestOf s v.ch) 4) (taken s))

/-- The answer to a request with a trailer carries one, under the command key the request was checked with (R55). -/
def repliedAuth (v : Srv) (s : State) (st det : Nat) (body : List Byte) (t : State) : Out :=
  .next (reply v.ch (response (requestOf s v.ch) st det body (some (commandKey s))) t)

/-- A critical command that changes the state by `run` at once (R51); `ok` is asked of the state in which its checks passed. -/
def SetsAuth (i : Srv → Instr) (op : Nat) (ok : Srv → List Byte → State → Prop) (run : Srv → List Byte → State → State)
    (body : List Byte → State → State → List Byte) : Prop :=
  ∀ v p s, StandsAuth op v p s → Unhindered op s → ok v p (accepted v s) →
    exec (i v) s = repliedAuth v s 0 0 (body p (accepted v s) (run v p (accepted v s))) (run v p (accepted v s))

/-! ### Words of the application core (R604 to R611, R617) -/

/-- The core runs, its word can be fetched, no repeat is in progress and no load waits for the end of this word. -/
structure Plain (s : State) : Prop where
  running : s.core.run = .running
  fetched : fetchFails s = none
  once : s.core.ract = false
  settled : s.core.pendLoad = none

/-- R608: the word has ended with `v` written to `rd`. -/
def wrote (rd : Reg) (v : Word) (s : State) : State := { s with core := { s.core.put rd.toNat v with pc := s.core.pc + 4#32 } }

/-- R610: the word has ended with a load of `v` for `rd` behind it. -/
def loading (rd : Reg) (v : Word) (s : State) : State :=
  { s with core := { s.core with pendLoad := some (rd.toNat, v), pc := s.core.pc + 4#32 } }

/-- The core goes on at `a`. -/
def wentTo (a : Word) (s : State) : State := { s with core := { s.core with pc := a } }

/-- R604: the core may read an aligned `z` at `a`, and a RAM lies there. -/
abbrev ReadsRam (a : Word) (z : Size) (s : State) : Prop :=
  misaligned a.toNat z = false ∧ mpuAllows s.core s.core.mach 0 a.toNat = true ∧ (placeOf a.toNat = .ram ∨ placeOf a.toNat = .shared)

/-- R604: the core may write an aligned `z` at `a`, and a RAM of its own lies there. -/
abbrev WritesRam (a : Word) (z : Size) (s : State) : Prop :=
  misaligned a.toNat z = false ∧ mpuAllows s.core s.core.mach 1 a.toNat = true ∧ placeOf a.toNat = .ram

/-- R617: vector `n` lies in RAM, may be read at machine privilege, and holds the word address `v`. -/
abbrev Vectored (n : Nat) (v : Word) (s : State) : Prop :=
  mpuAllows s.core true 0 (vectorAddr s n).toNat = true ∧ placeOf (vectorAddr s n).toNat = .ram ∧
    unle (rdBytes s (vectorAddr s n).toNat 4) = v.toNat ∧ v ≠ 0 ∧ v.toNat % 4 = 0

/-- R613, R614, R617, R620: the core has entered at `v` in split-stack mode, the return address and ST on the hardware stack. -/
def entered (v ret : Word) (level : Option (BitVec 4)) (s : State) : State :=
  { s with core := { s.core with
    hw := { ret := ret, st := some s.core.st } :: s.core.hw, mach := true, ract := false, runi := false, pc := v, run := .running,
    ie := if level.isSome then s.core.ie else false, ilvl := level.getD s.core.ilvl } }

end Machine

end Sys2Proof
end

