-- ==== Sys2Proof/Certificates/Slice0/Obligations.lean ====
section
/-! DEFINITION. The statements for the provers. -/

section
open Sys2Proof Sys2Proof.Machine

/-! ### The block as a whole -/

/-- A step takes the front command of the queue and is its execution on the block with the queue's rest (R41 has the firmware, too, take one
command at a time). -/
def Obligations.StepTakesFront : Prop :=
  ∀ (c : Instr) (rest : List Instr) (s : State), step { s with pending := c :: rest } = exec c { s with pending := rest }

/-- The model never stops: every command completes on every state, and so does a step. With no command waiting the block goes on by itself for one
period of the slow clock: the model's choice (log 1). -/
def Obligations.EveryStepCompletes : Prop :=
  (∀ (i : Instr) (s : State), ∃ t, exec i s = .next t) ∧ (∀ s : State, Completes s) ∧ (∀ s : State, s.pending = [] → step s = .next (idle s))

/-- R39, R464, R601, R603, R654, R658, R662, R664, R667: what the spec says the block holds after reset. -/
def Obligations.ResetState : Prop :=
  State.reset.mbx.chan = List.replicate 8 .idle ∧ (∀ a, rdMem State.reset a = 0) ∧
  (∀ r, State.reset.core.get r = 0) ∧ State.reset.core.pc = 0 ∧ State.reset.core.spt = 0 ∧ State.reset.core.spm = 0 ∧
  State.reset.core.st = 6#32 ∧ State.reset.core.rpc = 0 ∧ State.reset.core.faddr = 0 ∧ State.reset.core.fcause = 0 ∧ State.reset.core.hw = [] ∧
  State.reset.core.ien = 0 ∧ State.reset.core.mpuCtl = 0 ∧ State.reset.core.ipri = List.replicate 64 0 ∧
  State.reset.se0.ctl = 0 ∧ State.reset.se1.tx = [] ∧ State.reset.adc.fifo = [] ∧ (∀ n < 4, (tmrOf State.reset n).ctl = 0) ∧
  State.reset.wdg.en = false ∧ State.reset.wdg.load = 0x20000 ∧ State.reset.pending = []

/-- The RAMs are in their canonical form after reset. -/
def Obligations.ResetMemWf : Prop := MemWf State.reset

/-- Every step keeps the RAMs in their canonical form, whichever command it takes. -/
def Obligations.StepKeepsMemWf : Prop := ∀ s t : State, MemWf s → step s = .next t → MemWf t

/-! ### The mailbox -/

/-- R39: the states of a channel: what enters each, and what a late ring and a stranger's access set. -/
def Obligations.ChannelStates : Prop :=
  State.reset.mbx.chan = List.replicate 8 .idle ∧
  (∀ (who : Who) (n : Nat) (s : State),
    n < 6 → mayAccess s who = true → chanOwner s n = whoReq who → at_ .idle s.mbx.chan n = .idle →
    exec (.doorbell who (BitVec.ofNat 32 (2 ^ n))) s = .next (latchSet 8
      { s with mbx := { s.mbx with chan := s.mbx.chan.set n .busy }, pwr := { s.pwr with hostDepth := if who = .host then .none else s.pwr.hostDepth } })) ∧
  (∀ (who : Who) (n : Nat) (s : State),
    n < 6 → mayAccess s who = true → chanOwner s n = whoReq who → at_ .idle s.mbx.chan n ≠ .idle →
    exec (.doorbell who (BitVec.ofNat 32 (2 ^ n))) s = .next { s with mbx := { s.mbx with dblate := setBit s.mbx.dblate n true } }) ∧
  (∀ (who : Who) (n : Nat) (s : State),
    n < 6 → mayAccess s who = true → chanOwner s n ≠ whoReq who →
    exec (.doorbell who (BitVec.ofNat 32 (2 ^ n))) s = .next { s with mbx := { s.mbx with notown := setBit s.mbx.notown n true } }) ∧
  (∀ (who : Who) (n : Nat) (s : State),
    n < 8 → mayAccess s who = true → chanOwner s n = whoReq who → at_ .idle s.mbx.chan n = .done → s.pwr.hostWait = none →
    exec (.mbxAck who (BitVec.ofNat 32 (2 ^ n))) s = .next { s with mbx := { s.mbx with chan := s.mbx.chan.set n .idle } }) ∧
  (∀ (who : Who) (n : Nat) (s : State),
    n < 8 → mayAccess s who = true → chanOwner s n ≠ whoReq who →
    exec (.mbxAck who (BitVec.ofNat 32 (2 ^ n))) s = .next { s with mbx := { s.mbx with notown := setBit s.mbx.notown n true } }) ∧
  (∀ (who : Who) (n : Nat) (s : State),
    n < 8 → mayAccess s who = true → chanOwner s n = whoReq who → at_ .idle s.mbx.chan n ≠ .done →
    exec (.mbxAck who (BitVec.ofNat 32 (2 ^ n))) s = .next s) ∧
  (∀ (n : Nat) (m : List Byte) (s : State),
    n < s.mbx.chan.length →
    at_ .idle (reply n m s).mbx.chan n = .done ∧ (reply n m s).mem = wrTab s.mem (rspBuf n) m ∧
      ∀ k, k ≠ n → at_ .idle (reply n m s).mbx.chan k = at_ .idle s.mbx.chan k)

/-- R40: the request buffer of a BUSY channel takes no write, from whichever master and of whichever width; a write only sets REQWR. While a channel is
not BUSY, DONE among that, no row of the firmware writes its response buffer. -/
def Obligations.BusyRequestStands : Prop :=
  (∀ (n o : Nat) (z : Size) (v : Word) (s : State),
    n < 8 → o < 0x100 → o % sizeBytes z = 0 → mayAccess s .app = true → at_ .idle s.mbx.chan n = .busy →
    exec (.requestBufferWrite .app (reqBuf n + o) z v) s = .next { s with mbx := { s.mbx with reqwr := setBit s.mbx.reqwr n true } }) ∧
  (∀ (n i : Nat) (v : Word) (s : State),
    n < 8 → i < 64 → mayAccess s .host = true → chanOwner s n = .host → at_ .idle s.mbx.chan n = .busy →
    exec (.requestBufferWrite .host (reqBuf n + 4 * i) .w v) s = .next { s with mbx := { s.mbx with reqwr := setBit s.mbx.reqwr n true } }) ∧
  (∀ (n i : Nat) (a b c d : Byte) (s : State),
    n < 6 → i < 64 → mayAccess s .host = true → s.hostp.cs = false → chanOwner s n = .host → at_ .idle s.mbx.chan n = .busy →
    exec (.hostWriteTransaction (0x40#8 :: be 3 (0x200 * n + 4 * i) ++ [a, b, c, d]) false) s = .next { s with
      mbx := { s.mbx with reqwr := setBit s.mbx.reqwr n true },
      hostp := { s.hostp with err := false, sdo := [BitVec.ofNat 8 (hostStatus s), 0, 0, 0] } }) ∧
  (∀ (rs ra : Reg) (imm : BitVec 17) (n o : Nat) (s : State),
    Plain s → n < 8 → o < 0x100 → at_ .idle s.mbx.chan n = .busy → (greg s ra + imm.signExtend 32).toNat = reqBuf n + o →
    mpuAllows s.core s.core.mach 1 (greg s ra + imm.signExtend 32).toNat = true →
    exec (.stB rs ra imm) s = .next (wentTo (s.core.pc + 4#32) { s with mbx := { s.mbx with reqwr := setBit s.mbx.reqwr n true } })) ∧
  (∀ (i : Srv → Instr) (op : Nat) (core : CoreFn) (v : Srv) (s : State),
    (∀ v s, exec (i v) s = .next (serve op core v s)) → at_ .idle s.mbx.chan v.ch ≠ .busy → exec (i v) s = .next s) ∧
  (∀ (n : Nat) (s : State),
    at_ .idle s.mbx.chan n = .done → exec (.eventWrite n) s = .next s)

/-- R41, R45, R46, R48, R51 to R58, R533: the checks of a request in their order, each with its status and DETAIL, for every row that the firmware serves. -/
def Obligations.RequestChecks : Prop :=
  let served (i : Srv → Instr) (op : Nat) (core : CoreFn) : Prop := ∀ v s, exec (i v) s = .next (serve op core v s)
  let rung (v : Srv) (s : State) : Prop := firmwareServes s = true ∧ nextServed s = some v.ch
  let framed (op : Nat) (c : Cmd) (v : Srv) (s : State) : Prop :=
    u16 (requestOf s v.ch) 0 = op ∧ cmdOf op = some c ∧ (v.ch = 0 → bits op 8 8 = 1)
  let fits (c : Cmd) (v : Srv) (s : State) : Prop :=
    c.len.ok (u16 (requestOf s v.ch) 4) (slice (requestOf s v.ch) 16 (u16 (requestOf s v.ch) 4)) = true ∧
      u16 (requestOf s v.ch) 4 ≤ (if u16 (requestOf s v.ch) 6 = 1 then 232 else 240)
  (∀ (i : Srv → Instr) (op : Nat) (core : CoreFn) (v : Srv) (s : State),
    served i op core → (firmwareServes s = false ∨ nextServed s ≠ some v.ch) → exec (i v) s = .next s) ∧
  (∀ (i : Srv → Instr) (op : Nat) (core : CoreFn) (v : Srv) (s : State),
    served i op core → rung v s → cmdOf (u16 (requestOf s v.ch) 0) = none → exec (i v) s = replied v s 0x0101 0 [] (taken s)) ∧
  (∀ (i : Srv → Instr) (op : Nat) (core : CoreFn) (c : Cmd) (v : Srv) (s : State),
    served i op core → rung v s → u16 (requestOf s v.ch) 0 = op → cmdOf op = some c → v.ch = 0 → bits op 8 8 ≠ 1 →
    exec (i v) s = replied v s 0x0103 0 [] (taken s)) ∧
  (∀ (i : Srv → Instr) (op : Nat) (core : CoreFn) (c : Cmd) (v : Srv) (s : State),
    served i op core → rung v s → framed op c v s → 1 < u16 (requestOf s v.ch) 6 → exec (i v) s = replied v s 0x0103 6 [] (taken s)) ∧
  (∀ (i : Srv → Instr) (op : Nat) (core : CoreFn) (c : Cmd) (v : Srv) (s : State),
    served i op core → rung v s → framed op c v s → u16 (requestOf s v.ch) 6 ≤ 1 → ¬ fits c v s →
    exec (i v) s = replied v s 0x0102 c.len.expect [] (taken s)) ∧
  (∀ (i : Srv → Instr) (op : Nat) (core : CoreFn) (c : Cmd) (v : Srv) (s : State),
    served i op core → rung v s → framed op c v s → u16 (requestOf s v.ch) 6 = 0 → fits c v s → c.critical = true →
    exec (i v) s = replied v s 0x0201 0 [] (taken s)) ∧
  (∀ (i : Srv → Instr) (op : Nat) (core : CoreFn) (c : Cmd) (v : Srv) (s : State),
    served i op core → rung v s → framed op c v s → u16 (requestOf s v.ch) 6 = 1 → fits c v s → s.cipher.halt = false →
    0 < pget s.mbx.lockout (chanOwner s v.ch) → exec (i v) s = replied v s 0x0203 1 [] (taken s)) ∧
  (∀ (i : Srv → Instr) (op : Nat) (core : CoreFn) (c : Cmd) (v : Srv) (s : State),
    served i op core → rung v s → framed op c v s → u16 (requestOf s v.ch) 6 = 1 → fits c v s → s.cipher.halt = false →
    pget s.mbx.lockout (chanOwner s v.ch) = 0 → trailerOk s (requestOf s v.ch) = false → pget s.mbx.fails (chanOwner s v.ch) < 7 →
    exec (i v) s = replied v s 0x0201 0 [] (updMbx (fun m => { m with
      fails := pset m.fails (chanOwner s v.ch) (pget m.fails (chanOwner s v.ch) + 1) }) (maskUse (16 + u16 (requestOf s v.ch) 4) (taken s)))) ∧
  (∀ (i : Srv → Instr) (op : Nat) (core : CoreFn) (c : Cmd) (v : Srv) (s : State),
    served i op core → rung v s → framed op c v s → u16 (requestOf s v.ch) 6 = 1 → fits c v s → s.cipher.halt = false →
    pget s.mbx.lockout (chanOwner s v.ch) = 0 → trailerOk s (requestOf s v.ch) = false → pget s.mbx.fails (chanOwner s v.ch) = 7 →
    exec (i v) s = replied v s 0x0201 0 [] (updMbx (fun m => { m with
      fails := pset m.fails (chanOwner s v.ch) 8, lockout := pset m.lockout (chanOwner s v.ch) (60 * 32768) })
      (maskUse (16 + u16 (requestOf s v.ch) 4) (taken s)))) ∧
  (∀ (i : Srv → Instr) (op : Nat) (core : CoreFn) (c : Cmd) (v : Srv) (s : State),
    served i op core → rung v s → framed op c v s → u16 (requestOf s v.ch) 6 = 1 → fits c v s → s.cipher.halt = false →
    pget s.mbx.lockout (chanOwner s v.ch) = 0 → trailerOk s (requestOf s v.ch) = true →
    u32 (requestOf s v.ch) 8 ≤ pget s.mbx.counter (chanOwner s v.ch) →
    exec (i v) s = replied v s 0x0202 0 [] (updMbx (fun m => { m with fails := pset m.fails (chanOwner s v.ch) 0 })
      (maskUse (16 + u16 (requestOf s v.ch) 4) (taken s)))) ∧
  (∀ (i : Srv → Instr) (op : Nat) (core : CoreFn) (c : Cmd) (b : Nat) (v : Srv) (s : State),
    served i op core → rung v s → framed op c v s → u16 (requestOf s v.ch) 6 = 1 → fits c v s → s.cipher.halt = false →
    pget s.mbx.lockout (chanOwner s v.ch) = 0 → trailerOk s (requestOf s v.ch) = true →
    pget s.mbx.counter (chanOwner s v.ch) < u32 (requestOf s v.ch) 8 → v.ctrFail = some b →
    exec (i v) s = repliedAuth v s 0x0502 (b % 65536) [] (updMbx (fun m => { m with fails := pset m.fails (chanOwner s v.ch) 0 })
      (maskUse (16 + u16 (requestOf s v.ch) 4) (taken s)))) ∧
  (∀ (i : Srv → Instr) (op : Nat) (core : CoreFn) (c : Cmd) (v : Srv) (s : State),
    served i op core → rung v s → framed op c v s → u16 (requestOf s v.ch) 6 = 0 → fits c v s → c.critical = false → s.boot.stage = .loader →
    loaderServes op = false → exec (i v) s = replied v s 0x0106 5 [] (taken s))

/-- R37, R39, R44, R47: a response reads back from its channel's buffer with the fields of its header, and no other byte of RAM changes. -/
def Obligations.ResponseReadsBack : Prop :=
  ∀ (v : Srv) (st det : Nat) (body : List Byte) (s t u : State),
    MemWf t → body.length ≤ 240 → replied v s st det body t = .next u →
    rdBytes u (rspBuf v.ch) (16 + body.length) = response (requestOf s v.ch) st det body none ∧
    u16 (rdBytes u (rspBuf v.ch) 16) 0 = u16 (requestOf s v.ch) 0 ∧ u16 (rdBytes u (rspBuf v.ch) 16) 2 = u16 (requestOf s v.ch) 2 ∧
    u16 (rdBytes u (rspBuf v.ch) 16) 4 = body.length ∧ u16 (rdBytes u (rspBuf v.ch) 16) 6 = 2 ∧
    u32 (rdBytes u (rspBuf v.ch) 16) 8 = u32 (requestOf s v.ch) 8 ∧ u16 (rdBytes u (rspBuf v.ch) 16) 12 = st % 65536 ∧
    u16 (rdBytes u (rspBuf v.ch) 16) 14 = det % 65536 ∧
    ∀ a, (a < rspBuf v.ch ∨ rspBuf v.ch + 16 + body.length ≤ a) → rdMem u a = rdMem t a
/-! ### Commands that report (chapters 02 to 19) -/

/-- R66, R68, R73, R57, R65, R110, R161, R149 to R154: the reports of the system group and of the radio change nothing but the DOORBELL latch. -/
def Obligations.ReportsOfSystemAndRadio : Prop :=
  Reports .sysInfo 0x0100 (fun p _ => p.length = 0) (fun _ t =>
    le 2 t.dev.stepping ++ le 4 t.dev.fwVersion ++ le 4 t.dev.loaderVersion ++ le 2 t.dev.settingsFormat ++ slice t.dev.eui64 0 8 ++
    le 1 (modeCode t.pwr.mode) ++ le 1 t.pwr.allowed.toNat ++ le 1 t.boot.causeNet ++ le 1 t.boot.debug ++ le 1 (optionCopy t) ++ le 3 0 ++ le 8 t.clk.mtime) ∧
  Reports .sysCaps 0x0101 (fun p _ => p.length = 0) (fun _ t =>
    le 4 (Config.devcap t.dev.variant).toNat ++ le 4 (Config.neighbours t.dev.variant) ++ le 4 (Config.routeRanges t.dev.variant) ++
    le 4 (Config.queues t.dev.variant) ++ le 4 (Config.cells t.dev.variant) ++ le 4 (Config.framesInFlight t.dev.variant) ++ le 4 (Config.flashKib t.dev.variant)) ∧
  Reports .modeGet 0x0111 (fun p _ => p.length = 0) (fun _ t => le 1 (modeCode t.pwr.mode) ++ le 1 t.pwr.allowed.toNat ++ le 2 0) ∧
  Reports .optionRead 0x0130 (fun p _ => p.length = 4 ∧ 1 ≤ u16 p 2 ∧ u16 p 2 ≤ 232 ∧ u16 p 0 + u16 p 2 ≤ 4096)
    (fun p t => le 1 (optionCopy t) ++ le 3 0 ++ optBytes t.boot.opt (u16 p 0) (u16 p 2)) ∧
  Reports .cmdCounterGet 0x0140 (fun p _ => p.length = 0) (fun _ t => counterRec t .app ++ counterRec t .host ++ counterRec t .port) ∧
  Reports .eventFilterGet 0x0151 (fun p _ => p.length = 4 ∧ (u8 p 0 = 6 ∨ u8 p 0 = 7) ∧ zeros p 1 3) (fun p t => le 2 (evq t (u8 p 0 == 7)).mask) ∧
  Reports .shotStatus 0x0184 (fun p _ => p.length = 0) (fun _ t => (List.range 4).flatMap (shotRec t)) ∧
  Reports .radioStateGet 0x0200 (fun p _ => p.length = 0) (fun _ t => radioRec t) ∧
  Reports .radioTuneGet 0x0202 (fun p _ => p.length = 0) (fun _ t => tuneRec t) ∧
  Reports .radioPaGet 0x0204 (fun p _ => p.length = 0) (fun _ t => paRec t) ∧
  Reports .radioCompGet 0x0206 (fun p _ => p.length = 0) (fun _ t => compRec t) ∧
  Reports .radioDivGet 0x0208 (fun p _ => p.length = 0) (fun _ t => divRec t.radio.div) ∧
  Reports .radioExtGet 0x020A (fun p _ => p.length = 0) (fun _ t => extRec t.radio.ext)

/-- R183, R185, R215, R221, R244, R247: the reports of the lanes, the PHY and the canary. -/
def Obligations.ReportsOfLanesAndCanary : Prop :=
  Reports .laneStateGet 0x0300 (fun p _ => p.length = 0) (fun _ t => laneStateRec t) ∧
  Reports .laneGet 0x0302 (fun p s => p.length = 4 ∧ u8 p 0 < laneCount s ∧ zeros p 1 3) (fun p t => laneRec t (u8 p 0)) ∧
  Reports .phyProfileGet 0x0321 (fun p _ => p.length = 4 ∧ u8 p 0 ≤ 15 ∧ zeros p 1 3) (fun p t => profileRec t (u8 p 0)) ∧
  Reports .phyQualityGet 0x0322 (fun p s => p.length = 4 ∧ u8 p 0 < laneCount s ∧ 1 ≤ u8 p 1 ∧ u8 p 1 ≤ 7 ∧ zeros p 2 2)
    (fun p t => le 1 (u8 p 0) ++ le 1 ((laneOf t (u8 p 0)).quality.take (u8 p 1)).length ++ le 2 0 ++
      ((laneOf t (u8 p 0)).quality.take (u8 p 1)).flatMap qualityRec) ∧
  Reports .canaryStateGet 0x0400 (fun p _ => p.length = 0) (fun _ t => canaryRec t) ∧
  Reports .canaryGet 0x0402 (fun p _ => p.length = 0) (fun _ t => canaryCfgRec t)

/-- R287 to R295, R321 to R329: the reports of the link and of mesh timing. -/
def Obligations.ReportsOfLinkAndTiming : Prop :=
  Reports .linkStateGet 0x0500 (fun p _ => p.length = 0) (fun _ t => linkRec t) ∧
  Reports .linkCfgGet 0x0502 (fun p _ => p.length = 0) (fun _ t => linkCfgRec t.link.cfg) ∧
  Reports .nbrGet 0x0511 (fun p s => p.length = 4 ∧ u16 p 0 < nbrCount s ∧ 1 ≤ u8 p 2 ∧ u8 p 2 ≤ 3 ∧ zeros p 3 1)
    (fun p t => le 2 (u16 p 0) ++ le 1 (min (u8 p 2) (nbrCount t - u16 p 0)) ++ le 1 0 ++
      (List.range (min (u8 p 2) (nbrCount t - u16 p 0))).flatMap (fun j => nbrBytes (nbrOf t (u16 p 0 + j)))) ∧
  Reports .nbrFind 0x0512 (fun p _ => p.length = 12 ∧ u8 p 0 ≤ 1 ∧ zeros p 1 3 ∧ (u8 p 0 = 1 ∨ (u32 p 4 < 2 ^ 25 ∧ zeros p 8 4)))
    (fun p t => le 2 ((if u8 p 0 = 1 then findEui t (slice p 4 8) else findShort t (u32 p 4)).getD 0xFFFF) ++ le 2 0) ∧
  Reports .routeGet 0x0521 (fun p s => p.length = 4 ∧ (u16 p 0 = 0xFFFF ∨ u16 p 0 < Config.routeRanges s.dev.variant) ∧ zeros p 2 2)
    (fun p t => routeRec t (u16 p 0)) ∧
  Reports .routeLookup 0x0522 (fun p _ => p.length = 4 ∧ u32 p 0 < 2 ^ 25)
    (fun p t =>
      let out (kind index hop limit : Nat) : List Byte := le 1 kind ++ le 1 0 ++ le 2 index ++ le 2 hop ++ le 1 limit ++ le 1 0
      if !assignable (u32 p 0) then out 4 0 0 0
      else match lookup t (u32 p 0) with
        | .isLocal => out 0 0 0 0
        | .range i r => out 1 i r.nextHop r.hopLimit
        | .parent r => out 2 0xFFFF r.nextHop r.hopLimit
        | .unrouted => out 3 0 0 0) ∧
  Reports .timingStateGet 0x0600 (fun p _ => p.length = 0) (fun _ t => timingRec t) ∧
  Reports .timingCfgGet 0x0602 (fun p _ => p.length = 0) (fun _ t => timingCfgRec t) ∧
  Reports .timingChseqGet 0x0604 (fun p _ => p.length = 4 ∧ 1 ≤ u8 p 0 ∧ u8 p 0 ≤ 15 ∧ zeros p 1 3) (fun p t => chseqRec t (u8 p 0)) ∧
  Reports .timingNbrGet 0x0608 (fun p s => p.length = 4 ∧ u16 p 0 < nbrCount s ∧ zeros p 2 2) (fun p t => timingNbrRec t (u16 p 0))

/-- R347 to R352, R373 to R378, R400 to R404: the reports of the tally, the queues and the scheduler. -/
def Obligations.ReportsOfTallyQueuesAndScheduler : Prop :=
  Reports .tallyCfgGet 0x0701 (fun p _ => p.length = 0) (fun _ t => tallyCfgRec t) ∧
  Reports .tallyBandGet 0x0703 (fun p _ => p.length = 4 ∧ u8 p 0 ≤ 15 ∧ zeros p 1 3) (fun p t => bandRec t (u8 p 0)) ∧
  Reports .tallyUsageGet 0x0710 (fun p _ => p.length = 4 ∧ u8 p 0 ≤ 15 ∧ zeros p 1 3) (fun p t => usageRec t (u8 p 0)) ∧
  Reports .tallyCheck 0x0711 (fun p _ => p.length = 12 ∧ u8 p 8 ≤ 1 ∧ zeros p 9 3) (fun p t => checkRec t (u32 p 0) (u32 p 4) (u8 p 8 == 1)) ∧
  Reports .qmStateGet 0x0800 (fun p _ => p.length = 0) (fun _ t => qmStateRec t) ∧
  Reports .queueGet 0x0802 (fun p s => p.length = 4 ∧ queuePresent s (u16 p 0) ∧ zeros p 2 2) (fun p t => queueRec t (u16 p 0)) ∧
  Reports .queueStatusGet 0x0803 (fun p s => p.length = 4 ∧ queuePresent s (u16 p 0) ∧ zeros p 2 2) (fun p t => queueStatusRec t (u16 p 0)) ∧
  Reports .qmCfgGet 0x0805 (fun p _ => p.length = 0) (fun _ t => qmCfgRec t) ∧
  Reports .schedStateGet 0x0900 (fun p _ => p.length = 0) (fun _ t => schedRec t) ∧
  Reports .flowGet 0x0902 (fun p _ => p.length = 4 ∧ u16 p 0 ≤ 255 ∧ zeros p 2 2) (fun p t => flowRec t (u16 p 0)) ∧
  Reports .flowStateGet 0x0903 (fun p _ => p.length = 4 ∧ u16 p 0 ≤ 255 ∧ zeros p 2 2) (fun p t => flowStateRec t (u16 p 0)) ∧
  Reports .shaperGet 0x0905 (fun p _ => p.length = 4 ∧ u8 p 0 ≤ 127 ∧ zeros p 1 3) (fun p t => shaperRec t (u8 p 0))

/-- R433, R469, R513, R541, R562, R593: the reports of the key store, the power manager, the flash, the update, the RTC and the port. -/
def Obligations.ReportsOfStoreAndPort : Prop :=
  Reports .cipherStateGet 0x0A00 (fun p _ => p.length = 0) (fun _ t => cipherRec t) ∧
  Reports .keyInfoGet 0x0A01 (fun p _ => p.length = 4 ∧ u8 p 0 ≤ 63 ∧ 1 ≤ u8 p 1 ∧ u8 p 1 ≤ 11 ∧ u8 p 0 + u8 p 1 ≤ 64 ∧ zeros p 2 2)
    (fun p t => le 1 (u8 p 1) ++ le 3 0 ++ (List.range (u8 p 1)).flatMap (fun i => keyRec t (u8 p 0 + i))) ∧
  Reports .pwrCfgGet 0x0F02 (fun p _ => p.length = 0) (fun _ t => pwrCfgRec t) ∧
  Reports .flashStateGet 0x0B00 (fun p _ => p.length = 0) (fun _ t => flashRec t) ∧
  Reports .flashBlockGet 0x0B13 (fun p s => p.length = 4 ∧ 1 ≤ u8 p 2 ∧ u8 p 2 ≤ 32 ∧ u16 p 0 + u8 p 2 ≤ blockCount s ∧ zeros p 3 1)
    (fun p t => le 2 (u16 p 0) ++ le 1 (u8 p 2) ++ le 1 0 ++
      (List.range (u8 p 2)).flatMap (fun i => le 4 (ecntOf t (u16 p 0 + i) + 2 ^ 24 * blockState t (u16 p 0 + i)))) ∧
  Reports .updateStateGet 0x0C00 (fun p _ => p.length = 0) (fun _ t => updateRec t) ∧
  Reports .rtcStateGet 0x0D00 (fun p _ => p.length = 0) (fun _ t => rtcStateRec t) ∧
  Reports .rtcTimeGet 0x0D01 (fun p _ => p.length = 0) (fun _ t => timeRec t) ∧
  Reports .rtcAlarmGet 0x0D04 (fun p _ => p.length = 4 ∧ u8 p 0 ≤ 1 ∧ zeros p 1 3) (fun p t => alarmRec t (u8 p 0)) ∧
  Reports .portCfgGet 0x0E02 (fun p s => p.length = 0 ∧ s.port.lock ≠ .app ∧ s.port.lock ≠ .field) (fun _ t => portCfgRec t) ∧
  Reports .portPwGet 0x0E22 (fun p s => p.length = 4 ∧ u8 p 0 ≤ 3 ∧ zeros p 1 3 ∧ s.port.lock ≠ .app ∧ s.port.lock ≠ .field) (fun p t => pwRec t (u8 p 0)) ∧
  Reports .portMemRead 0x0E10 (fun p s => p.length = 4 ∧ 8 ≤ u8 p 0 ∧ 1 ≤ u8 p 1 ∧ u8 p 1 ≤ 7 ∧ u8 p 0 + u8 p 1 ≤ 256 ∧ zeros p 2 2 ∧
      s.port.grantCfg ≠ 1 ∧ s.port.lock ≠ .app ∧ s.port.lock ≠ .field) (fun p t => portBytes t (32 * u8 p 0) (32 * u8 p 1)) ∧
  Reports .portCredGet 0x0E30 (fun p s => p.length = 0 ∧ s.port.grantCfg ≠ 1 ∧ s.port.lock ≠ .app ∧ s.port.lock ≠ .field)
    (fun _ t => slice (portBlock t 8) 0 16 ++ credData t)

/-- R158, R185, R223, R247, R295, R328, R352, R378, R404, R439, R473, R519, R598: the counters are answered as they stand, and cleared where
the request says so. -/
def Obligations.CountersReadAndClear : Prop :=
  Clears .radioStatsGet 0x0218 (fun p _ => p.length = 4 ∧ u8 p 0 ≤ 1 ∧ zeros p 1 3) 0
    (fun _ t => updRadio (fun r => { r with stats := .zero, clampArm := true }) t) (fun _ t => radioStatsRec t.radio.stats) ∧
  Clears .laneStatsGet 0x0310 (fun p s => p.length = 4 ∧ u8 p 0 < laneCount s ∧ u8 p 1 ≤ 1 ∧ zeros p 2 2) 1
    (fun p t => updLanes (fun l => { l with agcA := { l.agcA with clip := 0, forced := 0 }, agcB := { l.agcB with clip := 0, forced := 0 } })
      (updLane (u8 p 0) (fun l => { l with stats :=
        { LaneStats.zero with modesw := (laneOf t (u8 p 0)).stats.modesw, fcs2 := (laneOf t (u8 p 0)).stats.fcs2,
                              badRate := (laneOf t (u8 p 0)).stats.badRate, seamVer := (laneOf t (u8 p 0)).stats.seamVer,
                              trackLost := (laneOf t (u8 p 0)).stats.trackLost, eqResets := (laneOf t (u8 p 0)).stats.eqResets } }) t))
    (fun p t => le 1 (u8 p 0) ++ le 3 0 ++ laneStatsBytes (laneOf t (u8 p 0)).stats) ∧
  Clears .phyStatsGet 0x0323 (fun p s => p.length = 4 ∧ u8 p 0 < laneCount s ∧ u8 p 1 ≤ 1 ∧ zeros p 2 2) 1
    (fun p t => updLane (u8 p 0) (fun l => { l with stats :=
      { (laneOf t (u8 p 0)).stats with modesw := 0, fcs2 := 0, badRate := 0, seamVer := 0, trackLost := 0, eqResets := 0 } }) t)
    (fun p t => le 1 (u8 p 0) ++ le 3 0 ++ phyStatsBytes (laneOf t (u8 p 0)).stats) ∧
  Clears .canaryStatsGet 0x0418 (fun p _ => p.length = 4 ∧ u8 p 0 ≤ 1 ∧ zeros p 1 3) 0
    (fun _ t => canaryStat (fun _ => .zero) t) (fun _ t => canaryStatsRec t.canary.stats) ∧
  Clears .linkStatsGet 0x0540 (fun p _ => p.length = 4 ∧ u8 p 0 ≤ 1 ∧ zeros p 1 3) 0
    (fun _ t => linkStat (fun _ => .zero) t) (fun _ t => linkStatsRec t.link.stats) ∧
  Clears .timingStatsGet 0x0630 (fun p _ => p.length = 4 ∧ u8 p 0 ≤ 1 ∧ zeros p 1 3) 0
    (fun _ t => timingStat (fun _ => .zero) t) (fun _ t => timingStatsRec t.timing.stats) ∧
  Clears .tallyStatsGet 0x0718 (fun p _ => p.length = 4 ∧ u8 p 0 ≤ 15 ∧ u8 p 1 ≤ 1 ∧ zeros p 2 2) 1
    (fun p t => updBand (u8 p 0) (fun b => { b with refused := 0, ackDenied := 0, lbtBusy := 0, lbtGiveup := 0 }) t)
    (fun p t => le 1 (u8 p 0) ++ le 3 0 ++ bandStats t (u8 p 0)) ∧
  Clears .tallyStatsGet 0x0718 (fun p _ => p.length = 4 ∧ u8 p 0 = 0xFF ∧ u8 p 1 ≤ 1 ∧ zeros p 2 2) 1
    (fun _ t => updTally (fun x => { x with outsideRefused := 0, outsideSent := 0, cutShort := 0 }) t)
    (fun _ t => le 1 0xFF ++ le 3 0 ++ nodeStats t) ∧
  Clears .qmStatsGet 0x0818 (fun p _ => p.length = 4 ∧ u8 p 0 ≤ 1 ∧ zeros p 1 3) 0 (fun _ t => qmClear t) (fun _ t => qmStatsBytes t.qm.stats) ∧
  Clears .schedStatsGet 0x0910 (fun p _ => p.length = 4 ∧ u8 p 0 ≤ 1 ∧ zeros p 1 3) 0
    (fun _ t => schedStat (fun _ => .zero) t) (fun _ t => schedStatsRec t.sched.stats) ∧
  Clears .cipherStatsGet 0x0A30 (fun p _ => p.length = 4 ∧ u8 p 0 ≤ 1 ∧ zeros p 1 3) 0
    (fun _ t => cipherStat (fun _ => .zero) t) (fun _ t => cipherStatsRec t.cipher.stats) ∧
  Clears .pwrStateGet 0x0F00 (fun p _ => p.length = 4 ∧ u8 p 0 ≤ 1 ∧ zeros p 1 3) 0 (fun _ t => acctClear t) (fun _ t => pwrStateRec t) ∧
  Clears .flashStatsGet 0x0B18 (fun p _ => p.length = 4 ∧ u8 p 0 ≤ 1 ∧ zeros p 1 3) 0
    (fun _ t => updFlash (fun f =>
      { f with programs := 0, programBytes := 0, erases := 0, suspends := 0, refused := 0, unrelReads := 0, rotations := 0, ce := 0, ue := 0 }) t)
    (fun _ t => flashStatsRec t) ∧
  Clears .portStateGet 0x0E00 (fun p _ => p.length = 4 ∧ u8 p 0 ≤ 1 ∧ zeros p 1 3) 0
    (fun _ t => updPort (fun x => { x with sessions := 0, blockWrites := 0, verifyFail := 0, wtxSent := 0, wtxGiveup := 0, tears := 0 }) t)
    (fun _ t => portStateRec t)
/-! ### Commands that change the block (chapters 02 to 19) -/

/-- R69 to R72, R441 to R448: MODE_SET by the class of the mode in force and of the mode asked for: none, at once, by way of a drain, into
SERVICE and out of it. -/
def Obligations.ModeSet : Prop :=
  let asked (m : Mode) (p : List Byte) (s : State) : Prop :=
    p.length = 4 ∧ u8 p 0 = modeCode m ∧ zeros p 1 3 ∧ (m = .wide → s.dev.variant ≠ .face) ∧ bit s.pwr.allowed (modeCode m) = true ∧
      s.pwr.drain = none ∧ s.pwr.changing = false
  let linked (m : Mode) : Prop := m = .leaf ∨ m = .relay ∨ m = .wide
  ∀ m : Mode,
    Sets .modeSet 0x0110 (fun _ p s => asked m p s ∧ s.pwr.mode = m) (fun _ _ t => t) (fun _ _ _ => modeRec m m) ∧
    Sets .modeSet 0x0110 (fun _ p s => asked m p s ∧ s.pwr.mode ≠ m ∧ linked s.pwr.mode ∧ linked m)
      (fun _ _ t => enterMode m t) (fun _ t _ => modeRec t.pwr.mode m) ∧
    Starts .modeSet 0x0110 (fun _ p s => asked m p s ∧ linked s.pwr.mode ∧ ¬ linked m)
      (fun n _ _ t => updTiming (fun x => { x with window := if exchange t then x.window else none })
        (updPwr (fun q => { q with drain := some { target := m, slot := n } }) t)) (fun _ _ => []) ∧
    Sets .modeSet 0x0110 (fun _ p s => asked m p s ∧ m = .service ∧ (s.pwr.mode = .shelf ∨ s.pwr.mode = .watch))
      (fun _ _ t => intoService t) (fun _ t _ => modeRec t.pwr.mode .service) ∧
    Sets .modeSet 0x0110 (fun _ p s => asked m p s ∧ m ≠ .service ∧ s.pwr.mode = .service)
      (fun _ _ t => outOfService m t) (fun _ _ _ => modeRec .service m) ∧
    Sets .modeSet 0x0110 (fun _ p s => asked m p s ∧ m ≠ .service ∧ s.pwr.mode ≠ m ∧ (s.pwr.mode = .shelf ∨ s.pwr.mode = .watch))
      (fun _ _ t => enterMode m t) (fun _ t _ => modeRec t.pwr.mode m)

/-- R65, R68, R76, R453: the event filter, a requested reset, a survey that starts, and the sleep an external host asks for.
R114, R149 to R154: each setting of the radio front end takes the place of the old one, and its answer reads it back. -/
def Obligations.SystemAndRadioSettings : Prop :=
  Sets .eventFilterSet 0x0150 (fun _ p _ => p.length = 4 ∧ (u8 p 0 = 6 ∨ u8 p 0 = 7) ∧ zeros p 1 1 ∧ u16 p 2 % 2 = 0)
    (fun _ p t => setEvq t (u8 p 0 == 7) { evq t (u8 p 0 == 7) with mask := u16 p 2 ||| 2 }) (fun p _ _ => le 2 (u16 p 2 ||| 2)) ∧
  Sets .sysReset 0x0103 (fun _ p _ => p.length = 4 ∧ u8 p 0 ≤ 1 ∧ zeros p 1 3)
    (fun _ p t => updBoot (fun b => { b with delayed := some (if u8 p 0 = 0 then .sys else .ldr) }) t) (fun _ _ _ => []) ∧
  Sets .survey 0x0102
    (fun _ p s => p.length = 8 ∧ u16 p 0 ≤ 1 ∧ u16 p 2 ≤ 5000 ∧ u32 p 4 < 65536 ∧ u32 p 4 % 2 = 0 ∧ s.mbx.survey = none ∧
      s.shots.buf.any (fun b => b.state == .quiescing) = false)
    (fun v p t =>
      let us := if u32 p 4 = 0 then List.range' 1 15 else maskUnits (u32 p 4)
      updMbx (fun m => { m with
        surveyId := (m.surveyId + 1) % 256,
        survey := some { id := m.surveyId, units := us, records := us.length, index := 0, part := 0, consistent := u16 p 0 == 1, bound := u16 p 2,
                         captured := u16 p 0 != 1, mtime := t.clk.mtime, rest := [], bodies := [], status := 0, detail := 0,
                         req := chanOwner t v.ch } }) t)
    (fun p t _ => le 1 t.mbx.surveyId ++ le 1 0 ++ le 2 (if u32 p 4 = 0 then List.range' 1 15 else maskUnits (u32 p 4)).length ++ le 8 t.clk.mtime) ∧
  Sets .pwrSleep 0x0F10 (fun v p s => p.length = 4 ∧ chanOwner s v.ch = .host ∧ 1 ≤ u8 p 0 ∧ u8 p 0 ≤ 3 ∧ zeros p 1 3)
    (fun v p t => updPwr (fun x => { x with hostWait := some (v.ch, codeDepth (u8 p 0)) }) t) (fun _ _ _ => []) ∧
  Sets .radioTuneSet 0x0201 (fun _ p _ => p.length = 8 ∧ freqOk (u32 p 0) ∧ (u8 p 4 = 0 ∨ u8 p 4 = 1 ∨ u8 p 4 = 4 ∨ u8 p 4 = 6) ∧ zeros p 5 3)
    (fun _ p t => applyHome (updRadio (fun r => { r with cfg := { r.cfg with home := hzTune (u32 p 0), ret := u8 p 4 } }) t)) (fun _ _ t => tuneRec t) ∧
  Sets .radioPaSet 0x0203 (fun _ p _ => p.length = 4 ∧ -40 ≤ i8 p 0 ∧ i8 p 0 ≤ 40 ∧ u8 p 1 ≤ 2 ∧ zeros p 2 2)
    (fun _ p t => updRadio (fun r => { r with cfg := { r.cfg with power := i8 p 0, txport := u8 p 1 } }) t) (fun _ _ t => paRec t) ∧
  Sets .radioCompSet 0x0205 (fun _ p _ => p.length = 36 ∧ zeros p 1 3 ∧ (u8 p 0 = 0 ∨ (u8 p 0 = 1 ∧ zeros p 4 32)))
    (fun _ p t => updRadio (fun r => { r with cfg := { r.cfg with
      origin := u8 p 0, comp := if u8 p 0 = 1 then t.dev.factoryComp else (List.range 32).map (fun i => i8 p (4 + i)) } }) t) (fun _ _ t => compRec t) ∧
  Sets .radioDivSet 0x0207
    (fun _ p s => p.length = 8 ∧ u8 p 0 ≤ 1 ∧ (s.dev.variant = .shaft → u8 p 0 = 0) ∧ u8 p 1 ≤ 1 ∧ u8 p 2 ≤ 1 ∧ u8 p 3 ≤ 1 ∧ u8 p 4 ≤ 20 ∧ zeros p 5 3)
    (fun _ p s =>
      let t := radioSettle (updRadio (fun r => { r with cfg := { r.cfg with
        div := { mode := u8 p 0, fixedAnt := u8 p 1, idleAnt := u8 p 2, txAnt := u8 p 3, hyst := u8 p 4 } } }) s)
      if exchange t || t.radio.state == .tx then t else updRadio (fun r => { r with ant := restAnt t }) t) (fun _ _ t => divRec t.radio.div) ∧
  Sets .radioExtSet 0x0209 (fun _ p _ => p.length = 8 ∧ u8 p 0 &&& 0x88 = 0 ∧ u8 p 1 ≤ 20 ∧ u8 p 2 ≤ 10 ∧ zeros p 3 1 ∧ zeros p 6 2)
    (fun _ p t => radioSettle (updRadio (fun r => { r with cfg := { r.cfg with
      ext := { pins := u8 p 0, lead := u8 p 1, lag := u8 p 2, offA := i8 p 4, offB := i8 p 5 } } }) t)) (fun _ _ t => extRec t.radio.ext)

/-- R84 to R94, R110: a shot is opened, filled, fired and aborted by the requester that owns it. -/
def Obligations.ShotCommands : Prop :=
  let named (n : Nat) (v : Srv) (p : List Byte) (s : State) : Prop :=
    u8 p 0 = n ∧ n ≤ 3 ∧ (shotOf s n).owner = some (chanOwner s v.ch)
  ∀ n : Nat,
    Sets .shotOpen 0x0180 (fun _ p s => p.length = 0 ∧ (List.range 4).find? (fun k => (shotOf s k).state == .free) = some n)
      (fun v _ t => updShot n (fun _ => { Shot.reset with state := .opened, owner := some (chanOwner t v.ch) }) t)
      (fun _ _ _ => le 1 n ++ le 1 0 ++ le 2 256 ++ le 2 16384 ++ le 2 0) ∧
    (∀ es k, Sets .shotAdd 0x0181
      (fun v p s => 8 ≤ p.length ∧ p.length ≤ 236 ∧ named n v p s ∧ (shotOf s n).state = .opened ∧ 1 ≤ u8 p 1 ∧ u8 p 1 ≤ 14 ∧ zeros p 2 2 ∧
        parseEntries p (u8 p 1) 4 (shotOf s n).entries (shotOf s n).bytes = .inr (es, k))
      (fun _ _ t => updShot n (fun x => { x with entries := es, bytes := k }) t)
      (fun _ _ _ => le 1 n ++ le 1 0 ++ le 2 es.length ++ le 2 k ++ le 2 0)) ∧
    Starts .shotFire 0x0182
      (fun v p s => p.length = 16 ∧ named n v p s ∧ (shotOf s n).state = .opened ∧ (shotOf s n).entries ≠ [] ∧ u8 p 1 ≤ 4 ∧ u16 p 2 ≤ 3 ∧
        u16 p 4 ≤ 5000 ∧ zeros p 6 2 ∧ shotWhenOk s (u8 p 1) p = true ∧ (u8 p 1 = 4 → s.rtc.osf = false) ∧
        shotWalk (chanOwner s v.ch) [] (shotOf s n).entries 0 (taken s) = none)
      (fun slot _ p t =>
        let armed := updShot n (fun x =>
          { x with state := .armed, trigger := u8 p 1, rxCut := (u16 p 2).testBit 0, persist := (u16 p 2).testBit 1, bound := u16 p 4, whenAt := u64 p 8,
                   slot := slot, trigAt := t.clk.mtime }) t
        if u8 p 1 = 0 then shotFalls n armed else armed)
      (fun _ t => le 1 n ++ le 1 0 ++ le 2 (shotOf t n).entries.length ++ le 2 (unitMask (shotOf t n).entries) ++ le 2 0) ∧
    Sets .shotAbort 0x0183
      (fun v p s => p.length = 4 ∧ named n v p s ∧ ((shotOf s n).state = .opened ∨ (shotOf s n).state = .armed) ∧ zeros p 1 3)
      (fun _ _ t => if (shotOf t n).state = .opened then updShot n (fun _ => .reset) t else shotDropped n t) (fun _ _ _ => [])


/-- R155 to R160: the work that the radio begins for a command, and the end of a test transmission. -/
def Obligations.RadioWork : Prop :=
  let measures (p : List Byte) (s : State) : Prop :=
    freqOk (u32 p 0) ∧ 2000 ≤ u32 p 4 ∧ u32 p 4 ≤ 1600000 ∧ s.pwr.mode ≠ .shelf ∧ s.pwr.mode ≠ .watch ∧
      (s.pwr.mode = .relay ∨ s.pwr.mode = .wide → inWindow s (u32 p 0) 0 = true ∧ inWindow s (u32 p 0) (u32 p 4) = true)
  let carrier (p : List Byte) : Nat := hzTune (u32 p 0)
  Starts .radioCal 0x0210 (fun _ p s => p.length = 4 ∧ u8 p 0 ≤ 2 ∧ zeros p 1 3 ∧ s.pwr.mode ≠ .shelf ∧ s.pwr.mode ≠ .watch)
    (fun n _ p t => radioKick (updRadio (fun r => { r with calJob := some (n, calSegments t (u8 p 0), 0) }) t)) (fun _ _ => []) ∧
  Starts .radioRssi 0x0211 (fun _ p s => p.length = 12 ∧ measures p s ∧ 20 ≤ u16 p 8 ∧ u16 p 8 ≤ 10000 ∧ u8 p 10 ≤ 1 ∧ zeros p 11 1)
    (fun n _ p t => radioKick (updRadio (fun r => { r with rssi := some {
        slot := n, tune := carrier p, ant := u8 p 10, threshold := 0, start := t.clk.mtime } }) t)) (fun _ _ => []) ∧
  Starts .radioCca 0x0212
    (fun _ p s => p.length = 16 ∧ measures p s ∧ 20 ≤ u16 p 8 ∧ u8 p 12 ≤ 2 ∧ (s.dev.variant = .shaft → u8 p 12 = 0) ∧ zeros p 13 3)
    (fun n _ p t => radioKick (updRadio (fun r => { r with cca := some {
        slot := n, tune := carrier p, ant := if u8 p 12 = 0 then t.radio.div.txAnt else u8 p 12 - 1, threshold := i16 p 10,
        start := t.clk.mtime } }) t)) (fun _ _ => []) ∧
  (∀ resv, Starts .radioTestTx 0x0220
    (fun _ p s => p.length = 12 ∧ freqOk (u32 p 0) ∧ u8 p 4 ≤ 1 ∧ -40 ≤ i8 p 5 ∧ i8 p 5 ≤ 40 ∧ u8 p 6 ≤ 1 ∧ zeros p 7 1 ∧ 1 ≤ u32 p 8 ∧ u32 p 8 ≤ 60000 ∧
      s.pwr.mode = .service ∧ (tallyTake (tuneExact (carrier p)) (u32 p 8 * 1000) false (taken s)).2.2 = some resv)
    (fun n _ p t =>
      radioSubmit { who := .test, timed := none, tune := carrier p, carrier := tuneExact (carrier p), power := some (i8 p 5), ant := u8 p 6,
                    us := u32 p 8 * 1000, ar := false, ret := 0, resv := resv, lbt := 0 }
        (updRadio (fun r => { r with test := some { slot := n, start := none, ms := u32 p 8 } })
          (tallyTake (tuneExact (carrier p)) (u32 p 8 * 1000) false t).1)) (fun _ _ => [])) ∧
  (∀ w q, Sets .radioTestStop 0x0221 (fun _ p s => p.length = 0 ∧ s.radio.test = some w ∧ s.radio.onAir = some q ∧ q.who = .test)
    (fun _ _ t => testDone w (min (airUs t) q.us) (tallyCut q.resv (min (airUs t) q.us) (updRadio (fun r => { r with onAir := none }) t)))
    (fun _ _ _ => [])) ∧
  (∀ w q, Sets .radioTestStop 0x0221 (fun _ p s => p.length = 0 ∧ s.radio.test = some w ∧ s.radio.onAir = none ∧ s.radio.held = some q ∧ q.who = .test)
    (fun _ _ t => testDone w 0 (tallyRelease q.resv (updRadio (fun r => { r with held := none, lbtPhase := 0 }) t))) (fun _ _ _ => []))

/-- R165, R182 to R184, R220, R244 to R246: lane and profile settings, the canary's settings, and a wake transmission that begins. A lane that
receives a frame, and the canary within a sequence, take new settings afterwards. -/
def Obligations.LanesAndCanarySettings : Prop :=
  let lane (p : List Byte) : LaneCfg :=
    { enable := u8 p 1, phy := u8 p 2, path := u8 p 3, offset := i32 p 4, chan := u32 p 8, rate := u32 p 12, phycfg := u32 p 16 }
  let fits (p : List Byte) (s : State) : Prop :=
    p.length = 20 ∧ u8 p 0 < laneCount s ∧ u8 p 1 ≤ 1 ∧ 1 ≤ u8 p 2 ∧ u8 p 2 ≤ 3 ∧ u8 p 3 ≤ (if Config.pathB s.dev.variant then 2 else 0) ∧
    (if Config.wideband s.dev.variant then -7200000 ≤ 2 * i32 p 4 - (u32 p 8 : Int) ∧ 2 * i32 p 4 + (u32 p 8 : Int) ≤ 7200000 else i32 p 4 = 0) ∧
    chanOk (u8 p 2) (u32 p 12) (u32 p 8) (u32 p 16) ∧ rateOk (u8 p 2) (u32 p 12) ∧ phycfgOk (u8 p 2) (u32 p 16) ∧
    (u8 p 1 = 0 ∨ Config.wideband s.dev.variant = false ∨ unitsWith s (u8 p 0) (lane p) ≤ Config.laneBudget s.dev.variant)
  Sets .laneSet 0x0301 (fun _ p s => fits p s)
    (fun _ p t => updLane (u8 p 0) (fun l => if l.frame.isSome then { l with next := some (lane p) } else { l with cfg := lane p, next := none }) t)
    (fun p _ t => laneRec t (u8 p 0)) ∧
  Sets .phyProfileSet 0x0320 (fun _ p _ => p.length = 16 ∧ u8 p 0 ≤ 15 ∧ u8 p 1 = 0 ∧ zeros p 3 1 ∧ zeros p 6 2)
    (fun _ p t => updLanes (fun l => { l with profile := l.profile.set (u8 p 0) .reset }) t) (fun p _ t => profileRec t (u8 p 0)) ∧
  Sets .phyProfileSet 0x0320
    (fun _ p _ => p.length = 16 ∧ u8 p 0 ≤ 15 ∧ 1 ≤ u8 p 1 ∧ u8 p 1 ≤ 3 ∧ zeros p 3 1 ∧ zeros p 6 2 ∧ rateOk (u8 p 1) (u32 p 8) ∧
      phycfgOk (u8 p 1) (u32 p 12) ∧ (if u8 p 1 = 2 then 0 < ndbps (u32 p 8) (u8 p 2) else u8 p 2 = 0) ∧
      (if u8 p 1 = 1 then 4 ≤ u16 p 4 ∧ u16 p 4 ≤ 1000 else u16 p 4 = 0))
    (fun _ p t => updLanes (fun l => { l with profile := l.profile.set (u8 p 0) {
      phy := u8 p 1, mcs := u8 p 2, preamble := u16 p 4, rate := u32 p 8, phycfg := u32 p 12 } }) t) (fun p _ t => profileRec t (u8 p 0)) ∧
  Sets .canarySet 0x0401
    (fun _ p _ => p.length = 36 ∧ u8 p 0 ≤ 1 ∧ u8 p 1 ≤ 3 ∧ (u8 p 0 = 0 ∨ u32 p (4 + 4 * u8 p 1) ≠ 0) ∧ u8 p 2 < 16 ∧ u8 p 3 ≤ 30 ∧
      canarySlotOk (u32 p 4) ∧ canarySlotOk (u32 p 8) ∧ canarySlotOk (u32 p 12) ∧ canarySlotOk (u32 p 16) ∧ unle (slice p 20 16) % 2 = 0)
    (fun _ p t =>
      let g : CanaryCfg := { enable := u8 p 0, active := u8 p 1, matchBits := u8 p 2, threshold := u8 p 3,
                             slots := [u32 p 4, u32 p 8, u32 p 12, u32 p 16], groups := unle (slice p 20 16) }
      if t.canary.phase = .sequence then updCanary (fun x => { x with next := some g }) t else updCanary (fun x => { x with cfg := g, next := none }) t)
    (fun _ _ t => canaryCfgRec t) ∧
  Starts .canarySend 0x0410
    (fun _ p s => p.length = 24 ∧ u32 p 0 < 2 ^ 25 ∧ u8 p 4 ≤ 127 ∧ 1 ≤ u8 p 5 ∧ u8 p 5 ≤ 8 ∧ -40 ≤ i8 p 6 ∧ i8 p 6 ≤ 40 ∧ u8 p 7 ≤ 2 ∧
      freqOk (wakeHz s (u32 p 8)) ∧ zeros p 12 4 ∧ u64 p 16 < 2 ^ 56 ∧ linkModes s ∧ s.canary.send = none)
    (fun n _ p t => linkKick (updCanary (fun x => { x with send := some {
        slot := some n, resync := none, address := u32 p 0, group := u8 p 4, rep := u8 p 5, hz := wakeHz t (u32 p 8), power := some (i8 p 6),
        ant := u8 p 7, whenAt := u64 p 16, submitted := false, start := none } }) t)) (fun _ _ => [])
/-- R287 to R291: the link's settings are taken at once between exchanges, and after the exchange that is under way where there is one. -/
def Obligations.LinkSettings : Prop :=
  let takes (i : Srv → Instr) (op k : Nat) (ok : List Byte → State → Prop) (rec : List Byte → State → List Byte) : Prop :=
    Sets i op (fun v p s => ok p s ∧ Savable k v p ∧ exchange s = false) (fun _ p t => saved k p (linkKick (applyLinkSet op p t))) (fun p _ t => rec p t) ∧
    Sets i op (fun _ p s => ok p s ∧ u8 p k = 0 ∧ exchange s = true)
      (fun _ p t => { t with link := { t.link with deferred := t.link.deferred ++ [(op, p)] } }) (fun p _ t => rec p t)
  takes .linkCfgSet 0x0501 52
    (fun p s => p.length = 56 ∧ (u32 p 0 = unassigned ∨ (assignable (u32 p 0) ∧ findShort s (u32 p 0) = none)) ∧ u8 p 4 ≤ 15 ∧ u8 p 5 ≤ 15 ∧ u8 p 6 ≤ 1 ∧
      u8 p 7 ≤ 15 ∧ 1 ≤ u16 p 8 ∧ 1 ≤ u16 p 10 ∧ queuePresent s (u16 p 12) ∧ queuePresent s (u16 p 14) ∧ linkSlot (u8 p 16) ∧ u8 p 17 ≤ 2 ∧
      (∀ i, i < 8 → u32 p (20 + 4 * i) = 0 ∨ isGroup (u32 p (20 + 4 * i))) ∧ zeros p 53 3)
    (fun _ t => linkCfgRec t.link.cfg) ∧
  takes .nbrSet 0x0510 2 (fun p s => p.length = 72 ∧ Pass (nbrChecks s p) ∧ zeros p 3 1) (fun p t => nbrRec t (u16 p 0)) ∧
  takes .routeSet 0x0520 2
    (fun p s => p.length = 16 ∧ zeros p 3 1 ∧ zeros p 7 1 ∧ zeros p 14 2 ∧
      (u16 p 0 < Config.routeRanges s.dev.variant ∧ u8 p 4 ≤ 1 ∧ u32 p 8 < 2 ^ 25 ∧
        (u8 p 4 = 1 → u8 p 5 ≤ 25 ∧ 1 ≤ u8 p 6 ∧ u8 p 6 ≤ 63 ∧ u32 p 8 % 2 ^ u8 p 5 = 0 ∧ u16 p 12 < nbrCount s ∧
          s.link.route.any (fun y => y.1 != u16 p 0 && y.2.valid == 1 && y.2.base == u32 p 8 && y.2.size == u8 p 5) = false)) ∧ u16 p 0 ≠ 0xFFFF)
    (fun p t => routeRec t (u16 p 0)) ∧
  takes .routeSet 0x0520 2
    (fun p s => p.length = 16 ∧ zeros p 3 1 ∧ zeros p 7 1 ∧ zeros p 14 2 ∧ u16 p 0 = 0xFFFF ∧ u8 p 4 = 1 ∧ u8 p 5 = 0 ∧ 1 ≤ u8 p 6 ∧ u8 p 6 ≤ 63 ∧
      u32 p 8 = 0 ∧ u16 p 12 < nbrCount s)
    (fun p t => routeRec t (u16 p 0))

/-- R292, R293, R325, R327: joining, replying to a join request, beacons and resynchronisation begin with the frame that they send. -/
def Obligations.LinkWork : Prop :=
  let join (slot : Nat) (p : List Byte) (s : State) : Join :=
    { slot := slot, token := u32 p 0, left := u8 p 4 - 1, intervalMs := u16 p 6, nextAt := mtAdd s.clk.mtime (usTicks (1000 * u16 p 6) : Nat),
      endAt := mtAdd s.clk.mtime (u16 p 8 * 2 ^ 24 : Nat), role := u8 p 5, data := slice p 16 (u8 p 12) }
  let joinReply (slot : Nat) (p : List Byte) (s : State) : Option State :=
    let eui := slice p 0 8
    let i := findEui s eui
    let seq := match i with | some k => (nbrOf s k).txSeq | none => s.link.bcastSeq
    let body := le 1 2 ++ le 1 (u8 p 12) ++ le 1 s.link.cfg.net ++ le 1 (u8 p 13) ++ slice p 8 4 ++ le 4 (u32 p 16) ++ le 4 s.link.cfg.ownShort ++
      le 1 (u8 p 20) ++ le 3 0 ++ slice p 24 (u8 p 20)
    (originate (.joinReply slot) i (frameHead (frameFc 2 false i.isSome true true false 0 false) seq s.link.cfg.net eui s.dev.eui64) body none seq i.isSome false
      (replyProfile s eui) s.radio.home false s).map (fun t => match i with
        | some k => updNbr k (fun e => { e with txSeq := (e.txSeq + 1) % 4096 }) t
        | none => updLink (fun l => { l with bcastSeq := (l.bcastSeq + 1) % 4096 }) t)
  (∀ t' : State, Starts .linkJoin 0x0530
    (fun _ p s => p.length = 16 + u8 p 12 ∧ u8 p 12 ≤ 32 ∧ (profileOf s s.link.cfg.bcastProfile).phy ≠ 0 ∧ 1 ≤ u8 p 4 ∧ u8 p 4 ≤ 16 ∧ u8 p 5 ≤ 1 ∧
      100 ≤ u16 p 6 ∧ u16 p 6 ≤ 60000 ∧ 1 ≤ u16 p 8 ∧ u16 p 8 ≤ 3600 ∧ zeros p 10 2 ∧ zeros p 13 3 ∧ linkModes s ∧ ¬ ownAssigned s ∧ s.link.join = none ∧
      sendJoinReq (join 0 p (taken s)) (taken s) = some t')
    (fun n _ p t => linkKick (updLink (fun l => { l with join := some (join n p t) }) t')) (fun _ _ => [])) ∧
  (∀ t' : Nat → State, Starts .linkJoinReply 0x0531
    (fun _ p s => p.length = 24 + u8 p 20 ∧ u8 p 20 ≤ 64 ∧ (profileOf s (replyProfile s (slice p 0 8))).phy ≠ 0 ∧ u8 p 12 ≤ 1 ∧ 1 ≤ u8 p 13 ∧ u8 p 13 ≤ 63 ∧
      zeros p 14 2 ∧ (if u8 p 12 = 0 then assignable (u32 p 16) = true else u32 p 16 < 2 ^ 25) ∧ zeros p 21 3 ∧
      ∀ k, joinReply k p (taken s) = some (t' k))
    (fun n _ _ _ => linkKick (t' n)) (fun _ _ => [])) ∧
  (∀ t' : Nat → State, Starts .timingBeacon 0x0611
    (fun _ p s => p.length = 4 ∧ zeros p 2 2 ∧ linkModes s ∧ (u16 p 0 = 0xFFFF ∨ (u16 p 0 < nbrCount s ∧ (nbrOf s (u16 p 0)).state ≠ .free)) ∧
      ∀ k, beaconTo (.beacon k) (if u16 p 0 = 0xFFFF then none else some (u16 p 0)) s.radio.home
        (u16 p 0 != 0xFFFF && (nbrOf s (u16 p 0)).rdv) (taken s) = some (t' k))
    (fun n _ _ _ => linkKick (t' n)) (fun _ _ => [])) ∧
  Starts .timingResync 0x0612
    (fun _ p s => p.length = 4 ∧ u16 p 0 < nbrCount s ∧ (nbrOf s (u16 p 0)).state ≠ .free ∧ zeros p 2 2 ∧ linkModes s)
    (fun n _ p t => linkKick (resyncStart (u16 p 0) (some n) t)) (fun _ _ => [])

/-- R321 to R324, R326: the settings of mesh timing, the channel sequences, a step of MTIME, and the copy of network time into the RTC.
R331 to R353: the settings of the tally and its bands, and the clearing of their totals in SERVICE. -/
def Obligations.TimingAndTallySettings : Prop :=
  let step (p : List Byte) (t : State) : Int := mtDiff (if u8 p 8 = 1 then rtcMtime t else u64 p 0) t.clk.mtime - waitingStep t
  Sets .timingCfgSet 0x0601
    (fun v p _ => p.length = 44 ∧ ((timingCfgOf p).ownPeriod = 0 ∨ 100 ≤ (timingCfgOf p).ownPeriod) ∧ u8 p 3 ≤ 15 ∧
      ((timingCfgOf p).ownPeriod = 0 ∨ u32 p 4 * 256000 < (timingCfgOf p).ownPeriod * 2 ^ 24) ∧ 10 ≤ u16 p 8 ∧ u16 p 10 ≤ 1000 ∧ 1000 ≤ u32 p 12 ∧
      u32 p 12 ≤ 1000000 ∧ u8 p 16 < 8 ∧ 1 ≤ u8 p 17 ∧ u8 p 17 ≤ 8 ∧ 10 ≤ u16 p 18 ∧ u16 p 18 ≤ 5000 ∧ 100 ≤ u16 p 20 ∧ u16 p 20 ≤ 10000 ∧
      1 ≤ u16 p 22 ∧ u16 p 22 ≤ 3600 ∧ (u32 p 24 = 0 ∨ freqOk (u32 p 24)) ∧ -100000 ≤ i32 p 28 ∧ i32 p 28 ≤ 100000 ∧ dateOk (dateOf p 32) ∧ zeros p 39 1 ∧
      Savable 40 v p ∧ zeros p 41 3)
    (fun _ p t =>
      let g := timingCfgOf p
      let old := t.timing.cfg
      let t1 := updTiming (fun x => { x with cfg := g }) t
      saved 40 p (calRefresh (if old.ownPeriod == g.ownPeriod && old.ownChseq == g.ownChseq && old.ownOffset == g.ownOffset then t1 else ownRestart t1)))
    (fun _ _ t => timingCfgRec t) ∧
  Sets .timingChseqSet 0x0603
    (fun v p _ => p.length = 4 + 4 * u8 p 1 ∧ 1 ≤ u8 p 0 ∧ u8 p 0 ≤ 15 ∧ 1 ≤ u8 p 1 ∧ u8 p 1 ≤ 16 ∧ Savable 2 v p ∧ zeros p 3 1 ∧
      ∀ i, i < u8 p 1 → freqOk (u32 p (4 + 4 * i)))
    (fun _ p t => saved 2 p (retuneWindows (u8 p 0) (updTiming (fun x =>
      { x with chseq := tset chseqReset (u8 p 0) ((List.range (u8 p 1)).map (fun i => u32 p (4 + 4 * i))) x.chseq,
               chseqOld := x.chseqOld.filter (fun o => o.1 != u8 p 0 && mtLater o.2.2 t.clk.mtime) ++
                 [(u8 p 0, chseqOf t (u8 p 0), mtAdd t.clk.mtime (ms2 : Nat))] }) t)))
    (fun p _ t => chseqRec t (u8 p 0)) ∧
  Sets .timingMtimeSet 0x0610
    (fun _ p s => p.length = 12 ∧ (u8 p 8 = 0 ∧ u64 p 0 < 2 ^ 56 ∨ u8 p 8 = 1 ∧ s.rtc.osf = false) ∧ zeros p 9 3 ∧ bit s.timing.cfg.flags 0 = true)
    (fun _ p t => linkKick (requestStep (step p t) 0xFFFF t)) (fun p t _ => lei 8 (step p t)) ∧
  Yields .timeSync 0x0620 (fun _ p s => p.length = 0 ∧ s.clk.sync = true ∧ networkTime s / 2 ^ 24 ≤ lastSecond)
    (fun _ _ t => commitTick (updRtcCore true (fun c => { c with stage := networkRtc t, fields := 0xEF }) t))
    (fun _ _ t => dateBytes t.rtc.now.date ++ le 2 t.rtc.now.subsec ++ le 2 0) ∧
  Sets .tallyCfgSet 0x0700 (fun v p _ => p.length = 4 ∧ u8 p 0 ≤ 1 ∧ Savable 1 v p ∧ zeros p 2 2)
    (fun _ p t => saved 1 p (unblockNever (updTally (fun x => { x with outside := u8 p 0 }) t))) (fun _ _ t => tallyCfgRec t) ∧
  Sets .tallyBandSet 0x0702
    (fun v p _ => p.length = 40 ∧ u8 p 0 ≤ 15 ∧ u8 p 1 ≤ 1 ∧ u8 p 2 ≤ 1 ∧ Savable 3 v p ∧ freqOk (u32 p 4) ∧ freqOk (u32 p 8) ∧ u32 p 4 ≤ u32 p 8 ∧
      1 ≤ u32 p 12 ∧ u32 p 12 ≤ 1000000 ∧ u32 p 16 ≤ u32 p 12 ∧ u32 p 20 ≤ 3600000 ∧ 2000 ≤ u32 p 24 ∧ u32 p 24 ≤ 1600000 ∧ 20 ≤ u16 p 30 ∧
      u16 p 32 ≤ u16 p 34 ∧ 1 ≤ u8 p 36 ∧ u8 p 36 ≤ 15 ∧ zeros p 37 3)
    (fun _ p t => saved 3 p (unblockNever (updBand (u8 p 0) (fun b => { b with cfg :=
      { enable := u8 p 1, lbt := u8 p 2, lower := u32 p 4, upper := u32 p 8, limitPpm := u32 p 12, reservePpm := u32 p 16, maxTxMs := u32 p 20,
        lbtBw := u32 p 24, lbtThreshold := i16 p 28, lbtListenUs := u16 p 30, boMinMs := u16 p 32, boMaxMs := u16 p 34, lbtTries := u8 p 36 } }) t)))
    (fun p _ t => bandRec t (u8 p 0)) ∧
  Sets .tallyClear 0x0720 (fun _ p s => p.length = 4 ∧ (u8 p 0 ≤ 15 ∨ u8 p 0 = 0xFF) ∧ zeros p 1 3 ∧ s.pwr.mode = .service)
    (fun _ p t => if u8 p 0 = 0xFF then updTally (fun x => { x with band := x.band.map Band.cleared }) t else updBand (u8 p 0) Band.cleared t)
    (fun _ _ _ => [])


/-- R373 to R377, R400 to R403: the settings of the queues, of the flows and of the shapers, and the flush of a queue. -/
def Obligations.QueueAndFlowSettings : Prop :=
  Sets .queueSet 0x0801 (fun v p s => p.length = 8 ∧ queuePresent s (u16 p 0) ∧ u8 p 2 ≤ 1 ∧ Savable 3 v p ∧ u16 p 4 ≤ 8191)
    (fun _ p t =>
      let t1 := updQueue (u16 p 0) (fun x => { x with kind := u8 p 2, limit := u16 p 4, stall := u16 p 6 }) t
      saved 3 p (linkKick (if u8 p 2 = 1 then turnTx (u16 p 0) t1 else serveStalls (u16 p 0) t1)))
    (fun p _ t => queueRec t (u16 p 0)) ∧
  Sets .qmCfgSet 0x0804 (fun v p s => p.length = 4 ∧ u16 p 0 ≤ Config.cells s.dev.variant / 4 ∧ Savable 2 v p ∧ zeros p 3 1)
    (fun _ p t => saved 2 p (updQm (fun m => { m with reserve := u16 p 0 }) t)) (fun _ _ t => qmCfgRec t) ∧
  Sets .queueFlush 0x0810 (fun _ p s => p.length = 4 ∧ queuePresent s (u16 p 0) ∧ zeros p 2 2)
    (fun _ p t => linkKick (flushQueue (u16 p 0) t)) (fun p t _ => le 2 (queueOf t (u16 p 0)).count ++ le 2 0) ∧
  Sets .flowSet 0x0901
    (fun v p s => p.length = 12 ∧ u16 p 0 ≤ 255 ∧ u8 p 2 ≤ 1 ∧ u8 p 3 ≤ 1 ∧ 1 ≤ u16 p 4 ∧ (u16 p 6 = 0xFFFF ∨ queuePresent s (u16 p 6)) ∧
      (u8 p 2 = 1 → queueTaken s (u16 p 0) (u16 p 6) = false) ∧ (u8 p 8 ≤ 127 ∨ u8 p 8 = 0xFF) ∧ Savable 9 v p ∧ zeros p 10 2)
    (fun _ p t =>
      let g : FlowCfg := { enable := u8 p 2, strict := u8 p 3, weight := u16 p 4, queue := u16 p 6, shaper := u8 p 8 }
      let f := flowOf t (u16 p 0)
      let moved : Bool := f.cfg.queue != g.queue
      saved 9 p (linkKick (putFlow (u16 p 0)
        { f with cfg := g, stamp := if moved ∨ g.strict = 1 then none else f.stamp, block := if moved then 2 else f.block,
                 eligible := if moved then none else f.eligible } t)))
    (fun p _ t => flowRec t (u16 p 0)) ∧
  Sets .shaperSet 0x0904
    (fun v p _ => p.length = 12 ∧ u8 p 0 ≤ 127 ∧ u8 p 1 ≤ 1 ∧ Savable 2 v p ∧ zeros p 3 1 ∧ zeros p 6 2 ∧ 1 ≤ u32 p 8 ∧ u32 p 8 < 2 ^ 20)
    (fun _ p t => saved 2 p (putShaper (u8 p 0) { shaperOf t (u8 p 0) with next := some { enable := u8 p 1, rate := u16 p 4, burst := u32 p 8 } } t))
    (fun p _ t => shaperRec t (u8 p 0))
/-- R410 to R419, R433 to R438: a key's usage, a generated or derived key, and the work that the cipher engine begins. -/
def Obligations.CipherCommands : Prop :=
  Sets .keyUsageSet 0x0A02
    (fun v p s => p.length = 4 ∧ 2 ≤ u8 p 0 ∧ u8 p 0 ≤ 63 ∧ (slotOf s (u8 p 0)).state ≠ 0 ∧ (u8 p 1 = 1 ∨ u8 p 1 = 2) ∧
      within (BitVec.ofNat 8 (u8 p 2)) (slotOf s (u8 p 0)).allowed ∧ zeros p 3 1 ∧ v.wFail = none)
    (fun _ p t =>
      let y := { slotOf t (u8 p 0) with state := u8 p 1, usage := BitVec.ofNat 8 (u8 p 2) }
      putRecord (u8 p 0) { recordOf t (u8 p 0) with slot := y } (putSlot (u8 p 0) y t))
    (fun p _ t => keyRec t (u8 p 0)) ∧
  Sets .keyGenerate 0x0A12
    (fun v p s => p.length = 24 ∧ 3 ≤ u8 p 0 ∧ u8 p 0 ≤ 63 ∧ (slotOf s (u8 p 0)).state = 0 ∧ (u8 p 1 = 1 ∨ u8 p 1 = 2) ∧ u8 p 2 ≤ 1 ∧
      within (BitVec.ofNat 8 (u8 p 3)) 0x38 ∧ within (BitVec.ofNat 8 (u8 p 4)) (BitVec.ofNat 8 (u8 p 3)) ∧ zeros p 5 3 ∧
      (if u8 p 2 = 0 then zeros p 8 16 = true else u8 p 8 ≠ 0xFF) ∧ s.cipher.halt = false ∧ v.wFail = none)
    (fun _ p t =>
      let k := u8 p 0
      let r := if u8 p 2 = 0 then freshBytes (16 * u8 p 1) (genUse t) else (deriveKey (slotOf t 0).key (slice p 8 16) (u8 p 1), maskUse (16 * u8 p 1) t)
      let x : KeySlot := { type := u8 p 1, state := 1, origin := 3 + u8 p 2, allowed := BitVec.ofNat 8 (u8 p 3), usage := BitVec.ofNat 8 (u8 p 4), key := r.1 }
      putRecord k { slot := x, fcReserved := nextReserve 0, damaged := false }
        (putCtr k { KeyCounter.zero with fc := 0, fcReserved := nextReserve 0 } (putSlot k x r.2)))
    (fun p _ t => keyRec t (u8 p 0)) ∧
  Starts .cipherRun 0x0A20 (fun _ p s => p.length = 48 ∧ Pass (runChecks s p) ∧ s.cipher.halt = false)
    (fun n _ p t => updCipher (fun x => { x with job := some (.run n (slotOf t (u8 p 0)).key p) }) t) (fun _ _ => []) ∧
  Yields .rngGet 0x0A21 (fun _ p s => p.length = 4 ∧ 1 ≤ u8 p 0 ∧ u8 p 0 ≤ 224 ∧ zeros p 1 3 ∧ s.cipher.halt = false)
    (fun _ p t => (freshBytes (u8 p 0) (genUse t)).2) (fun p t _ => le 1 (u8 p 0) ++ le 3 0 ++ (freshBytes (u8 p 0) (genUse t)).1) ∧
  Starts .hashRun 0x0A22
    (fun _ p s => p.length = 12 ∧ zeros p 1 3 ∧
      (u8 p 0 = 0 ∧ 0x1000 ≤ u32 p 4 ∧ u32 p 4 + u32 p 8 ≤ 0x8000 ∨
        u8 p 0 = 1 ∧ u32 p 8 ≤ 0x1000000 ∧ xipRange s (u32 p 4) (min (u32 p 8) 1) ∧ xipRange s (u32 p 4) (u32 p 8)))
    (fun n _ p t => updCipher (fun x => { x with job := some (.hash n (u8 p 0 == 1) (u32 p 4) (u32 p 8)) }) t) (fun _ _ => []) ∧
  Starts .sigVerify 0x0A23 (fun _ p _ => p.length = 160) (fun n _ p t => updCipher (fun x => { x with job := some (.verify n p) }) t) (fun _ _ => [])

/-- R449, R469 to R472, R498, R513 to R518: the power settings, and the flash commands: a read at once, a program and an erase with a slot. -/
def Obligations.PowerAndFlashCommands : Prop :=
  Sets .pwrCfgSet 0x0F01
    (fun v p s => p.length = 16 ∧ u8 p 0 < 16 ∧ u8 p 1 &&& Config.nbrBanks s.dev.variant = u8 p 1 ∧ u8 p 2 &&& Config.poolBanks s.dev.variant = u8 p 2 ∧
      1 ≤ u8 p 3 ∧ u8 p 3 ≤ 5 ∧ u8 p 4 < 8 ∧ u8 p 5 ≤ 1 ∧ u8 p 6 ≤ 1 ∧ zeros p 7 1 ∧ 1 ≤ u16 p 8 ∧ u16 p 8 ≤ 60000 ∧ u16 p 10 < 1024 ∧ Savable 12 v p ∧
      zeros p 13 3)
    (fun _ p t => saved 12 p (updPwr (fun x => { x with cfg :=
      { netRetain := u8 p 0, nbrRetain := u8 p 1, poolRetain := u8 p 2, shelfExit := u8 p 3, shelfWake := BitVec.ofNat 3 (u8 p 4), shelfRtc := u8 p 5,
        watchFlags := u8 p 6, drainMs := u16 p 8, hostWake := BitVec.ofNat 10 (u16 p 10) }, retainNet := BitVec.ofNat 4 (u8 p 0) }) t))
    (fun _ _ t => pwrCfgRec t) ∧
  Yields .flashRead 0x0B10 (fun _ p s => p.length = 8 ∧ 1 ≤ u16 p 4 ∧ u16 p 4 ≤ 224 ∧ zeros p 6 2 ∧ mailboxReads s (u32 p 0) (u16 p 4))
    (fun _ p t => (readAcross (u32 p 0) (u16 p 4) t).1)
    (fun p t _ => le 1 (readAcross (u32 p 0) (u16 p 4) t).2.2 ++ le 3 0 ++ (readAcross (u32 p 0) (u16 p 4) t).2.1) ∧
  Starts .flashProgram 0x0B11
    (fun _ p s => p.length = 8 + u16 p 4 ∧ u32 p 0 % 16 = 0 ∧ mailboxBlock s (u32 p 0 / blk) ∧ 16 ≤ u16 p 4 ∧ u16 p 4 ≤ 224 ∧ u16 p 4 % 16 = 0 ∧
      u32 p 0 % blk + u16 p 4 ≤ blk ∧ u8 p 6 ≤ 1 ∧ zeros p 7 1)
    (fun n _ p t => acceptOp { master := .net, erase := false, addr := u32 p 0, data := slice p 8 (u16 p 4), src := none, done := 0 }
      (updFlash (fun f => { f with jobs :=
        [{ slot := n, erase := false, verify := u8 p 6 == 1, addr := u32 p 0, count := 1, done := 0, data := slice p 8 (u16 p 4) }] }) t)) (fun _ _ => []) ∧
  Starts .flashErase 0x0B12
    (fun _ p s => p.length = 4 ∧ 1 ≤ u8 p 2 ∧ u8 p 2 ≤ 16 ∧ u8 p 3 ≤ 1 ∧ (List.range (u8 p 2)).all (fun i => mailboxBlock s (u16 p 0 + i)))
    (fun n _ p t => acceptOp { master := .net, erase := true, addr := u16 p 0 * blk, data := [], src := none, done := 0 }
      (updFlash (fun f => { f with jobs :=
        [{ slot := n, erase := true, verify := u8 p 3 == 1, addr := u16 p 0, count := u8 p 2, done := 0, data := [] }] }) t)) (fun _ _ => [])

/-- R529 to R534, R541 to R546: staging an image: it begins, takes octets that are not yet written, is checked, and is cancelled by its owner. -/
def Obligations.UpdateCommands : Prop :=
  let owned (v : Srv) (s : State) : Prop := s.upd.owner = some (chanOwner s v.ch)
  Starts .updateStageBegin 0x0C10
    (fun _ p s => p.length = 8 ∧ 257 ≤ u32 p 0 ∧ u32 p 0 ≤ 4186112 ∧ zeros p 4 4 ∧ (s.upd.state = .empty ∨ s.upd.state = .verified ∨ s.upd.state = .invalid))
    (fun n v p t => updUpd (fun u =>
      { u with state := .receiving, owner := some (chanOwner t v.ch), size := u32 p 0, units := [], head := none, whenAt := none, returnMode := 0xFF,
               job := some (.begin n) }) t) (fun _ _ => []) ∧
  Sets .updateStageWrite 0x0C11
    (fun v p s => p.length = 8 + u16 p 4 ∧ u32 p 0 % 16 = 0 ∧ 16 ≤ u16 p 4 ∧ u16 p 4 ≤ 224 ∧ u16 p 4 % 16 = 0 ∧ zeros p 6 2 ∧ owned v s ∧
      (s.upd.state = .receiving ∨ s.upd.state = .verified) ∧ u32 p 0 + u16 p 4 ≤ (s.upd.size + 15) / 16 * 16 ∧ v.wFail = none ∧
      (List.range (u16 p 4 / 16)).all (fun i => unitAgrees s (u32 p 0) (slice p 8 (u16 p 4)) i) ∧
      (List.range (u16 p 4 / 16)).any (fun i => !tget false (u32 p 0 / 16 + i) s.upd.units))
    (fun _ p t => setWritten ((stageBase t + u32 p 0) / 16) (u16 p 4 / 16) (flashStore (stageBase t + u32 p 0) (slice p 8 (u16 p 4))
      (stageUnits (u32 p 0 / 16) (u16 p 4 / 16) (updUpd (fun u => { u with state := .receiving, head := none }) t))))
    (fun _ _ t => le 4 (stageWritten t.upd)) ∧
  Starts .updateStageCheck 0x0C12 (fun v p s => p.length = 0 ∧ owned v s ∧ s.upd.state = .receiving)
    (fun n _ _ t => updUpd (fun u => { u with job := some (.check n) }) t) (fun _ _ => []) ∧
  Sets .updateCancel 0x0C22
    (fun v p s => p.length = 4 ∧ u8 p 0 = 0 ∧ zeros p 1 3 ∧ owned v s ∧ (s.upd.state = .committed ∨ s.upd.state = .scheduled) ∧ v.wFail = none)
    (fun _ _ t => updUpd (fun u => { u with state := .verified, whenAt := none, returnMode := 0xFF }) (updRtc (fun r => { r with act := none }) t))
    (fun _ _ t => updateRec t) ∧
  Sets .updateCancel 0x0C22
    (fun v p s => p.length = 4 ∧ u8 p 0 = 1 ∧ zeros p 1 3 ∧ owned v s ∧ s.upd.state ≠ .installing ∧ s.upd.state ≠ .empty ∧ v.wFail = none)
    (fun _ _ t => stageEmpty (updRtc (fun r => { r with act := none }) t)) (fun _ _ t => updateRec t)

/-- R557 to R566: the RTC is set at once (the composed date and time must exist), its alarms are set, and its flags are cleared. -/
def Obligations.RtcCommands : Prop :=
  let given (p : List Byte) : RtcTime :=
    { subsec := u16 p 12, sec := u8 p 10, min := u8 p 9, hour := u8 p 8, wday := u8 p 14, day := u8 p 7, mon := u8 p 6, year := u16 p 4 }
  Sets .rtcTimeSet 0x0D02
    (fun _ p s => p.length = 16 ∧ u8 p 0 ≠ 0 ∧ zeros p 1 3 ∧ zeros p 11 1 ∧ zeros p 15 1 ∧
      ((if s.rtc.run then s.rtc.now.tick else (s.rtc.now, false, false)).1.compose (given p) (BitVec.ofNat 8 (u8 p 0))).bad = none)
    (fun _ p t => commitTick (updRtcCore true (fun c => { c with stage := given p, fields := BitVec.ofNat 8 (u8 p 0) }) t)) (fun _ _ t => timeRec t) ∧
  Sets .rtcAlarmSet 0x0D03 (fun _ p _ => p.length = 12 ∧ u8 p 0 ≤ 1 ∧ u8 p 1 ≤ 1 ∧ u8 p 2 < 64 ∧ zeros p 3 1 ∧ Pass (alarmChecks p) ∧ zeros p 11 1)
    (fun _ p t =>
      let a : Alarm := { vals := [u8 p 10, u8 p 9, u8 p 8, u8 p 7, u8 p 6, u16 p 4], mask := BitVec.ofNat 6 (u8 p 2), en := u8 p 1 == 1 }
      updRtc (fun r => if u8 p 0 = 0 then { r with alm0 := a } else { r with alm1 := a }) t)
    (fun p _ t => alarmRec t (u8 p 0)) ∧
  Sets .rtcFlagsClear 0x0D05 (fun _ p _ => p.length = 4 ∧ u8 p 0 < 16 ∧ zeros p 1 3)
    (fun _ p t => updRtc (fun r =>
      { r with ovf := r.ovf && !bit (BitVec.ofNat 4 (u8 p 0)) 0, bksw := r.bksw && !bit (BitVec.ofNat 4 (u8 p 0)) 1,
               alf := r.alf &&& ~~~((BitVec.ofNat 4 (u8 p 0)).extractLsb' 2 2) }) t) (fun _ _ _ => [])

/-- R582, R588 to R597: the port's settings, blocks written behind the wire side's lock, and the credential area cleared. -/
def Obligations.PortCommands : Prop :=
  let unheld (s : State) : Prop := s.port.lock ≠ .app ∧ s.port.lock ≠ .field
  Sets .portCfgSet 0x0E01 (fun v p s => p.length = 4 ∧ u8 p 0 ≤ 1 ∧ 1 ≤ u8 p 1 ∧ u8 p 1 ≤ 59 ∧ u8 p 2 < 4 ∧ zeros p 3 1 ∧ unheld s ∧ v.wFail = none)
    (fun _ p t => portWritten (moveGrant (u8 p 0) (updPort (fun x => { x with wtxmCfg := u8 p 1, flags := BitVec.ofNat 2 (u8 p 2) }) t)))
    (fun p t _ => portCfgRec (moveGrant (u8 p 0) (updPort (fun x => { x with wtxmCfg := u8 p 1, flags := BitVec.ofNat 2 (u8 p 2) }) t))) ∧
  Starts .portMemWrite 0x0E11
    (fun _ p s => p.length = 4 + 32 * u8 p 1 ∧ 8 ≤ u8 p 0 ∧ 1 ≤ u8 p 1 ∧ u8 p 1 ≤ 7 ∧ u8 p 0 + u8 p 1 ≤ 256 ∧ zeros p 2 2 ∧ s.port.grantCfg ≠ 1)
    (fun n _ p t => updPort (fun x =>
      { x with lock := if x.lock = .free then .net else x.lock,
               job := some { slot := n, block := u8 p 0, blocks := (List.range (u8 p 1)).map (fun i => slice p (4 + 32 * i) 32), written := 0 } }) t)
    (fun _ _ => []) ∧
  Sets .portCredClear 0x0E31 (fun v p s => p.length = 0 ∧ unheld s ∧ s.port.grantCfg ≠ 1 ∧ v.wFail = none)
    (fun _ _ t => (portWrites none 0 ([(8, 0 :: (portBlock t 8).drop 1)] ++ (List.range 7).map (fun i => (9 + i, List.replicate 32 0))) t).1) (fun _ _ _ => [])
/-- R51, R70, R71, R73, R75, R410 to R415: the critical commands of the system and of the key store, with a right trailer, a fresh counter and flash
writes that succeed. -/
def Obligations.CriticalSystemAndKeys : Prop :=
  let store (b : OptBlock) (t : State) : State := updBoot (fun x => { x with copy1 := b, copy2 := b, optBase := some b }) t
  SetsAuth .modeLock 0x0112
    (fun v p t => p.length = 4 ∧ u8 p 0 < 64 ∧ (u8 p 0).testBit 5 ∧ (u8 p 0).testBit (modeCode t.pwr.mode) ∧ zeros p 1 3 ∧ v.wFail = none)
    (fun _ p t =>
      let u := store (oPut (optionBase t) 0x00C (le 1 (u8 p 0))) t
      { u with boot := { u.boot with opt := oPut u.boot.opt 0x00C (le 1 (u8 p 0)) }, pwr := { u.pwr with allowed := BitVec.ofNat 6 (u8 p 0) } })
    (fun p _ _ => le 1 (u8 p 0) ++ le 3 0) ∧
  SetsAuth .debugUnlock 0x0120 (fun _ p _ => p.length = 4 ∧ 1 ≤ u8 p 0 ∧ u8 p 0 ≤ 2 ∧ zeros p 1 3)
    (fun _ p t => updBoot (fun b => { b with debug := max b.debug (u8 p 0) }) t) (fun _ _ t => le 1 t.boot.debug ++ le 3 0) ∧
  SetsAuth .optionWrite 0x0131
    (fun v p t => p.length = 4 + u16 p 2 ∧ 5 ≤ p.length ∧ p.length ≤ 232 ∧ u16 p 0 < 4096 ∧ v.wFail = none ∧
      optOffends t (u16 p 0) (u16 p 2) (optionBase t)
        { oPut (optionBase t) (u16 p 0) (slice p 4 (min (u16 p 2) (0xFFC - u16 p 0))) with crcOk := true } = none)
    (fun _ p t => store { oPut (optionBase t) (u16 p 0) (slice p 4 (min (u16 p 2) (0xFFC - u16 p 0))) with crcOk := true } t) (fun _ _ _ => []) ∧
  (∀ r, SetsAuth .counterRaise 0x0141
    (fun v p t => p.length = 8 ∧ u8 p 0 ≤ 2 ∧ r = codeReq (u8 p 0) ∧ zeros p 1 3 ∧ pget t.mbx.counter r < u32 p 4 ∧ v.wFail = none)
    (fun _ p t => updMbx (fun m => { m with counter := pset m.counter r (u32 p 4) }) t) (fun _ _ _ => [])) ∧
  (∀ x : List Byte, SetsAuth .keyImport 0x0A10
    (fun v p t => p.length = 56 ∧ zeros p 3 1 ∧ zeros p 5 3 ∧ 1 ≤ u8 p 0 ∧ u8 p 0 ≤ 63 ∧ (u8 p 0 = 1 ∨ (slotOf t (u8 p 0)).state = 0) ∧ u8 p 1 ≠ u8 p 0 ∧
      slotPermits t (u8 p 1) 2 ∧ (u8 p 4 = 32 ∨ u8 p 4 = 48 ∧ (slotOf t (u8 p 1)).type = 2) ∧ zeros p (8 + u8 p 4) (48 - u8 p 4) ∧ t.cipher.halt = false ∧
      keyUnwrap (slotOf t (u8 p 1)).key (slice p 8 (u8 p 4)) = some x ∧ u8 x (u8 p 4 - 16) = (if u8 p 4 = 32 then 1 else 2) ∧ zeros x (u8 p 4 - 14) 2 ∧
      unbe (slice x (u8 p 4 - 12) 4) ≠ 0xFFFFFFFF ∧
      within (BitVec.ofNat 8 (u8 x (u8 p 4 - 15))) (usageLimit (u8 x (u8 p 4 - 16)) (u8 p 0)) ∧
      (u8 p 0 = 1 → u8 x (u8 p 4 - 16) = 1 ∧ BitVec.ofNat 8 (u8 x (u8 p 4 - 15)) = 0x40#8) ∧
      within (BitVec.ofNat 8 (u8 p 2)) (BitVec.ofNat 8 (u8 x (u8 p 4 - 15))) ∧ v.wFail = none)
    (fun _ p t =>
      let k := u8 p 0
      let fc := unbe (slice x (u8 p 4 - 12) 4)
      let y : KeySlot := { type := u8 x (u8 p 4 - 16), state := 1, origin := 2, allowed := BitVec.ofNat 8 (u8 x (u8 p 4 - 15)),
                           usage := BitVec.ofNat 8 (u8 p 2), key := x.take (u8 p 4 - 16) }
      putRecord k { slot := y, fcReserved := nextReserve fc, damaged := false }
        (putCtr k { KeyCounter.zero with fc := fc, fcReserved := nextReserve fc } (putSlot k y (maskUse (u8 p 4) t))))
    (fun p _ t => keyRec t (u8 p 0))) ∧
  SetsAuth .keyRetire 0x0A11
    (fun v p t => p.length = 4 ∧ 2 ≤ u8 p 0 ∧ u8 p 0 ≤ 63 ∧ (slotOf t (u8 p 0)).state ≠ 0 ∧ zeros p 1 3 ∧ v.wFail = none)
    (fun _ p t =>
      let k := u8 p 0
      let y := { slotOf t k with state := 2, usage := 0 }
      let t1 := putSlot k y t
      let t2 := putSlot k { y with key := [] } (putRecord k { recordOf t k with slot := y } t1)
      putCtr k .zero (putSlot k .empty (putRecord k .empty t2)))
    (fun p _ t => keyRec t (u8 p 0))

/-- R51, R535, R536, R544, R545, R595, R596: the critical commands of the update and of the commissioning port. -/
def Obligations.CriticalUpdateAndPort : Prop :=
  let owned (v : Srv) (s : State) : Prop := s.upd.owner = some (chanOwner s v.ch)
  let unheld (s : State) : Prop := s.port.lock ≠ .app ∧ s.port.lock ≠ .field
  SetsAuth .updateCommit 0x0C20
    (fun v p t => p.length = 4 ∧ u8 p 0 ≤ 1 ∧ (u8 p 1 ≤ 5 ∨ u8 p 1 = 0xFF) ∧ zeros p 2 2 ∧ owned v t ∧ t.upd.state = .verified ∧
      (t.upd.head.map ImgHead.scheduledOnly).getD false = false ∧ t.upd.broken = none ∧ v.wFail = none)
    (fun _ p t =>
      let t1 := updUpd (fun u => { u with state := .committed, returnMode := if u8 p 1 = 0xFF then modeCode t.pwr.mode else u8 p 1 }) t
      if u8 p 0 = 1 then updBoot (fun b => { b with delayed := some .act }) t1 else t1)
    (fun _ _ t => updateRec t) ∧
  SetsAuth .updateSchedule 0x0C21
    (fun v p t => p.length = 12 ∧ (u8 p 0 ≤ 5 ∨ u8 p 0 = 0xFF) ∧ zeros p 1 3 ∧ zeros p 11 1 ∧ owned v t ∧ (t.upd.state = .verified ∨ t.upd.state = .scheduled) ∧
      t.rtc.osf = false ∧ dateOk (dateOf p 4) ∧ dateSeconds t.rtc.now.date < dateSeconds (dateOf p 4) ∧ v.wFail = none)
    (fun _ p t => updRtc (fun r => { r with act := some (dateOf p 4) })
      (updUpd (fun u => { u with state := .scheduled, whenAt := some (dateOf p 4),
                                 returnMode := if u8 p 0 = 0xFF then modeCode t.pwr.mode else u8 p 0 }) t))
    (fun _ _ t => updateRec t) ∧
  SetsAuth .portPwSet 0x0E20
    (fun v p t => p.length = 20 ∧ u8 p 0 ≤ 3 ∧ 1 ≤ u8 p 1 ∧ u8 p 1 ≤ 15 ∧ zeros p 2 2 ∧ unheld t ∧ v.wFail = none)
    (fun _ p t => portWritten (updPort (fun x => { x with auth := if x.auth = some (u8 p 0) then none else x.auth })
      (updPw (u8 p 0) (fun _ => { pw := slice p 4 16, limit := u8 p 1, remaining := u8 p 1 }) t)))
    (fun p _ t => pwRec t (u8 p 0)) ∧
  SetsAuth .portPwUnlock 0x0E21
    (fun v p t => p.length = 4 ∧ u8 p 0 ≤ 3 ∧ (pwOf t (u8 p 0)).state ≠ 0 ∧ zeros p 1 3 ∧ unheld t ∧ v.wFail = none)
    (fun _ p t => portWritten (updPw (u8 p 0) (fun x => { x with remaining := x.limit }) t)) (fun p _ t => pwRec t (u8 p 0))


/-- R37 to R40, R43, R79 to R82, log 33: accesses to the mailbox by the application core and by the host port.
R58 to R63: an event goes to its channel's response buffer, and a completion event frees its pending slot; a lockout ends. -/
def Obligations.MailboxSteps : Prop :=
  (∀ (n i : Nat) (v : Word) (s : State),
    n < 8 → i < 64 → mayAccess s .app = true → at_ .idle s.mbx.chan n ≠ .busy →
    exec (.requestBufferWrite .app (reqBuf n + 4 * i) .w v) s = .next (wrBytes s (reqBuf n + 4 * i) (le 4 v.toNat))) ∧
  (∀ (n i : Nat) (v : Word) (s : State),
    n < 8 → i < 64 → mayAccess s .host = true → at_ .idle s.mbx.chan n ≠ .busy → chanOwner s n = .host →
    exec (.requestBufferWrite .host (reqBuf n + 4 * i) .w v) s = .next (wrBytes s (reqBuf n + 4 * i) (le 4 v.toNat))) ∧
  (∀ (who : Who) (v : Word) (s : State),
    mayAccess s who = true →
    exec (.registerWrite who 0x4000200C#32 v) s = .next { s with mbx := { s.mbx with ien := v.extractLsb' 0 8 } }) ∧
  (∀ (who : Who) (v : Word) (s : State),
    mayAccess s who = true →
    exec (.registerWrite who 0x40002010#32 v) s =
      .next { s with mbx := { s.mbx with dblate := s.mbx.dblate &&& ~~~(v.extractLsb' 0 8), reqwr := s.mbx.reqwr &&& ~~~(v.extractLsb' 8 8),
                                         notown := s.mbx.notown &&& ~~~(v.extractLsb' 16 8) } }) ∧
  (∀ (n i : Nat) (a b c d : Byte) (s : State),
    n < 6 → i < 128 → mayAccess s .host = true → s.hostp.cs = false → chanOwner s n = .host → at_ .idle s.mbx.chan n ≠ .busy →
    exec (.hostWriteTransaction (0x40#8 :: be 3 (0x200 * n + 4 * i) ++ [a, b, c, d]) false) s =
      .next (let t := wrBytes s (sharedBase + 0x200 * n + 4 * i) [a, b, c, d]
             { t with hostp := { t.hostp with err := false, sdo := [BitVec.ofNat 8 (hostStatus s), 0, 0, 0] } })) ∧
  (∀ (n i : Nat) (s : State),
    n < 8 → i < 128 → mayAccess s .host = true → s.hostp.cs = false → chanOwner s n = .host →
    exec (.hostReadTransaction (0x00#8 :: be 3 (0x200 * n + 4 * i)) 1 false) s =
      .next { s with freeCtr := s.freeCtr + 1, hostp := { s.hostp with
        err := false, sdo := [BitVec.ofNat 8 (hostStatus s), 0, 0, 0] ++ List.replicate (Config.free s.freeCtr % 3) 0 ++ 0x01#8 ::
          rdBytes s (sharedBase + 0x200 * n + 4 * i) 4 } }) ∧
  (∀ (e : Ev) (r : List Ev) (s : State),
    s.mbx.q6.events = e :: r → firmwareServes s = true → at_ .idle s.mbx.chan 6 = .idle →
    exec (.eventWrite 6) s = .next (
      let t := wrBytes s (rspBuf 6) (eventMessage e s.mbx.q6.seq s.mbx.q6.lost)
      { t with mbx := { s.mbx with q6 := { s.mbx.q6 with events := r, lost := 0, seq := (s.mbx.q6.seq + 1) % 65536 }, chan := s.mbx.chan.set 6 .done,
                                   pend := match e.kind with | .completion slot => s.mbx.pend.filter (fun p => p.slot != slot) | _ => s.mbx.pend } })) ∧
  (∀ (e : Ev) (r : List Ev) (s : State),
    s.mbx.q7.events = e :: r → ch7Active s = true → firmwareServes s = true → at_ .idle s.mbx.chan 7 = .idle →
    exec (.eventWrite 7) s = .next (
      let t := wrBytes s (rspBuf 7) (eventMessage e s.mbx.q7.seq s.mbx.q7.lost)
      { t with mbx := { s.mbx with q7 := { s.mbx.q7 with events := r, lost := 0, seq := (s.mbx.q7.seq + 1) % 65536 }, chan := s.mbx.chan.set 7 .done,
                                   pend := match e.kind with | .completion slot => s.mbx.pend.filter (fun p => p.slot != slot) | _ => s.mbx.pend } })) ∧
  (∀ (r : Requester) (s : State), exec (.authLockoutEnd r) s = .next { s with mbx := { s.mbx with lockout := pset s.mbx.lockout r 0 } })

/-- R77, R78: the records of a survey, its capture of quiesced units and its timeout.
R69, R72, R85 to R108, R446: a delayed reset falls due, a mode change drains or times out, and a shot fires. -/
def Obligations.SurveyShotAndDrainSteps : Prop :=
  (∀ (v : SurveyRun) (s : State),
    s.mbx.survey = some v → v.captured = true → firmwareServes s = true → (evq s (evChan7 s v.req)).events.length < 32 → v.units = [] →
    exec .surveyRecord s = .next (updMbx (fun m => { m with survey := none }) (surveyEvent v false
      (surveyPayload v s.clk.mtime 0 (Config.free s.freeCtr % 65536) 0 (Config.free s.freeCtr / 65536 % 65536) (le 2 v.status ++ le 2 v.detail))
      { s with freeCtr := s.freeCtr + 1 }))) ∧
  (∀ (v : SurveyRun) (us : List Nat) (s : State),
    s.mbx.survey = some v → v.captured = true → firmwareServes s = true → (evq s (evChan7 s v.req)).events.length < 32 →
    v.units = 5 :: us → v.part = 0 → v.consistent = false → (linkSurvey s).length ≤ 216 →
    exec .surveyRecord s = .next (updMbx (fun m => { m with survey := some { v with units := us, rest := [], part := 0, index := v.index + 1 } })
      (surveyEvent v false (surveyPayload v s.clk.mtime 5 v.index 0 1 (linkSurvey s)) s))) ∧
  (∀ (v : SurveyRun) (s : State),
    s.mbx.survey = some v → v.consistent = true → v.captured = false → netRuns s = true → v.units = [2, 5] →
    unitQuiesced s none 2 = true → unitQuiesced s none 5 = true →
    exec .surveyCapture s = .next (linkKick (updMbx (fun m => { m with survey := some { v with captured := true, mtime := s.clk.mtime, bodies := [(2, radioSurvey s), (5, linkSurvey s)] } }) s))) ∧
  (∀ (v : SurveyRun) (u : Nat) (us : List Nat) (s : State),
    s.mbx.survey = some v → v.consistent = true → v.captured = false → netRuns s = true → v.units = u :: us → unitQuiesced s none u = false →
    exec .surveyQuiesceTimeout s = .next (linkKick (updMbx (fun m => { m with survey := some { v with captured := true, units := [], status := 0x0402, detail := u } }) s))) ∧
  (∀ (s : State), s.boot.delayed = some .sys → exec .resetDelayExpiry s = .next (takeReset .sys false s)) ∧
  (∀ (s : State), s.boot.delayed = some .ldr → exec .resetDelayExpiry s = .next (takeReset .ldr false s)) ∧
  (∀ (s : State), s.boot.delayed = some .act → exec .resetDelayExpiry s = .next (takeReset .ldr true s)) ∧
  (∀ (d : ModeDrain) (s : State),
    s.pwr.drain = some d → inFlight s = 0 → exchange s = false → d.target ≠ .service →
    exec .modeDrainEnd s = .next (complete d.slot 0 0 (le 1 (modeCode s.pwr.mode) ++ le 1 (modeCode d.target) ++ le 2 0) (enterMode d.target s))) ∧
  (∀ (d : ModeDrain) (s : State),
    s.pwr.drain = some d →
    exec .modeDrainTimeout s = .next (complete d.slot 0x0402 5 (le 1 (modeCode s.pwr.mode) ++ le 1 (modeCode s.pwr.mode) ++ le 2 0)
      (linkKick { s with pwr := { s.pwr with drain := none } }))) ∧
  (∀ (n : Nat) (s : State),
    (shotOf s n).state = .armed → shotDue s (radioIdle s) (shotOf s n) = true → netRuns s = true →
    exec (.shotTrigger n) s = .next { s with shots := { s.shots with buf := s.shots.buf.set n { shotOf s n with state := .quiescing, trigAt := s.clk.mtime, begun := false, saving := false } } }) ∧
  (∀ (n : Nat) (s : State),
    (shotOf s n).state = .armed → (shotOf s n).trigger = 1 → netRuns s = true →
    exec (.shotFrameTimeout n) s = .next { s with shots := { s.shots with buf := s.shots.buf.set n { shotOf s n with state := .quiescing, trigAt := s.clk.mtime, begun := false, saving := false } } }) ∧
  (∀ (n : Nat) (s : State),
    shotNext s n = true → shotWalk (shotOf s n).req [] (shotOf s n).entries 0 s = none →
    exec (.shotQuiesceStart n) s = .next { s with shots := { s.shots with buf := s.shots.buf.set n { shotOf s n with begun := true } } }) ∧
  (∀ (n a m v : Nat) (s : State),
    shotOf s n = { shotOf s n with state := .quiescing, begun := true, saving := false, rxCut := false, persist := false, entries := [.reg a m v] } →
    exec (.shotSwap n) s = .next (resume (shotEnd n true 0 0 s.clk.mtime (shotUs s (shotOf s n)) 0 0 (regEntry a m v s)))) ∧
  (∀ (n : Nat) (s : State),
    (shotOf s n).state = .quiescing → (shotOf s n).saving = false → netRuns s = true →
    exec (.shotBoundExpiry n) s = .next (linkKick (shotEnd n false 0x0402 (firstBusyUnit s (shotOf s n)) 0 (shotUs s (shotOf s n)) 0 0 s))) ∧
  (∀ (n : Nat) (s : State),
    (shotOf s n).state = .quiescing → (shotOf s n).saving = true →
    exec (.shotPersistDone n none) s = .next (shotEnd n true 0 0 (shotOf s n).swapAt (shotOf s n).quiesceUs 0 0 (writeSettings s))) ∧
  (∀ (n k : Nat) (s : State),
    (shotOf s n).state = .quiescing → (shotOf s n).saving = true →
    exec (.shotPersistDone n (some k)) s = .next (shotEnd n true 0x0502 (k % 65536) (shotOf s n).swapAt (shotOf s n).quiesceUs 0 0 s))


/-- R118 to R123, R144, R145, R146: ends of calibrations, measurements and transitions of the radio.
R119, R124 to R141, R345: a transmission starts and ends, one that comes too late is abandoned, and a diversity decision ends. -/
def Obligations.RadioSteps : Prop :=
  (∀ (slot n : Nat) (s : State),
    s.radio.calJob = some (slot, [], n) →
    exec .radioCalDone s = .next (radioKick (complete slot 0 0 (le 1 n ++ le 3 0 ++ le 8 (calMask s)) { s with radio := { s.radio with calJob := none } }))) ∧
  (∀ (m : Measure) (raw : Int) (s : State),
    s.radio.rssi = some m → s.radio.state = .rx → s.radio.goal = none → m.ant = 0 → -280 ≤ raw - s.radio.ext.offA → raw - s.radio.ext.offA ≤ -20 →
    exec (.rssiMeasureEnd raw) s = .next (radioKick (complete m.slot 0 0 (lei 2 (raw - s.radio.ext.offA) ++ le 1 0 ++ le 1 0 ++ le 8 m.start)
      { s with radio := { s.radio with rssi := none } }))) ∧
  (∀ (m : Measure) (raw : Int) (s : State),
    s.radio.rssi = some m → s.radio.state = .rx → s.radio.goal = none → m.ant = 0 → raw - s.radio.ext.offA < -280 →
    exec (.rssiMeasureEnd raw) s = .next (radioKick (complete m.slot 0 0 (lei 2 (-280) ++ le 1 1 ++ le 1 0 ++ le 8 m.start)
      { s with radio := { s.radio with rssi := none } }))) ∧
  (∀ (m : Measure) (rawA rawB : Int) (s : State),
    s.radio.cca = some m → s.radio.state = .rx → s.radio.goal = none → s.dev.variant ≠ .shaft → m.ant = 0 →
    -280 ≤ rawA - s.radio.ext.offA → rawA - s.radio.ext.offA ≤ -20 →
    exec (.ccaListenEnd rawA rawB) s = .next (radioKick (complete m.slot 0 0
      (le 1 (if rawA - s.radio.ext.offA < m.threshold then 0 else 1) ++ le 1 0 ++ lei 2 (rawA - s.radio.ext.offA) ++ le 8 m.start)
      { s with radio := { s.radio with cca := none } }))) ∧
  (∀ (t : TestTx) (q : TxReq) (s : State),
    s.radio.test = some t → s.radio.onAir = some q → q.who = .test →
    exec .testTxEnd s = .next (linkKick (complete t.slot 0 0 (le 4 (t.ms * 1000))
      (updRadio (fun r => { r with test := none }) (tallyEnd q.resv (updRadio (fun r => { r with onAir := none }) s)))))) ∧
  (∀ (g : RadioState) (s : State),
    s.radio.goal = some g → g ≠ .sleep → g ≠ .rx →
    exec .radioTransitionDone s = .next (radioKick { s with radio := { s.radio with
      state := g, goal := none, second := false, tune := if lockedState g then s.radio.tuneGoal else 0 } })) ∧
  (∀ (code slot seg n : Nat) (s : State),
    s.radio.state = .cal → s.radio.calJob = some (slot, [seg], n) →
    exec (.calEnd code) s = .next { s with radio := { s.radio with
      cal := tset none seg (some { code := code, temp := s.radio.temp }) s.radio.cal, everCal := s.radio.everCal ||| 2 ^ seg,
      stats := { s.radio.stats with calFull := inc32 s.radio.stats.calFull }, calJob := some (slot, [], n + 1), state := .idle } }) ∧
  (∀ (code : Nat) (s : State),
    s.radio.state = .cal → s.radio.calJob = none →
    exec (.calEnd code) s = .next { s with radio := { s.radio with
      cal := tset none (segOf s.radio.tuneGoal) (some { code := code, temp := s.radio.temp }) s.radio.cal,
      everCal := s.radio.everCal ||| 2 ^ segOf s.radio.tuneGoal,
      stats := { s.radio.stats with calFull := inc32 s.radio.stats.calFull }, state := .idle, goal := some .locked } }) ∧
  (∀ (s : State),
    locking s = true → s.radio.second = false →
    exec .lockTimeout s = .next (lanesBlank { s with radio := { s.radio with
      state := .cal, goal := none, second := true, cal := tset none (segOf s.radio.tuneGoal) none s.radio.cal } })) ∧
  (∀ (s : State),
    locking s = true → s.radio.second = true →
    exec .lockTimeout s = .next (abandonTold (raise 0x8231 (le 4 (tuneHz s.radio.tuneGoal) ++ le 1 (segOf s.radio.tuneGoal) ++ le 3 0)
      (lanesBlank { s with radio := { s.radio with
        state := .idle, goal := none, second := false, tune := 0,
        stats := { s.radio.stats with lockFail := inc32 s.radio.stats.lockFail } } })))) ∧
  (∀ (temp : Int) (s : State),
    s.radio.state ≠ .sleep → s.radio.state ≠ .rx →
    exec (.tempMeasure temp) s = .next { s with radio := { s.radio with temp := temp, recalWait := false } }) ∧
  (∀ (s : State),
    recalDue s = true → exchange s = false →
    exec .autoRecal s = .next (lanesBlank { s with radio := { s.radio with
      state := .cal, tuneGoal := s.radio.tune, autoCal := true, recalWait := false,
      stats := { s.radio.stats with calAuto := inc32 s.radio.stats.calAuto } } })) ∧
  (∀ (s : State),
    recalDue s = true → s.radio.recalWait = true →
    exec .recalWaitTimeout s = .next (lanesBlank { s with radio := { s.radio with
      state := .cal, tuneGoal := s.radio.tune, autoCal := true, recalWait := false,
      stats := { s.radio.stats with calAuto := inc32 s.radio.stats.calAuto } } })) ∧
  (∀ (s : State),
    s.radio.retune = true → exchange s = false →
    exec .homeRetune s = .next (radioKick { s with radio := { s.radio with home := s.radio.cfg.home, retune := false } })) ∧
  (∀ (q : TxReq) (id vbat : Nat) (temp : Int) (s : State),
    s.radio.held = some q → canStart s q = true → q.who = .ack id → vbat < 65536 →
    exec (.txStart vbat temp) s = .next (linkKick (radiate (radioStart q (startRecord s.radio.cfg q (q.timed.getD s.clk.mtime) temp vbat) (canaryBlank false s))))) ∧
  (∀ (q : TxReq) (id vbat : Nat) (temp : Int) (s : State),
    s.radio.held = some q → canStart s q = true → q.who = .frame id → vbat < 65536 →
    exec (.txStart vbat temp) s = .next (linkKick (radiate (beginFlight id (q.timed.getD s.clk.mtime)
      (radioStart q (startRecord s.radio.cfg q (q.timed.getD s.clk.mtime) temp vbat) (canaryBlank false s)))))) ∧
  (∀ (q : TxReq) (id : Nat) (s : State),
    s.radio.onAir = some q → q.who = .frame id → q.ar = false →
    exec .txEnd s = .next (linkKick (endFlight id 0 tcorrNone (tallyEnd q.resv { s with radio := { s.radio with onAir := none } })))) ∧
  (∀ (q : TxReq) (id : Nat) (s : State),
    s.radio.onAir = some q → q.who = .frame id → q.ar = true →
    exec .txEnd s = .next (linkKick (updFlight id (fun f => { f with phase := .waitAck })
      (updRadio (fun r => { r with awaiting := some id }) (tallyEnd q.resv { s with radio := { s.radio with onAir := none } }))))) ∧
  (∀ (q : TxReq) (id : Nat) (s : State),
    s.radio.onAir = some q → q.who = .ack id →
    exec .txEnd s = .next (linkKick (ackSent id (tallyEnd q.resv { s with radio := { s.radio with onAir := none } })))) ∧
  (∀ (q : TxReq) (s : State),
    s.radio.held = some q → lateNow s q = true →
    exec .txLate s = .next (linkKick (txAbandoned q (abandonHeld s)))) ∧
  (∀ (lane a : Nat) (rssiA rssiB : Int) (s : State),
    s.dev.variant ≠ .shaft → s.radio.div.mode ≠ 0 → s.radio.state = .rx → (laneOf s lane).cfg.phy ≠ 2 →
    ((List.range 16).any fun i => i != lane && (laneOf s i).frame.isSome) = false → a < 2 →
    exec (.divDecisionEnd lane rssiA rssiB (some a)) s = .next { s with radio := { s.radio with
      ant := a, switchedFor := if a = s.radio.ant then none else some lane,
      stats := { s.radio.stats with divIncomplete := inc32 s.radio.stats.divIncomplete } } }) ∧
  (∀ (lane : Nat) (rssiA rssiB : Int) (s : State),
    s.dev.variant ≠ .shaft → s.radio.div.mode ≠ 0 → s.radio.state = .rx → (laneOf s lane).cfg.phy ≠ 2 →
    ((List.range 16).any fun i => i != lane && (laneOf s i).frame.isSome) = false → s.radio.ant = 0 →
    (rssiAt s 0 rssiA).1 + (s.radio.div.hyst : Int) < (rssiAt s 1 rssiB).1 →
    exec (.divDecisionEnd lane rssiA rssiB none) s = .next { s with radio := { s.radio with
      ant := 1, switchedFor := some lane,
      stats := { s.radio.stats with divDecided := inc32 s.radio.stats.divDecided, divSwitched := inc32 s.radio.stats.divSwitched } } })

/-- R26 to R36, R480, R553: the reference, its loss and return, the 32.768 kHz oscillator, its calibration and a read of mesh time.
R112, R477, R498, R670, R679: the supplies come and go, MTIME changes its rate, and an erase is suspended. -/
def Obligations.ClockAndSupplySteps : Prop :=
  (∀ (s : State),
    s.clk.rootsrc = true → s.radio.onAir = none → s.radio.held = none → s.radio.awaiting = none → s.radio.owed = none →
    exec .refFail s = .next (linkKick (updClk (fun c => { c with rootfail := true, refFailed := true, refTry := false })
      (refLost (radioOff (updRadio (fun r => { r with awaiting := none, owed := none, stats := { r.stats with refSleep := inc32 r.stats.refSleep } }) s)))))) ∧
  (∀ (s : State),
    s.clk.refFailed = true → netRuns s = true → exec .refRetry s = .next { s with clk := { s.clk with refTry := true } }) ∧
  (∀ (s : State),
    s.boot.stage = .reference →
    exec .xordy s = .next { s with
      clk := { s.clk with xordy := true, refTry := false,
                          rate := if s.clk.rate == .held && (!s.clk.lfxrdy || s.clk.unstarted) then .reference else s.clk.rate },
      boot := { s.boot with stage := .pll } }) ∧
  (∀ (env : BootEnv) (s : State),
    s.boot.stage ≠ .pll → s.clk.refFailed = true → s.clk.xordy = true → s.clk.rootsrc = false →
    exec (.pllLock env) s = .next (linkKick { s with clk := { s.clk with plllock := true, rootsrc := true, refFailed := false } })) ∧
  (∀ (env : BootEnv) (s : State),
    s.boot.stage = .pll → s.boot.kind ≠ .wake →
    exec (.pllLock env) s = .next (loaderRuns env { s with clk := { s.clk with plllock := true, rootsrc := true, refFailed := false } })) ∧
  (∀ (s : State),
    s.boot.aonLost = false → s.pwr.mode ≠ .shelf →
    exec .lfxrdy s = .next { s with clk := { s.clk with lfxrdy := true }, rtc := { s.rtc with run := true } }) ∧
  (∀ (count : Nat) (s : State),
    s.clk.rootsrc = true → s.clk.lfxrdy = true → count < 2 ^ 24 →
    exec (.scalWindowEnd count) s = .next { s with clk := { s.clk with scalCount := count, scalValid := true } }) ∧
  (∀ (s : State),
    mayAccess s .app = true → exec .mtimeLoRead s = .next { s with clk := { s.clk with mtimeHi := s.clk.mtime / 2 ^ 32 } }) ∧
  (∀ (s : State), exec .vioLoss s = .next { s with boot := { s.boot with vio := false } }) ∧
  (∀ (s : State), exec .vioReturn s = .next { s with boot := { s.boot with vio := true } }) ∧
  (∀ (s : State),
    s.boot.backup = true →
    exec .vbkupLoss s = .next { s with
      boot := { s.boot with aonLost := true, backup := false, stage := .held },
      clk := { s.clk with lfxrdy := false, rate := .held, sync := false },
      rtc := { s.rtc with run := false } }) ∧
  (∀ (s : State), s.boot.backup = false → exec .vbkupLoss s = .next s) ∧
  (∀ (s : State),
    s.clk.lfxrdy = true → mtimeRuns s = true → s.clk.xordy = true → s.pwr.phase = .awake →
    exec .mtimeRateHandover s = .next { s with clk := { s.clk with rate := .reference, slow := false } }) ∧
  (∀ (s : State),
    s.clk.lfxrdy = true → mtimeRuns s = true → s.clk.xordy = false → s.clk.unstarted = false → s.pwr.phase = .awake →
    exec .mtimeRateHandover s = .next { s with clk := { s.clk with rate := .slow, slow := s.clk.refFailed } }) ∧
  (∀ (plane : Nat) (o : FOp) (r : Nat) (s : State),
    planeSt s plane = .erasing o r →
    exec (.eraseSuspended plane) s = .next (spoilBlock (o.addr / blk) (setPlane plane (.suspended o)
      { s with flash := { s.flash with suspends := inc32 s.flash.suspends } })))


/-- R164, R172, R173, R177 to R179, R189, R190, R194, R204, R211 to R213, R215: a lane finds a frame, reads its header and takes it or counts why not.
R222 to R244, R320: the canary receives, repeats, counts and sends. -/
def Obligations.LaneAndCanarySteps : Prop :=
  (∀ (lane path stamp : Nat) (coded : Bool) (s : State),
    s.dev.variant = .face → laneState s lane = 2 → laneStopped s lane = false → pathFrozen s 0 = true → stamp < mtMod →
    exec (.laneSofDetect lane path coded stamp) s = .next (updRadio (fun r => { r with switchedFor := none })
      (updLane lane (fun l => { l with frame := some {
          stamp := stamp, path := s.radio.ant, switched := s.radio.switchedFor == some lane, len := none,
          coded := coded && (laneOf s lane).cfg.phy == 1, white := false, mcs := 0, weak := 0, eqReset := false } })
        (updLane lane (fun l => { l with stats := { l.stats with sof := inc32 l.stats.sof } }) s)))) ∧
  (∀ (lane : Nat) (f : LaneFrame) (white : Bool) (len : BitVec 11) (s : State),
    (laneOf s lane).frame = some f → (laneOf s lane).cfg.phy = 1 → f.len = none → 5 ≤ len.toNat →
    exec (.laneHeader lane (.fsk true false false white len)) s = .next (updLane lane (fun l =>
      { l with frame := some { f with len := some len.toNat, white := white, mcs := 0 } }) s)) ∧
  (∀ (lane : Nat) (f : LaneFrame) (ms fcs2 white : Bool) (len : BitVec 11) (s : State),
    (laneOf s lane).frame = some f → (laneOf s lane).cfg.phy = 1 → f.len = none →
    exec (.laneHeader lane (.fsk false ms fcs2 white len)) s = .next (updLane lane Lane.endFrame
      (updLane lane (fun l => { l with stats := { l.stats with hdrFail := inc32 l.stats.hdrFail } }) s))) ∧
  (∀ (lane : Nat) (f : LaneFrame) (energy : Bool) (s : State),
    (laneOf s lane).frame = some f → (laneOf s lane).cfg.phy = 3 → 3 ≤ f.weak →
    exec (.seamPilotBlock lane true energy) s = .next (updLane lane Lane.endFrame
      (updLane lane (fun l => { l with stats := { l.stats with trackLost := inc32 l.stats.trackLost } }) s))) ∧
  (∀ (lane : Nat) (f : LaneFrame) (s : State),
    (laneOf s lane).frame = some f → (laneOf s lane).cfg.phy = 3 → (laneOf s lane).cfg.phycfg.testBit 3 = false →
    exec (.seamPilotBlock lane false true) s = .next (updLane lane (fun l => { l with frame := some { f with weak := 0, eqReset := true } })
      (updLane lane (fun l => { l with stats := { l.stats with eqResets := inc32 l.stats.eqResets } }) s))) ∧
  (∀ (lane : Nat) (f : LaneFrame) (r : LaneRes) (s : State),
    (laneOf s lane).frame = some f → f.len = some r.psdu.length → fcsOk r.psdu = false → damagedAck s r.psdu = none →
    exec (.laneFcsResult lane r) s = .next (linkKick (updLane lane Lane.endFrame
      (updLane lane (fun l => { l with stats := { l.stats with fcsFail := inc32 l.stats.fcsFail } }) s)))) ∧
  (∀ (lane : Nat) (f : LaneFrame) (r : LaneRes) (s : State),
    (laneOf s lane).frame = some f → f.len = some r.psdu.length → fcsOk r.psdu = true → s.dev.variant ≠ .shaft →
    isCopy s (unle (r.psdu.drop (r.psdu.length - 4))) f.stamp = false →
    exec (.laneFcsResult lane r) s = .next (linkKick (updLane lane Lane.endFrame (deliverLane lane f r (updRadio (fun x => { x with heard := true })
      (updLane lane (fun l => { l with stats := { l.stats with rxOk := inc32 l.stats.rxOk } }) s))))) ) ∧
  (∀ (s : State),
    pathRuns s 0 = true →
    exec (.agcClip 0) s = .next { s with lanes := { s.lanes with agcA :=
      { gain := s.lanes.agcA.gain - 6, clip := inc32 s.lanes.agcA.clip, forced := inc32 s.lanes.agcA.forced } } }) ∧
  (∀ (path : Nat) (s : State),
    pathRuns s path = true → path ≠ 0 →
    exec (.agcClip path) s = .next { s with lanes := { s.lanes with agcB :=
      { gain := s.lanes.agcB.gain - 6, clip := inc32 s.lanes.agcB.clip, forced := inc32 s.lanes.agcB.forced } } }) ∧
  (∀ (q : TxReq) (w : WakeSend) (s : State),
    s.radio.onAir = some q → s.canary.send = some w → q.who = .wake → w.resync = none →
    exec .canarySendEnd s = .next (linkKick (wakeDone w 0 0 (28000 * w.rep) (tallyEnd q.resv (updRadio (fun r => { r with onAir := none }) s))))) ∧
  (∀ (s : State),
    canaryRuns s = true → s.canary.phase = .listen → quiescing s 4 = false →
    exec .preambleSeen s = .next { s with canary := { s.canary with
      phase := .sequence, stats := { s.canary.stats with preambleSeen := inc32 s.canary.stats.preambleSeen } } }) ∧
  (∀ (s : State),
    canaryRuns s = true → s.canary.phase = .sequence →
    exec .manchesterViolation s = .next { s with canary := { s.canary with
      phase := .listen, cfg := s.canary.next.getD s.canary.cfg, next := none,
      stats := { s.canary.stats with decodeFail := inc32 s.canary.stats.decodeFail, falseWake := inc32 s.canary.stats.falseWake } } }) ∧
  (∀ (r : WakeSeq) (s : State),
    canaryRuns s = true → s.canary.phase = .sequence → wakeCrc (r.address % 2 ^ 25) (r.group % 128) ≠ r.crc →
    exec (.canarySequenceEnd r) s = .next { s with canary := { s.canary with
      phase := .listen, cfg := s.canary.next.getD s.canary.cfg, next := none,
      stats := { s.canary.stats with decodeFail := inc32 s.canary.stats.decodeFail, falseWake := inc32 s.canary.stats.falseWake } } }) ∧
  (∀ (r : WakeSeq) (s : State),
    canaryRuns s = true → s.canary.phase = .sequence → wakeCrc (r.address % 2 ^ 25) (r.group % 128) = r.crc → wakeRepeats s r = true →
    exec (.canarySequenceEnd r) s = .next { s with canary := { s.canary with
      phase := .listen, cfg := s.canary.next.getD s.canary.cfg, next := none, repeatOf := some (r.address, r.group, r.crc, r.at_),
      stats := { s.canary.stats with repeatSeen := inc32 s.canary.stats.repeatSeen } } }) ∧
  (∀ (r : WakeSeq) (s : State),
    canaryRuns s = true → s.canary.phase = .sequence → wakeCrc (r.address % 2 ^ 25) (r.group % 128) = r.crc →
    wakeRepeats s r = false → wakeKind s (r.address % 2 ^ 25) (r.group % 128) = 1 →
    exec (.canarySequenceEnd r) s = .next (updCanary Canary.endSequence (latchSet 3 { s with canary := { s.canary with
      repeatOf := some (r.address, r.group, r.crc, r.at_), mMtime := r.at_ % mtMod, mAddress := r.address % 2 ^ 25,
      mGroup := r.group % 128, mKind := 1, mSlot := s.canary.cfg.active, eventDue := true,
      stats := { s.canary.stats with matchUnicast := inc32 s.canary.stats.matchUnicast } } }))) ∧
  (∀ (s : State),
    s.canary.eventDue = true → netRuns s = true → s.canary.mKind ≠ 1 → s.canary.cfg.matchBits.testBit 3 = true →
    exec .canaryMatch s = .next (raiseAt s.canary.mMtime 0x8420
      (le 4 s.canary.mAddress ++ le 1 s.canary.mGroup ++ le 1 s.canary.mKind ++ le 1 s.canary.mSlot ++ le 1 0)
      { s with canary := { s.canary with eventDue := false }, pwr := { s.pwr with latch := setBit s.pwr.latch 3 false } })) ∧
  (∀ (s : State),
    s.canary.phase = .blanked → s.radio.onAir = none →
    exec .canaryBlankEnd s = .next { s with canary := { s.canary with phase := .listen } })

/-- R254 to R286: joining, receiving, acknowledging, and taking and retrying frames.
R292 to R320: mesh time is stepped and windows, beacons, resynchronisations and calendars fall due. -/
def Obligations.LinkAndTimingSteps : Prop :=
  (∀ (j : Join) (t s : State),
    s.link.join = some j → j.left ≠ 0 → mtReached j.nextAt s.clk.mtime = true → sendJoinReq j s = some t →
    exec .joinReqInterval s = .next (linkKick (updLink (fun l =>
      { l with join := some { j with left := j.left - 1, nextAt := mtAdd j.nextAt (usTicks (1000 * j.intervalMs) : Nat) } }) t))) ∧
  (∀ (j : Join) (s : State),
    s.link.join = some j → mtReached j.endAt s.clk.mtime = true → s.link.flight = [] →
    exec .joinTimeout s = .next (linkKick (complete j.slot 0 0 (le 1 2 ++ le 19 0) (updLink (fun l => { l with join := none }) s)))) ∧
  (∀ (n : Nat) (x : RxFrame) (s : State),
    rxOf s n = some x → x.phase = .fresh → isAckFrame x.psdu = false → parseFrame x.psdu = none →
    exec (.frameReceive n) s = .next (linkKick (dropRx x.id (fun c => { c with badFrame := inc32 c.badFrame }) s))) ∧
  (∀ (n : Nat) (x : RxFrame) (f : Rxf) (s : State),
    rxOf s n = some x → x.phase = .fresh → isAckFrame x.psdu = false → parseFrame x.psdu = some f →
    joinReqOk s f = false → joinReplyOk s f = false → f.net ≠ s.link.cfg.net →
    exec (.frameReceive n) s = .next (linkKick (dropRx x.id (fun c => { c with otherNet := inc32 c.otherNet }) s))) ∧
  (∀ (n : Nat) (x : RxFrame) (f : Rxf) (s : State),
    rxOf s n = some x → parseFrame x.psdu = some f → x.ack = .due → x.phase ≠ .closed → ackCollides s = true →
    exec (.ackDecision n) s = .next (linkKick (updRx x.id (fun y => { y with ack := .none })
      (linkStat (fun c => { c with ackCollide := inc32 c.ackCollide }) s)))) ∧
  (∀ (n : Nat) (x : RxFrame) (f : Rxf) (g : List Byte) (s : State),
    rxOf s n = some x → parseFrame x.psdu = some f → x.phase = .micPending → quiescing s 5 = false → f.sec = true →
    openFrame s x f = (g, true) →
    exec (.micResult n .none) s = .next (linkKick (acceptFrame x f g
      (cipherStat (fun c => { c with checked := inc32 c.checked }) (maskUse (2 * x.psdu.length) s))))) ∧
  (∀ (n : Nat) (x : RxFrame) (f : Rxf) (g : List Byte) (s : State),
    rxOf s n = some x → parseFrame x.psdu = some f → x.phase = .micPending → quiescing s 5 = false → f.sec = true → x.ack = .none →
    openFrame s x f = (g, false) →
    exec (.micResult n .none) s = .next (linkKick (closeRx x.id (updRx x.id (fun y => { y with ack := if y.ack = .due then .none else y.ack })
      (linkStat (fun c => { c with micFail := inc32 c.micFail })
        (cipherStat (fun c => { c with checked := inc32 c.checked }) (maskUse (2 * x.psdu.length) s))))))) ∧
  (∀ (h : Nat × Nat) (s : State),
    s.radio.pendHold = some h → mtReached h.1 s.clk.mtime = true →
    exec .pendHoldEnd s = .next (radioKick (updRadio (fun r => { r with pendHold := none }) s))) ∧
  (∀ (flow : Nat) (r : Released) (s : State),
    (s.link.released.find? fun r => r.flow == flow) = some r → linkModes s = true → working s 5 = true →
    r.packet.ue = false → (hopOf (updLink (fun l => { l with released := l.released.erase r }) s) r.packet.bytes) = .badDesc →
    exec (.linkTakeFrame flow .none) s = .next (linkKick (endTaken r 3 (updLink (fun l => { l with released := l.released.erase r }) s)))) ∧
  (∀ (flow i : Nat) (lim : Option Nat) (r : Released) (s : State),
    let t := updLink (fun l => { l with released := l.released.erase r }) s
    (s.link.released.find? fun r => r.flow == flow) = some r → linkModes s = true → working s 5 = true →
    r.packet.ue = false → hopOf t r.packet.bytes = .nbr i lim →
    exec (.linkTakeFrame flow .none) s = .next (linkKick (secureFlight (buildFlight t r (.nbr i lim)).id
      (updNbr i (fun n => { n with txSeq := (n.txSeq + 1) % 4096 })
        (updLink (fun l => { l with flight := l.flight ++ [buildFlight t r (.nbr i lim)], nextId := l.nextId + 1 }) t))))) ∧
  (∀ (n id : Nat) (x : RxFrame) (s : State),
    rxOf s n = some x → s.radio.awaiting = some id → x.phase = .fresh → isAckFrame x.psdu = true →
    exec (.ackReceive n) s = .next (linkKick (ackReceived x id s))) ∧
  (∀ (id : Nat) (s : State),
    s.radio.awaiting = some id →
    exec .ackWaitExpiry s = .next (linkKick (attemptFailed id false (updRadio (fun r => { r with awaiting := none }) s)))) ∧
  (∀ (n t : Nat) (f : Flight) (s : State),
    flightOf s n = some f → f.phase = .backoff t → mtReached t s.clk.mtime = true →
    exec (.retryBackoffEnd n) s = .next (linkKick (updFlight n (fun g => { g with phase := .ready t }) s))) ∧
  (∀ (s : State),
    s.link.drop.noRoute ≠ 0 → secondPast s.link.dropEvent s = true →
    exec .linkDrop s = .next (raise 0x8562 (
      le 2 s.link.drop.hopsExpired ++ le 2 s.link.drop.noRoute ++ le 2 s.link.drop.nhDown ++ le 2 s.link.drop.fwdOff ++ le 2 s.link.drop.fwdQfull ++
        le 2 s.link.drop.rxQfull ++ le 4 s.link.drop.lastFinalDst)
      (updLink (fun l => { l with drop := .zero, dropEvent := some s.clk.mtime }) s))) ∧
  (∀ (d : Int) (src : Nat) (s : State),
    s.timing.pendingStep = [(d, src)] → exchange s = false →
    exec .mtimeStep s = .next (linkKick (applyStep d src (updTiming (fun t => { t with pendingStep := [] }) s)))) ∧
  (∀ (s : State),
    quiescing s 6 = false → calWanted s = [] →
    exec .calendarOverflowMove s = .next { s with timing := { s.timing with calendar := [] } }) ∧
  (∀ (at_ : Nat) (k : CalKind) (s : State),
    quiescing s 6 = false → calWanted s = [(at_, k)] → mtReached (mtAdd at_ (-(calHorizon : Int))) s.clk.mtime = true →
    exec .calendarOverflowMove s = .next { s with timing := { s.timing with calendar := [{ at_ := at_, kind := k, wheel := true }] } }) ∧
  (∀ (k : Nat) (s : State),
    ownNext s = some k → s.timing.window = none → s.timing.listen = none → working s 6 = true → s.pwr.drain = none → exchange s = false →
    mtLater (openFrom s ((ownSched s).centre k)) s.clk.mtime = false →
    mtLater s.clk.mtime (mtAdd ((ownSched s).centre k) (usTicks (guardUs s (timeSource s) ((ownSched s).centre k)) : Nat)) = false →
    exec .ownWindowOpen s = .next (linkKick { s with timing := { s.timing with
      nextK := k + 1, window := some { ck := (ownSched s).centre k, tune := (ownSched s).tune s k,
                                       guardUs := guardUs s (timeSource s) ((ownSched s).centre k), kept := false },
      stats := { s.timing.stats with winOpened := inc32 s.timing.stats.winOpened } } })) ∧
  (∀ (k : Nat) (s : State),
    ownNext s = some k → s.timing.window = none → s.timing.listen = none → working s 6 = true → s.pwr.drain = none → exchange s = true →
    mtLater (openFrom s ((ownSched s).centre k)) s.clk.mtime = false →
    mtLater s.clk.mtime (mtAdd ((ownSched s).centre k) (usTicks (guardUs s (timeSource s) ((ownSched s).centre k)) : Nat)) = false →
    exec .ownWindowOpen s = .next { s with timing := { s.timing with
      nextK := k + 1, stats := { s.timing.stats with winSkipped := inc32 s.timing.stats.winSkipped } } }) ∧
  (∀ (w : OwnWindow) (s : State),
    s.timing.window = some w → mtLater (mtAdd w.ck (usTicks w.guardUs : Nat)) s.clk.mtime = false → exchange s = false → s.link.rx = [] →
    bit s.timing.cfg.flags 1 = false →
    exec .ownWindowClose s = .next (linkKick (updTiming (fun t => { t with window := none }) s))) ∧
  (∀ (i : Nat) (t s : State),
    bit s.timing.cfg.flags 1 = true → (nbrOf s i).state = .active → (nbrOf s i).rdv = true → bit (nbrOf s i).flags 1 = true →
    (nbrSched (nbrOf s i)).period ≠ 0 → linkModes s = true → working s 6 = true → nbrBusy s i = false → s.link.flight = [] →
    mtReached ((nbrSched (nbrOf s i)).centre ((nbrSched (nbrOf s i)).first (s.clk.mtime + ms2))) (mtAdd (s.clk.mtime + ms2) (periodTicks : Nat)) = true →
    beaconTo .keepalive (some i) s.radio.home true s = some t →
    exec (.keepaliveBeacon i) s = .next (linkKick t)) ∧
  (∀ (i : Nat) (r : Resync) (t s : State),
    resyncOf s i = some r → r.stage = 2 → mtReached r.due s.clk.mtime = true → r.beacons < 3 → linkModes s = true → working s 6 = true →
    s.link.flight = [] →
    beaconTo .resyncBeacon (some i) (seqTune s (nbrSched (nbrOf s i)).seq 0 s.clk.mtime) false (putResync { r with beacons := r.beacons + 1 } s) = some t →
    exec (.resyncBeacon i) s = .next (linkKick t)) ∧
  (∀ (i : Nat) (r : Resync) (s : State),
    resyncOf s i = some r → r.stage = 0 → mtReached r.due s.clk.mtime = true → working s 6 = true →
    exec (.resyncInterval i) s = .next (linkKick (updTiming (fun t =>
      { t with stats := { t.stats with resyncStarted := inc32 t.stats.resyncStarted },
               resync := t.resync.filter (fun x => x.nbr != i) ++ [{ nbr := i, slot := none, stage := 1, beacons := 0, due := s.clk.mtime }] })
      (updNbr i (fun e => { e with state := .resync }) s)))) ∧
  (∀ (l : Nat × Nat) (s : State),
    s.timing.listen = some l → mtReached l.1 s.clk.mtime = true →
    exec .resyncListenEnd s = .next (linkKick (updTiming (fun t => { t with listen := none }) s)))


/-- R336 to R346, R357 to R371, R381 to R399: airtime is tallied, queues are filled and emptied and the scheduler goes on. -/
def Obligations.FlowSteps : Prop :=
  (∀ (s : State),
    s.clk.lfxrdy = true → bucketPeriods ≤ s.tally.clock + 1 →
    exec .bucketRoll s = .next (linkKick (updTally (fun t =>
      { t with cur := (t.cur + 1) % 60, clock := 0,
               band := t.band.map (fun b => { b with total := b.total.set ((t.cur + 1) % 60) 0, ack := b.ack.set ((t.cur + 1) % 60) 0 }) }) s))) ∧
  (∀ (q : TxReq) (b : Nat) (rssiA rssiB : Int) (s : State),
    s.radio.held = some q → s.radio.lbtPhase = 1 → s.radio.state = .rx → s.radio.goal = none → lbtBand s q = some b →
    (ccaMean s q.ant rssiA rssiB).1 < (bandOf s b).cfg.lbtThreshold →
    exec (.lbtListenEnd rssiA rssiB) s = .next (linkKick (updRadio (fun r => { r with lbtPhase := 0 }) s))) ∧
  (∀ (q : TxReq) (b : Nat) (rssiA rssiB : Int) (s : State),
    s.radio.held = some q → s.radio.lbtPhase = 1 → s.radio.state = .rx → s.radio.goal = none → lbtBand s q = some b → q.timed = none → 2 ≤ q.lbt →
    (bandOf s b).cfg.lbtThreshold ≤ (ccaMean s q.ant rssiA rssiB).1 →
    exec (.lbtListenEnd rssiA rssiB) s = .next (linkKick (updRadio (fun r =>
      { r with held := some { q with lbt := q.lbt - 1 }, lbtPhase := 2,
               lbtUntil := mtAdd s.clk.mtime (usTicks (1000 * ((bandOf s b).cfg.boMinMs +
                 Config.free s.freeCtr % ((bandOf s b).cfg.boMaxMs - (bandOf s b).cfg.boMinMs + 1))) : Nat) })
      { genUse (updBand b (fun x => { x with lbtBusy := inc32 x.lbtBusy }) s) with freeCtr := s.freeCtr + 1 }))) ∧
  (∀ (q : TxReq) (s : State),
    s.radio.held = some q → s.radio.lbtPhase = 2 → mtReached s.radio.lbtUntil s.clk.mtime = true →
    exec .lbtBackoffEnd s = .next (radioKick (updRadio (fun r => { r with lbtPhase := 1 }) s))) ∧
  (∀ (s : State),
    s.tally.refBands ≠ 0 → secondPast s.tally.refEvent s = true →
    exec .tallyRefuse s = .next (updTally (fun t => { t with refBands := 0, refLast := 0xFF, refUs := 0, refEvent := some s.clk.mtime })
      (raise 0x8730 (le 2 s.tally.refBands ++ le 1 s.tally.refLast ++ le 1 0 ++ le 4 s.tally.refUs) s))) ∧
  (∀ (who : Who) (q waddr n : Nat) (s : State),
    mayAccess s who = true → q < Config.queues s.dev.variant → 0x400 ≤ waddr → waddr < 8192 → 8 ≤ n → n ≤ 2112 → waddr * 4 + n ≤ 0x8000 →
    (queueOf s q).broken = false → admits s q (cellsFor n) = true → s.qm.stalls = [] →
    exec (.qmPush who q (BitVec.ofNat 32 (waddr + 2 ^ 13 * n))) s = .next (linkKick (updQueue q (fun x =>
      let y : Queue := { x with packets := x.packets ++ [{ cells := (allocCells (cellsFor n) s).2, bytes := rdBytes s (sharedBase + 4 * waddr) n, ue := false }] }
      { y with highWater := max y.highWater y.count })
      (updQm (fun m => { m with stats := { m.stats with pushOk := inc32 m.stats.pushOk } }) (allocCells (cellsFor n) s).1)))) ∧
  (∀ (who : Who) (q waddr n : Nat) (s : State),
    mayAccess s who = true → q < Config.queues s.dev.variant → waddr < 0x400 → n < 4096 →
    exec (.qmPush who q (BitVec.ofNat 32 (waddr + 2 ^ 13 * n))) s = .next (linkKick
      (updQm (fun m => { m with stats := { m.stats with pushBad := inc32 m.stats.pushBad } }) (updQueue q (fun x => { x with badPush := true }) s)))) ∧
  (∀ (who : Who) (q waddr cap : Nat) (p : Packet) (rest : List Packet) (s : State),
    mayAccess s who = true → q < Config.queues s.dev.variant → (queueOf s q).kind ≠ 1 → (queueOf s q).broken = false →
    (queueOf s q).packets = p :: rest → landing s (whoMaster who) q = some (waddr, cap) → p.bytes.length ≤ cap → p.ue = false →
    exec (.qmPop who q .none) s = .next (linkKick (setResult (whoMaster who) p.bytes.length
      (updQm (fun m => { m with stats := { m.stats with popOk := inc32 m.stats.popOk } })
        (releaseCells p.cells (updQueue q (fun x => { x with packets := rest }) (wrBytes s (sharedBase + 4 * waddr) (wholeWords p.bytes)))))))) ∧
  (∀ (who : Who) (q waddr n : Nat) (s : State),
    mayAccess s who = true → q < Config.queues s.dev.variant → 0x400 ≤ waddr → waddr < 8192 → 1 ≤ n → n < 4096 → waddr * 4 + n ≤ 0x8000 →
    exec (.qmLandingWrite who q (BitVec.ofNat 32 (waddr + 2 ^ 13 * n))) s = .next (updQueue q (fun x =>
      { x with landApp := if who = .app then some (waddr, n) else x.landApp, landHost := if who = .host then some (waddr, n) else x.landHost }) s)) ∧
  (∀ (x : Stall) (s : State),
    s.qm.stalls = [x] → x.master = .app → (queueOf s x.queue).stall ≠ 0 →
    exec (.popStallExpired .app) s = .next (endStall x emptyToken
      (updQm (fun m => { m with stats := { m.stats with popEmpty := inc32 m.stats.popEmpty } }) (updQueue x.queue (fun y => { y with stallExpired := true }) s)))) ∧
  (∀ (s : State),
    releasing s = true → atLimit s = false → schedPick (schedScan s) = none →
    exec .schedRelease s = .next (linkKick (schedScan s))) ∧
  (∀ (i : Nat) (p : Packet) (s : State),
    releasing s = true → atLimit s = false → schedPick (schedScan s) = some i → flowHead (schedScan s) (flowOf (schedScan s) i) = some p →
    packetUs (schedScan s) p = none →
    exec .schedRelease s = .next (linkKick (releaseFlow i p (schedScan s)))) ∧
  (∀ (s : State),
    netRuns s = true →
    exec .shaperRefill s = .next (linkKick (schedScan (updSched (fun x =>
      { x with lastRefill := s.clk.mtime, shaper := tmap Shaper.reset Shaper.refill x.shaper }) s)))) ∧
  (∀ (i t : Nat) (s : State),
    (flowOf s i).eligible = some t → mtReached t s.clk.mtime = true → (flowOf s i).block = 4 →
    exec (.wheelEligible i) s = .next (linkKick (scanFlow (putFlow i { flowOf s i with block := 0, eligible := none } s) i))) ∧
  (∀ (s : State),
    s.sched.blkCount ≠ 0 → secondPast s.sched.blkEvent s = true →
    exec .schedBlocked s = .next (raise 0x8930
      (le 2 s.sched.blkCount ++ le 2 s.sched.blkFlow ++ le 1 s.sched.blkBand ++ le 1 s.sched.blkReason ++ le 2 0)
      (updSched (fun y => { y with blkCount := 0, blkEvent := some s.clk.mtime }) s)))


/-- R405 to R432: operations of the cipher engine end, counters are reserved, and the generator reseeds, halts and restarts.
R447 to R465: entries to NAP and HIBERNATE, wake sources, the timers and the pads. -/
def Obligations.CipherAndPowerSteps : Prop :=
  (∀ (n : Nat) (key p : List Byte) (s : State),
    s.cipher.job = some (.run n key p) → u8 p 1 = 0 →
    exec .cipherRunDone s = .next (
      let x := ccmEncrypt key (slice p 16 (u8 p 3)) (rdBytes s (sharedBase + 4 * u16 p 4) (u16 p 6)) (rdBytes s (sharedBase + 4 * u16 p 8) (u16 p 10)) (u8 p 2)
      complete n 0 0 (le 1 0 ++ le 1 (u8 p 2) ++ le 2 0 ++ slice x.2 0 16)
        (updCipher (fun c => { c with job := none, stats := { c.stats with appOps := inc32 c.stats.appOps } })
          (wrBytes (maskUse (u16 p 10 + u16 p 6) s) (sharedBase + 4 * u16 p 12) x.1)))) ∧
  (∀ (n : Nat) (key p : List Byte) (s : State),
    s.cipher.job = some (.run n key p) → u8 p 1 = 4 →
    exec .cipherRunDone s = .next (
      complete n 0 0 (le 1 0 ++ le 1 (u8 p 2) ++ le 2 0 ++ slice ((cmac key (rdBytes s (sharedBase + 4 * u16 p 8) (u16 p 10))).take (u8 p 2)) 0 16)
        (updCipher (fun c => { c with job := none, stats := { c.stats with appOps := inc32 c.stats.appOps } }) (maskUse (u16 p 10 + u16 p 6) s)))) ∧
  (∀ (slot a n : Nat) (s : State),
    s.cipher.job = some (.hash slot false a n) → cryptoOn s = true →
    exec .hashRunDone s = .next (complete slot 0 0 (sha256 (rdBytes s (sharedBase + a) n)) (updCipher (fun c => { c with job := none }) s))) ∧
  (∀ (n : Nat) (p : List Byte) (s : State),
    s.cipher.job = some (.verify n p) → ecdsaVerify (slice p 0 32) (slice p 32 64) (slice p 96 64) = 0 →
    exec .sigVerifyDone s = .next (complete n 0 0 (le 1 0 ++ le 3 0) (updCipher (fun c => { c with job := none }) s))) ∧
  (∀ (k : Nat) (s : State),
    cryptoOn s = true → (ctrOf s k).writing = true →
    exec (.fcReserveWrite k none) s = .next (linkKick (updCipher (fun c => { c with stats := { c.stats with reserveWrites := inc32 c.stats.reserveWrites } })
      (putRecord k { recordOf s k with fcReserved := nextReserve (ctrOf s k).fcReserved }
        (putCtr k { ctrOf s k with writing := false, faulted := false, fcReserved := nextReserve (ctrOf s k).fcReserved } s))))) ∧
  (∀ (k b : Nat) (s : State),
    cryptoOn s = true → (ctrOf s k).writing = true → (ctrOf s k).faulted = false →
    exec (.fcReserveWrite k (some b)) s = .next (linkKick (raise 0x8A30 (le 1 4 ++ le 1 k ++ le 2 0)
      (putCtr k { ctrOf s k with writing := false, faulted := true } s)))) ∧
  (∀ (s : State),
    cryptoOn s = true →
    exec .fcReserveRetry s = .next { s with cipher := { s.cipher with
      ctr := s.cipher.ctr.map (fun e => (e.1, if e.2.faulted then { e.2 with writing := true } else e.2)) } }) ∧
  (∀ (s : State),
    cryptoOn s = true → s.cipher.source ≠ .fault → s.cipher.halt = false →
    exec (.drbgReseed true) s = .next (linkKick (updCipher (fun c =>
      { c with maskReq := 0, reseedAt := s.clk.mtime, halt := false, stats := { c.stats with reseeds := inc32 c.stats.reseeds } }) s))) ∧
  (∀ (s : State),
    cryptoOn s = true → s.cipher.source ≠ .fault → s.cipher.halt = false →
    exec (.drbgReseed false) s = .next (linkKick (updCipher (fun c =>
      { c with genReq := 0, reseedAt := s.clk.mtime, halt := false, stats := { c.stats with reseeds := inc32 c.stats.reseeds } }) s))) ∧
  (∀ (s : State),
    cryptoOn s = true → s.cipher.halt = false → 2 ^ 20 ≤ s.cipher.maskReq →
    exec (.cipherHalt true) s = .next (raise 0x8A30 (le 1 2 ++ le 1 0xFF ++ le 2 0) (updCipher (fun c => { c with halt := true }) s))) ∧
  (∀ (s : State),
    cryptoOn s = true → s.cipher.source = .running →
    exec .healthFail s = .next { s with cipher := { s.cipher with
      source := .restarting, restarts := 0, stats := { s.cipher.stats with healthFail := inc32 s.cipher.stats.healthFail } } }) ∧
  (∀ (s : State),
    cryptoOn s = true → s.cipher.source ≠ .running →
    exec (.sourceRestartEnd true) s = .next { s with cipher := { s.cipher with source := .running, restarts := 0 } }) ∧
  (∀ (s : State),
    cryptoOn s = true → s.cipher.source = .restarting → 2 ≤ s.cipher.restarts →
    exec (.sourceRestartEnd false) s = .next (raise 0x8A30 (le 1 1 ++ le 1 0xFF ++ le 2 0) (updCipher (fun c =>
      { c with source := .fault, restarts := c.restarts + 1, stats := { c.stats with healthFail := inc32 c.stats.healthFail } }) s))) ∧
  (∀ (v : Word) (s : State),
    mayAccess s .app = true → bit v 8 = false →
    exec (.pwrSleepWrite v) s = .next { s with pwr := { s.pwr with sleepDepth := codeDepth (v.toNat % 4) } }) ∧
  (∀ (v : Word) (s : State),
    mayAccess s .app = true → bit v 8 = true → codeDepth (v.toNat % 4) ≠ .none →
    exec (.pwrSleepWrite v) s = .next (sleepTry .app (updCore (fun c => { c with run := .stalledSleep })
      (updPwr (fun p => { p with sleepDepth := codeDepth (v.toNat % 4), appDepth := codeDepth (v.toNat % 4), result := 0, resultDepth := .none }) s)))) ∧
  (∀ (d : Depth) (s : State),
    netRuns s = true → s.pwr.phase = .awake → 2 ≤ depthCode (modeDepth s.pwr.mode (shallower d (shallower (sideDepth s) (netLimit s)))) →
    exec (.networkScheduledSleep d) s = .next (sleepBegin (modeDepth s.pwr.mode (shallower d (shallower (sideDepth s) (netLimit s)))) .net s)) ∧
  (∀ (s : State),
    s.pwr.phase = .preparing → unitsDone s = true → s.pwr.seeking = .nap → s.pwr.latch = 0 →
    exec .sleepCommit s = .next (radioOff (updPwr (fun p => { p with phase := .committed, latchAt := none }) s))) ∧
  (∀ (s : State),
    s.pwr.phase = .preparing → unitsDone s = true → s.pwr.seeking = .hibernate → s.pwr.mode ≠ .shelf → s.pwr.latch = 0 →
    exec .sleepCommit s = .next (hibernateCommit (radioOff (updPwr (fun p => { p with phase := .committed, latchAt := none }) s)))) ∧
  (∀ (s : State),
    s.pwr.phase = .preparing → unitsDone s = true → s.pwr.seeking = .nap → s.pwr.latch ≠ 0 →
    exec .sleepCommit s = .next (sleepAbort s)) ∧
  (∀ (s : State),
    s.pwr.phase = .committed → s.pwr.seeking = .nap → s.core.run ≠ .stalledSleep →
    exec .napReached s = .next { s with pwr := { s.pwr with phase := .asleep }, clk := { s.clk with plllock := false, rootsrc := false } }) ∧
  (∀ (s : State),
    s.pwr.phase = .committed → s.pwr.seeking = .hibernate → s.core.run = .stalledSleep →
    exec .hibernateReached s = .next { s with
      pwr := { s.pwr with phase := .asleep, result := 1, resultDepth := deeper s.pwr.resultDepth .hibernate },
      clk := { s.clk with plllock := false, rootsrc := false, xordy := s.clk.xordy && s.clk.lfxrdy && s.clk.rate == .reference } }) ∧
  (∀ (s : State),
    s.pwr.phase = .asleep → s.pwr.seeking = .nap → s.pwr.latch ≠ 0 →
    exec .napWake s = .next (linkKick (schedCatchUp (shotsFall 4 (shotsFall 3 (rtcTellDue
      (updPwr (fun p => { p with latch := setBit (setBit p.latch 6 false) 9 false })
        (deliverWake (updClk (fun c => { c with plllock := c.xordy, rootsrc := c.xordy })
          (updPwr (fun p => { p with phase := .awake, seeking := .none, netTimer := none, wakeEn := setBit p.wakeEn 6 false }) (lastWake s)))))))))) ) ∧
  (∀ (s : State), pinsSeen s = true → exec .wakePinEdge s = .next (latchSet 0 s)) ∧
  (∀ (pin : Nat) (held : Bool) (s : State),
    pin < Config.gpio s.dev.variant → bit s.pads.wakeEn pin = false →
    exec (.gpioEdge pin true held) s = .next { s with pads := { s.pads with level := setBit s.pads.level pin true, driven := setBit s.pads.driven pin true } }) ∧
  (∀ (pin : Nat) (s : State),
    pin < Config.gpio s.dev.variant → pinsSeen s = true → bit s.pads.wakeEn pin = true → bit s.pads.wakePol pin = true → isAin s pin = false →
    s.pads.wakeFlag = 0 →
    exec (.gpioEdge pin true true) s = .next (latchSet 5 { s with pads := { s.pads with
      level := setBit s.pads.level pin true, driven := setBit s.pads.driven pin true, wakeFlag := setBit 0 pin true } })) ∧
  (∀ (t : Nat) (s : State),
    s.pwr.netTimer = some t → mtReached t s.clk.mtime = true →
    exec .nettimer s = .next (updPwr (fun p => { p with netTimer := none }) (latchSet 6 s))) ∧
  (∀ (v : Word) (s : State),
    mayAccess s .app = true → mtReached (v.toNat + 2 ^ 32 * s.pwr.wakeAtHi) s.clk.mtime = false →
    exec (.apptimerArm v) s = .next { s with pwr := { s.pwr with wakeAt := v.toNat + 2 ^ 32 * s.pwr.wakeAtHi, armed := true } }) ∧
  (∀ (s : State),
    s.pwr.armed = true → mtReached s.pwr.wakeAt s.clk.mtime = true → wakeEnabled s 7 = true →
    exec .apptimer s = .next (updPwr (fun p => { p with armed := false }) (latchSet 7 s))) ∧
  (∀ (v : Word) (s : State),
    mayAccess s .app = true → s.pwr.armed = false → s.pwr.latch = 0 →
    exec (.pwrWakeenWrite v) s = .next { s with pwr := { s.pwr with wakeEn := (s.pwr.wakeEn &&& ~~~0x0B7#10) ||| (v.extractLsb' 0 10 &&& 0x0B7#10) } }) ∧
  (∀ (v : Word) (s : State),
    mayAccess s .app = true → bit v 0 = true →
    exec (.pwrClr v) s = .next { s with pwr := { s.pwr with refuse := 0, abort := 0, refId := 0, refDepth := .none, refAborted := false, refHost := false } }) ∧
  (∀ (v : Word) (r : PadRegs) (s : State),
    mayAccess s .app = true → s.pads.shadow = some r → bit v 0 = true →
    exec (.padsRelease v) s = .next { s with pads := { s.pads with live := r, shadow := none } }) ∧
  (∀ (v : Word) (s : State),
    mayAccess s .app = true → s.pads.shadow = none →
    exec (.padsOutset v) s = .next { s with pads := { s.pads with live := { s.pads.live with out := s.pads.live.out ||| (v.extractLsb' 0 20 &&& pinMask s) } } }) ∧
  (∀ (v : Word) (s : State),
    mayAccess s .app = true → s.pads.shadow = none →
    exec (.padsOutclr v) s = .next { s with pads := { s.pads with live := { s.pads.live with out := s.pads.live.out &&& ~~~(v.extractLsb' 0 20) } } })

/-- R474 to R486, R626, R690, R691: what the supply, the reset pin, the watchdogs and the wake from HIBERNATE do; the boot ROM hands over. -/
def Obligations.ResetSteps : Prop :=
  (∀ (s : State),
    s.boot.aonLost = true → s.upd.state ≠ .scheduled → exec .por s = .next (porState s)) ∧
  (∀ (s : State),
    s.boot.bor = false → s.boot.aonLost = false →
    exec .bor s = .next (portVbatLost (takeReset .bor false { s with boot := { s.boot with bor := true } }))) ∧
  (∀ (s : State),
    s.boot.bor = true → s.boot.aonLost = false → s.boot.backup = false → s.boot.stage = .held → s.port.field = true → s.boot.nrst = false →
    exec .borRelease s = .next (updBoot (fun b => { b with stage := .reference }) (optionLoad (updBoot (fun b => { b with bor := false }) s)))) ∧
  (∀ (s : State),
    s.boot.bor = true → s.boot.aonLost = false → s.boot.backup = false → s.rtc.bksw = true →
    exec .backupRetention s = .next { s with boot := { s.boot with backup := true }, clk := { s.clk with rate := .held, gap := true, sync := false } }) ∧
  (∀ (s : State),
    s.boot.bor = true → s.boot.aonLost = false → s.boot.backup = false → s.rtc.bksw = false →
    exec .backupRetention s = .next { s with
      boot := { s.boot with backup := true }, clk := { s.clk with rate := .held, gap := true, sync := false },
      rtc := { s.rtc with bksw := true, bkstamp := rtcSeconds s, due := s.rtc.due ++ [(false, 3, 0)] } }) ∧
  (∀ (s : State), s.boot.backup = true → exec .backupReturn s = .next { s with boot := { s.boot with backup := false } }) ∧
  (∀ (s : State),
    s.boot.bor = true → s.boot.aonLost = false → s.boot.backup = false →
    exec .aonLoss s = .next { s with
      boot := { s.boot with aonLost := true, stage := .held }, clk := { s.clk with lfxrdy := false, rate := .held, sync := false },
      rtc := { s.rtc with run := false } }) ∧
  (∀ (s : State),
    s.boot.nrst = false → s.boot.aonLost = false →
    exec .nrstAssert s = .next (takeReset .pin false { s with boot := { s.boot with nrst := true } })) ∧
  (∀ (s : State),
    s.boot.nrst = true → s.boot.stage = .held → s.boot.bor = true →
    exec .nrstRelease s = .next { s with boot := { s.boot with nrst := false } }) ∧
  (∀ (s : State),
    s.boot.nrst = true → s.boot.stage = .held → s.boot.bor = false → s.boot.backup = false → s.boot.aonLost = false →
    exec .nrstRelease s = .next (updBoot (fun b => { b with stage := .reference }) (optionLoad (updBoot (fun b => { b with nrst := false }) s)))) ∧
  (∀ (s : State), netRuns s = true → exec .nwdtExpire s = .next (takeReset .nwdt false s)) ∧
  (∀ (v : Word) (s : State),
    mayAccess s .app = true → v.extractLsb' 0 16 = 0xC0E5#16 → exec (.sysctlCorerst v) s = .next (coreReset 7 s)) ∧
  (∀ (v : Word) (s : State),
    mayAccess s .app = true → v.extractLsb' 0 16 ≠ 0xC0E5#16 → exec (.sysctlCorerst v) s = .next s) ∧
  (∀ (s : State),
    s.boot.coreRestart = true →
    exec .coreRestart s = .next { s with
      core := { s.core with run := .rom, pc := 0 }, boot := { s.boot with released := true, coreRestart := false },
      pwr := { s.pwr with appDepth := .none }, port := { s.port with grant := s.port.grantCfg == 1 } }) ∧
  (∀ (s : State),
    s.pwr.phase = .asleep → s.pwr.seeking = .hibernate → s.pwr.latch ≠ 0 → s.pwr.mode ≠ .shelf →
    exec .wakeReset s = .next (updClk Clk.woken (updBoot (fun b => { b with stage := .reference, kind := .wake, causeApp := 8, causeNet := 8, simul := false })
      (enterHist .wake (wakeLoss (shelfRestore (lastWake s))))))) ∧
  (∀ (t : State) (h : List Byte) (st : Nat) (s : State),
    s.core.run = .rom → started s = true → flashRead appBase 256 s.flash.autosus s = some (t, h, st) →
    u32 h 0 = 0x1A425854 → u32 h 252 = crc32 (slice h 0 252) → u8 h 8 = 2 →
    exec .bootHandover s = .next { t with core := { t.core with
      run := .running, u := List.replicate 15 0,
      pc := BitVec.ofNat 32 (unle (flashBytes t (vectorTable t + 4 - 0x08000000) 4)),
      spm := BitVec.ofNat 32 (unle (flashBytes t (vectorTable t - 0x08000000) 4)),
      vbase := BitVec.ofNat 24 (vectorTable t / 256), mach := true, ie := false, ilvl := 0, mpuCtl := 0, split := t.pwr.mode == .service } })

/-- R500 to R517: programs and erases of the flash start and end, reads suspend them, and the registers of FLASHC act. -/
def Obligations.FlashSteps : Prop :=
  (∀ (s : State),
    mayAccess s .app = true → opOf s .app = false → programAligned s.flash.addr s.flash.len = true → regionError s .app (s.flash.addr / blk) = 0 →
    0x400 ≤ s.flash.waddr → 4 * s.flash.waddr + s.flash.len ≤ 0x8000 →
    exec (.flashcProgram 0xF1A50001#32) s = .next (acceptOp
      { master := .app, erase := false, addr := s.flash.addr, data := [], src := some (s.flash.waddr, s.flash.len), done := 0 }
      (updFlash (fun f => { f with busy := true }) s))) ∧
  (∀ (s : State),
    mayAccess s .app = true → opOf s .app = false → s.flash.addr % blk = 0 → regionError s .app (s.flash.addr / blk) = 0 →
    exec (.flashcErase 0xF1A50002#32) s = .next (acceptOp { master := .app, erase := true, addr := s.flash.addr, data := [], src := none, done := 0 }
      (updFlash (fun f => { f with busy := true }) s))) ∧
  (∀ (s : State),
    mayAccess s .app = true → opOf s .app = true →
    exec (.flashcErase 0xF1A50002#32) s = .next { s with flash := { s.flash with done := true, err := errBUSY, refused := inc32 s.flash.refused } }) ∧
  (∀ (v : Word) (s : State),
    mayAccess s .app = true → v.extractLsb' 16 16 ≠ 0xF1A5#16 → exec (.flashcProgram v) s = .next s) ∧
  (∀ (plane : Nat) (o : FOp) (s : State),
    planeSt s plane = .idle → (s.flash.waiting.find? fun o => planeOf s (o.addr / blk) == plane) = some o →
    exec (.flashCommandStart plane) s = .next (startOp o (updFlash (fun f => { f with waiting := f.waiting.erase o }) s))) ∧
  (∀ (o : FOp) (s : State),
    s.flash.p0 = .programming o → o.master = .app →
    exec (.flashProgramDone 0 { ce := [], ue := [] }) s = .next (updFlash (fun f =>
      { f with p0 := .idle, programs := inc32 f.programs, programBytes := sat 0xFFFFFFFF (f.programBytes + o.data.length), busy := false, done := true,
               err := 0 })
      (setWritten (o.addr / 16) (o.data.length / 16) (flashStore (o.addr + o.done) (o.data.drop o.done) s)))) ∧
  (∀ (o : FOp) (at_ : Nat) (s : State),
    s.flash.p1 = .erasing o at_ → o.master = .app →
    exec (.flashEraseDone 1 { ce := [], ue := [] }) s = .next (updFlash (fun f => { f with erases := inc32 f.erases, busy := false, done := true, err := 0 })
      (markErase (o.addr / blk) (blankBlock (o.addr / blk) (setPlane 1 .idle s))))) ∧
  (∀ (a o : Nat) (s : State),
    s.core.run = .running → placeOf a = .xip → xipRange s a 4 = true → a % 4 = 0 → a - xipBase = o → planeSt s (planeOf s (o / blk)) = .idle →
    (∀ u ∈ unitsOf o 4, unitStatus s u = 0) →
    exec (.flashXipRead a .w false) s = .next { s with flash := { s.flash with rdLast := 0 } }) ∧
  (∀ (o : FOp) (s : State),
    s.flash.p1 = .suspended o → exec (.eraseResume 1) s = .next { s with flash := { s.flash with p1 := .erasing o s.clk.mtime } }) ∧
  (∀ (v : Word) (s : State),
    mayAccess s .app = true →
    exec (.flashcBsel v) s = .next { s with flash := { s.flash with bsel := v.toNat % 2 ^ 14, bstatReady := false, query := true } }) ∧
  (∀ (s : State),
    s.flash.query = true →
    exec .blockQueryDone s = .next { s with flash := { s.flash with
      query := false, bstatReady := true, bstatEcnt := ecntOf s s.flash.bsel, bstatState := blockState s s.flash.bsel } }) ∧
  (∀ (v : Word) (s : State),
    mayAccess s .app = true → exec (.flashcLock v) s = .next { s with flash := { s.flash with lockApp := s.flash.lockApp || bit v 0 } }) ∧
  (∀ (s : State), mayAccess s .app = true → exec .flashcEcccntRead s = .next { s with flash := { s.flash with ce := 0, ue := 0 } })

/-- R525 to R533, R552 to R564: staging and the card; the real-time clock is read, set, committed and carried on. -/
def Obligations.UpdateAndRtcSteps : Prop :=
  (∀ (slot : Nat) (s : State),
    s.upd.job = some (.begin slot) → stageBlocks s = [] →
    exec (.updateStageBeginDone none) s = .next (complete slot 0 0 [] (updUpd (fun u => { u with job := none }) s))) ∧
  (∀ (slot b c : Nat) (s : State),
    s.upd.job = some (.begin slot) → stageBlocks s = [b] → blockState s b ≠ 0 → c < 65536 →
    exec (.updateStageBeginDone (some c)) s = .next (complete slot 0x0502 c [] (updUpd (fun u => { u with job := none }) (eraseWhole .net s b)))) ∧
  (∀ (slot : Nat) (t : State) (d : List Byte) (st : Nat) (s : State),
    s.upd.job = some (.check slot) → flashRead (stageBase s) (stagedFile s).length true s = some (t, d, st) → imageCheck s stageRoom (stagedFile s) = 0 →
    exec .updateStageCheckDone s = .next (complete slot 0 0 (le 1 0 ++ le 1 (ImgHead.of (stagedFile s)).type ++ le 2 0 ++ le 4 (ImgHead.of (stagedFile s)).version)
      (updUpd (fun u => { u with job := none, lastResult := 0, state := .verified, head := some (ImgHead.of (stagedFile s)) }) t))) ∧
  (∀ (env : BootEnv) (s : State),
    started s = true → s.upd.state = .invalid → Config.sdHost s.dev.variant = true →
    cardPick (updUpd (fun u => { u with card := env.card }) s) env.card (s.upd.broken.getD 1) = none →
    exec (.sdCardSearch env) s = .next (updUpd (fun u => { u with card := env.card }) s)) ∧
  (∀ (env : BootEnv) (f : List Byte) (s : State),
    let s1 := updUpd (fun u => { u with card := env.card }) s
    let t := install env.badBlock false true f s1
    started s = true → s.upd.state = .invalid → Config.sdHost s.dev.variant = true → s.upd.broken = some 2 → cardPick s1 env.card 2 = some f →
    t.upd.broken = none → t.boot.stage ≠ .loader →
    exec (.sdCardSearch env) s = .next (releaseCore t)) ∧
  (∀ (k : Nat) (s : State),
    mayAccess s .app = true → k < 7 → s.rtc.app.frz = false →
    exec (.rtcTimeRead false k) s = .next { s with rtc := { s.rtc with app :=
      { s.rtc.app with shadow := s.rtc.now, frz := true, stale := false, age := 0 } } }) ∧
  (∀ (s : State),
    netRuns s = true → s.rtc.net.frz = true →
    exec (.rtcTimeRead true 7) s = .next { s with rtc := { s.rtc with net := { s.rtc.net with frz := false } } }) ∧
  (∀ (v : Word) (s : State),
    mayAccess s .app = true → s.rtc.app.fields = 0 →
    exec (.rtcSet false v) s = .next { s with rtc := { s.rtc with app := { s.rtc.app with fields := v.setWidth 8 } } }) ∧
  (∀ (v : Word) (s : State),
    netRuns s = true → bit v 0 = true →
    exec (.rtcThaw true v) s = .next { s with rtc := { s.rtc with net := { s.rtc.net with frz := false, stale := false, age := 0 } } }) ∧
  (∀ (s : State),
    s.rtc.run = true → s.boot.aonLost = false → s.rtc.app.fields ≠ 0 → s.rtc.net.fields = 0 → s.rtc.now.tick.2.1 = false →
    (s.rtc.now.tick.1.compose s.rtc.app.stage s.rtc.app.fields).bad.isSome = true →
    exec .rtcCommit s = .next { s with rtc := { s.rtc with now := s.rtc.now.tick.1, app := { s.rtc.app with fields := 0, werr := true } } }) ∧
  (∀ (s : State),
    s.rtc.run = true → s.boot.aonLost = false → s.rtc.app.fields ≠ 0 → s.rtc.net.fields = 0 → s.rtc.now.tick.2.2 = false → s.rtc.act = none →
    fullCommit s.rtc.app.fields = true → (s.rtc.now.tick.1.compose s.rtc.app.stage s.rtc.app.fields).bad = none →
    exec .rtcCommit s = .next (shotsFall 4 (alarmMatches { s with rtc := { s.rtc with
      now := s.rtc.now.tick.1.compose s.rtc.app.stage s.rtc.app.fields, app := { s.rtc.app with fields := 0 }, osf := false, osfTold := false } }))) ∧
  (∀ (s : State),
    s.rtc.run = true → s.boot.aonLost = false → s.rtc.now.roll.2 = false → s.rtc.act = none →
    exec .rtcSecondRollover s = .next (shotsFall 4 (alarmMatch (alarmMatch (updRtc (fun r => { r with now := s.rtc.now.roll.1 }) s) 0) 1))) ∧
  (∀ (s : State),
    s.clk.lfxrdy = true → s.boot.aonLost = false →
    exec .oscStop s = .next (setOsf { s with
      clk := { s.clk with lfxrdy := false, rate := if s.clk.rate == .slow then .held else s.clk.rate, gap := s.clk.gap || s.clk.rate == .slow,
                          sync := s.clk.sync && !(s.clk.rate == .slow) },
      rtc := { s.rtc with run := false } })) ∧
  (∀ (s : State),
    s.rtc.app.frz = true → exec (.shadowStale false) s = .next { s with rtc := { s.rtc with app := { s.rtc.app with stale := true } } })

/-- R568 to R575, R580, R591: the field, the activation of the card and the end of a session.
R583, R586, R591 to R595: the wire side takes, asks for and gives back the lock, and moves a block; the network core writes blocks. -/
def Obligations.PortFieldAndWireSteps : Prop :=
  (∀ (s : State),
    s.port.field = false → s.boot.bor = false →
    exec .fieldOn s = .next (latchSet 4 { s with port := { s.port with
      field := true, fstate := .idle, fromHalt := false, fieldEvt := true, rateIn := 106, rateOut := 106, answer := [] } })) ∧
  (∀ (s : State),
    s.port.field = true → s.boot.bor = false → s.port.lock ≠ .field →
    exec .fieldLoss s = .next { s with port := { s.port with
      sel := .none, auth := none, chainIn := [], chainOut := [], wait := none, mbxReq := none, mbxResp := none, field := false, fstate := .off,
      answer := [] } }) ∧
  (∀ (s : State),
    s.port.field = true → s.boot.bor = false → s.port.lock = .field → s.port.prio = true →
    exec .fieldLoss s = .next { s with port := { s.port with
      sel := .none, auth := none, chainIn := [], chainOut := [], wait := none, mbxReq := none, mbxResp := none, field := false, fstate := .off,
      answer := [], lock := .app, prio := false, lockEvt := true } }) ∧
  (∀ (s : State),
    s.port.fstate = .idle →
    exec .reqa s = .next { s with port := { s.port with fstate := .ready1, fromHalt := false, answer := [0x44, 0x00] } }) ∧
  (∀ (s : State),
    s.port.fstate = .halt → exec .reqa s = .next { s with port := { s.port with answer := [] } }) ∧
  (∀ (s : State),
    s.port.fstate = .halt →
    exec .wupa s = .next { s with port := { s.port with fstate := .ready1, fromHalt := true, answer := [0x44, 0x00] } }) ∧
  (∀ (s : State),
    s.port.fstate = .ready1 →
    exec (.anticollision [0x93, 0x20]) s = .next { s with port := { s.port with answer := levelRest (octetBits (levelBytes s false)) 0 } }) ∧
  (∀ (s : State),
    s.port.fstate = .ready2 →
    exec (.anticollision [0x95, 0x20]) s = .next { s with port := { s.port with answer := levelRest (octetBits (levelBytes s true)) 0 } }) ∧
  (∀ (s : State),
    s.port.fstate = .ready1 →
    exec (.cascadeSelect ([0x93, 0x70] ++ levelBytes s false)) s = .next { s with port := { s.port with fstate := .ready2, answer := [0x04] } }) ∧
  (∀ (s : State),
    s.port.fstate = .ready2 →
    exec (.cascadeSelect ([0x95, 0x70] ++ levelBytes s true)) s = .next { s with port := { s.port with fstate := .active, answer := [0x20] } }) ∧
  (∀ (s : State),
    s.port.fstate = .active → exec .hlta s = .next { s with port := { s.port with fstate := .halt, answer := [] } }) ∧
  (∀ (s : State),
    s.port.fstate = .ready1 →
    exec .hlta s = .next { s with port := { s.port with fstate := if s.port.fromHalt then .halt else .idle, answer := [] } }) ∧
  (∀ (fsdi cid : Nat) (s : State),
    s.port.fstate = .active → fsdi ≤ 8 → cid < 15 →
    exec (.rats (BitVec.ofNat 8 (16 * fsdi + cid))) s = .next { s with port := { s.port with
      fstate := .protocol, fsd := fsdOf fsdi, cid := cid, answer := [0x05, 0x78, 0x11, 0x70, 0x02], sel := .none, auth := none, chainIn := [], chainOut := [],
      wait := none } }) ∧
  (∀ (s : State),
    s.port.fstate = .protocol → s.port.cid < 15 →
    exec (.pps [BitVec.ofNat 8 (0xD0 + s.port.cid), 0x11, 0x05]) s = .next { s with port := { s.port with
      rateIn := 212, rateOut := 212, answer := [BitVec.ofNat 8 (0xD0 + s.port.cid)] } }) ∧
  (∀ (s : State),
    s.port.fstate = .protocol → s.port.lock ≠ .field →
    exec .sDeselect s = .next { s with port := { s.port with
      sel := .none, auth := none, chainIn := [], chainOut := [], wait := none, mbxReq := none, mbxResp := none, fstate := .halt, answer := [0xC2] } }) ∧
  (∀ (wtxm : Nat) (s : State),
    s.port.wait ≠ none → 1 ≤ wtxm → wtxm ≤ 59 → exec (.sWtxAnswer wtxm) s = .next { s with port := { s.port with wtxm := wtxm } }) ∧
  (∀ (n : Byte) (f : List Byte) (s : State),
    s.port.fstate = .protocol → s.port.wait = none → n.toNat < 2 →
    exec (.chainedBlock (0x12 + n) f) s = .next { s with port := { s.port with chainIn := s.port.chainIn ++ f, answer := [0xA2 + n] } }) ∧
  (∀ (n : Byte) (f : List Byte) (s : State),
    s.port.fstate = .protocol → s.port.wait = none → n.toNat < 2 → s.port.chainOut ≠ [] →
    exec (.chainedBlock (0xA2 + n) f) s = .next { s with port := { s.port with
      answer := s.port.chainOut.take (infRoom s.port), chainOut := s.port.chainOut.drop (infRoom s.port) } }) ∧
  (∀ (s : State),
    s.port.fstate = .ready1 →
    exec .portFrameError s = .next { s with port := { s.port with fstate := if s.port.fromHalt then .halt else .idle, answer := [] } }) ∧
  (∀ (s : State),
    mayAccess s .app = true → s.port.grant = true → s.port.lock = .free →
    exec .portwTake s = .next { s with port := { s.port with lock := .app } }) ∧
  (∀ (s : State),
    mayAccess s .app = true → s.port.grant = true → s.port.lock = .field →
    exec .portwPrio s = .next { s with port := { s.port with prio := true } }) ∧
  (∀ (s : State),
    mayAccess s .app = true → s.port.grant = true → s.port.lock = .app → s.port.wait = none →
    exec .portwRelease s = .next { s with port := { s.port with lock := .free } }) ∧
  (∀ (s : State),
    mayAccess s .app = true → s.port.grant = false → exec .portwTake s = .next s) ∧
  (∀ (s : State),
    mayAccess s .app = true → s.port.grant = true → s.port.cmd = none → s.port.lock = .app → 8 ≤ s.port.block →
    exec .portwRead s = .next { s with port := { s.port with cmd := some false } }) ∧
  (∀ (s : State),
    mayAccess s .app = true → s.port.grant = true → s.port.cmd = none → s.port.lock = .app → 8 ≤ s.port.block →
    exec .portwWrite s = .next { s with port := { s.port with cmd := some true } }) ∧
  (∀ (s : State),
    mayAccess s .app = true → s.port.grant = true → s.port.cmd = none → s.port.lock ≠ .app →
    exec .portwWrite s = .next { s with port := { s.port with done := true, err := 1 } }) ∧
  (∀ (s : State),
    s.port.cmd = some true → s.port.lock = .app →
    exec (.portwCmdDone true) s = .next { s with port := { s.port with
      cmd := none, done := true, err := 0, mem := wrTab s.port.mem (32 * s.port.block) (slice (s.port.buf.flatMap (le 4)) 0 32),
      blockWrites := inc32 s.port.blockWrites } }) ∧
  (∀ (s : State),
    s.port.cmd = some false → s.port.lock = .app →
    exec (.portwCmdDone true) s = .next { s with port := { s.port with
      cmd := none, done := true, err := 0, buf := (List.range 8).map (fun i => u32 (portBlock s s.port.block) (4 * i)) } }) ∧
  (∀ (j : PortJob) (b c : List Byte) (r : List (List Byte)) (s : State),
    s.port.job = some j → netRuns s = true → s.port.lock = .net → j.blocks = b :: c :: r →
    exec (.portBlockWrite true) s = .next { s with port := { s.port with
      mem := wrTab s.port.mem (32 * j.block) (slice b 0 32), blockWrites := inc32 s.port.blockWrites,
      job := some { j with block := j.block + 1, blocks := c :: r, written := j.written + 1 } } }) ∧
  (∀ (j : PortJob) (b : List Byte) (s : State),
    s.port.job = some j → netRuns s = true → s.port.lock = .net → j.blocks = [b] → s.port.wait = none →
    exec (.portBlockWrite true) s = .next (complete j.slot 0 0 (le 1 (j.written + 1) ++ le 3 0) { s with port := { s.port with
      mem := wrTab s.port.mem (32 * j.block) (slice b 0 32), blockWrites := inc32 s.port.blockWrites, job := none, lock := .free } }))

/-- R576 to R591: the applications of the commissioning port answer a reader's APDU, whole, in fragments or after a wait. -/
def Obligations.PortCommandSteps : Prop :=
  let open_ (s : State) : Prop := s.port.fstate = .protocol ∧ s.port.wait = none ∧ s.port.lock = .free ∧ s.port.chainIn = []
  let held (s : State) : State := updPort (fun p => { p with chainIn := [], chainOut := [], lock := .field }) s
  (∀ (s : State),
    open_ s →
    exec (.select_ ([0x00, 0xA4, 0x04, 0x00, 0x07] ++ commAid)) s = .next (fieldAnswer [0x90, 0x00]
      (updPort (fun p => { p with sel := .commissioning, auth := none, sessions := inc32 p.sessions }) (held s)))) ∧
  (∀ (n : Nat) (s : State),
    open_ s → s.port.sel = .ndef n →
    exec (.select_ [0x00, 0xA4, 0x00, 0x0C, 0x02, 0xE1, 0x04]) s = .next (fieldAnswer [0x90, 0x00]
      (updPort (fun p => { p with sel := .ndef 0xE104, auth := none }) (held s)))) ∧
  (∀ (o k : Byte) (s : State),
    open_ s → s.port.sel = .ndef 0xE104 → o.toNat ≤ (ndefFile s 0xE104).length → 0 < k.toNat →
    exec (.readBinary [0x00, 0xB0, 0x00, o, k]) s = .next (fieldAnswer (((ndefFile s 0xE104).drop o.toNat).take k.toNat ++ [0x90, 0x00]) (held s))) ∧
  (∀ (s : State),
    open_ s → s.port.sel = .commissioning →
    exec (.getInfo [0x80, 0x10, 0x00, 0x00, 0x00]) s = .next (fieldAnswer (portInfo s ++ [0x90, 0x00]) (held s))) ∧
  (∀ (slot : Nat) (pw : List Byte) (s : State),
    open_ s → s.port.sel = .commissioning → slot ≤ 3 → pw.length = 16 → (pwOf s slot).state = 1 → pw = (pwOf s slot).pw → s.port.pw.length = 4 →
    exec (.verify ([0x80, 0x20, 0x00, BitVec.ofNat 8 slot, 0x10] ++ pw) none) s = .next (fieldAnswer [0x90, 0x00]
      (updPort (fun p => { p with auth := some slot, blockWrites := inc32 (inc32 p.blockWrites),
                                  pw := p.pw.set slot { pwOf s slot with remaining := (pwOf s slot).limit } }) (held s)))) ∧
  (∀ (b : Byte) (s : State),
    open_ s → s.port.sel = .commissioning → 16 ≤ b.toNat → mayRead s = true →
    exec (.readBlock [0x80, 0xB0, 0x00, b, 0x20]) s = .next (fieldAnswer (portBlock s b.toNat ++ [0x90, 0x00]) (held s))) ∧
  (∀ (b : Byte) (s : State),
    open_ s → s.port.sel = .commissioning → 16 ≤ b.toNat → mayRead s = false →
    exec (.readBlock [0x80, 0xB0, 0x00, b, 0x20]) s = .next (fieldAnswer [0x69, 0x82] (held s))) ∧
  (∀ (b : Byte) (d : List Byte) (s : State),
    open_ s → s.port.sel = .commissioning → 16 ≤ b.toNat → d.length = 32 → mayWrite s = true →
    exec (.writeBlock ([0x80, 0xD0, 0x00, b, 0x20] ++ d) none) s = .next (fieldAnswer [0x90, 0x00]
      (updPort (fun p => { p with mem := wrTab p.mem (32 * b.toNat) d, blockWrites := inc32 p.blockWrites }) (held s)))) ∧
  (∀ (d : List Byte) (s : State),
    open_ s → s.port.sel = .commissioning → 4 ≤ d.length → d.length ≤ 228 → mayWrite s = true →
    exec (.stageCred ([0x80, 0xE0, 0x00, 0x00, BitVec.ofNat 8 d.length] ++ d) none) s =
      .next (fieldAnswer (stageCred d none (held s)).2 (stageCred d none (held s)).1)) ∧
  (∀ (m : List Byte) (cf : Option Nat) (wf : Option (Nat × Nat)) (s : State),
    open_ s → s.port.sel = .commissioning → m.length < 256 → messageOk m = true → s.port.auth = some 2 → portServed s = true →
    bit s.port.flags 1 = false → firmwareServes s = false →
    exec (.mailbox ([0x80, 0x40, 0x00, 0x00, BitVec.ofNat 8 m.length] ++ m) cf wf) s = .next (
      let cmd := [0x80, 0x40, 0x00, 0x00, BitVec.ofNat 8 m.length] ++ m
      updPort (fun p => { p with mbxReq := some m, wait := some (cmd, 1), wtxm := p.wtxmCfg, wtxSent := inc32 p.wtxSent,
                                 answer := [0xF2, BitVec.ofNat 8 p.wtxmCfg] }) (held s))) ∧
  (∀ (n : Nat) (cmd : List Byte) (cf : Option Nat) (wf : Option (Nat × Nat)) (s : State),
    s.port.wait = some (cmd, n) → s.port.mbxReq = none → s.port.lock ≠ .free → n < 3 →
    exec (.wtxExpiry cf wf) s = .next (updPort (fun p =>
      { p with wait := some (cmd, n + 1), wtxm := p.wtxmCfg, wtxSent := inc32 p.wtxSent, answer := [0xF2, BitVec.ofNat 8 p.wtxmCfg] }) s)) ∧
  (∀ (cmd : List Byte) (cf : Option Nat) (wf : Option (Nat × Nat)) (s : State),
    s.port.wait = some (cmd, 3) → s.port.mbxReq = none → s.port.lock ≠ .free →
    exec (.wtxExpiry cf wf) s = .next (updPort (fun p => { p with wtxGiveup := inc32 p.wtxGiveup }) (fieldAnswer [0x64, 0x00] s)))

/-- R592: PORTW is live only while the grant names the application core; a wire command without the lock, or for a block of the reserved eight, is refused. -/
def Obligations.PortwFollowsTheGrant : Prop :=
  (∀ (off : Nat) (rd : Option Nat) (s : State),
    s.port.grant = false → off < 0x1000 → off % 4 = 0 → off ≠ 0 → busRead (0x4000B000 + off) .w rd s = (s, .val 0)) ∧
  (∀ (s : State) (rd : Option Nat),
    busRead 0x4000B000 .w rd s = (s, .val (if s.port.grant then 1 else 0))) ∧
  (∀ (off : Nat) (v : Word) (s : State),
    s.port.grant = false → mayAccess s .app = true → off < 0x1000 → off % 4 = 0 →
    exec (.registerWrite .app (BitVec.ofNat 32 (0x4000B000 + off)) v) s = .next s) ∧
  (∀ (off : Nat) (v : Word) (s : State),
    s.port.grant = false → off < 0x1000 → off % 4 = 0 → busWrite (0x4000B000 + off) .w v s = some s) ∧
  (∀ (w : Bool) (s : State),
    mayAccess s .app = true → s.port.grant = true → s.port.cmd = none → s.port.lock ≠ .app →
    exec (if w then .portwWrite else .portwRead) s = .next { s with port := { s.port with done := true, err := 1 } }) ∧
  (∀ (w : Bool) (s : State),
    mayAccess s .app = true → s.port.grant = true → s.port.cmd = none → s.port.lock = .app → s.port.block < 8 →
    exec (if w then .portwWrite else .portwRead) s = .next { s with port := { s.port with done := true, err := 2 } })


/-- R652 to R658: the serial engines: what software asks of them and what the bus reports.
R659 to R662: a trigger starts a sequence, each conversion ends in a result or in an overrun, and software reads the results. -/
def Obligations.SerialAndAdcSteps : Prop :=
  (∀ (n : Nat) (s : State),
    mayAccess s .app = true → (seOf s n).en = true → (seOf s n).role = 0 → (seOf s n).phase = .idle → (seOf s n).wlen ≠ 0 →
    exec (.seGo n) s = .next (updSe n (fun e => { e with phase := .transfer, wleft := e.wlen, rleft := 0, csHeld := bit e.ctl 6 }) s)) ∧
  (∀ (n : Nat) (s : State),
    mayAccess s .app = true → (seOf s n).en = true → (seOf s n).role = 1 → (seOf s n).phase = .idle →
    exec (.seGo n) s = .next (updSe n (fun e => { e with phase := .transfer, wleft := e.wlen, rleft := e.rlen, csHeld := false }) s)) ∧
  (∀ (n : Nat) (s : State),
    mayAccess s .app = true → (seOf s n).en = true → (seOf s n).role ≤ 1 → (seOf s n).phase ≠ .idle →
    exec (.seGo n) s = .next (updSe n (fun e => { e with wign := true }) s)) ∧
  (∀ (n : Nat) (s : State),
    mayAccess s .app = true → (seOf s n).role ≤ 1 → (seOf s n).phase ≠ .idle →
    exec (.seAbort n) s = .next (updSe n (fun e =>
      { e with tx := [], rx := [], csHeld := false, phase := .idle, done := true, wleft := 0, rleft := 0 }) s)) ∧
  (∀ (n : Nat) (s : State),
    mayAccess s .app = true → (seOf s n).role ≤ 1 → (seOf s n).phase = .idle →
    exec (.seAbort n) s = .next (updSe n (fun e => { e with tx := [], rx := [], csHeld := false }) s)) ∧
  (∀ (n : Nat) (s : State),
    mayAccess s .app = true → (seOf s n).en = true → (seOf s n).role = 1 → (seOf s n).phase = .idle →
    exec (.seBusclr n) s = .next (updSe n (fun e => { e with phase := .busclr }) s)) ∧
  (∀ (n : Nat) (v : Word) (s : State),
    mayAccess s .app = true → (seOf s n).tx.length < 32 →
    exec (.seDataWrite n v) s = .next (updSe n (fun e => { e with tx := e.tx ++ [v.extractLsb' 0 8] }) s)) ∧
  (∀ (n : Nat) (v : Word) (s : State),
    mayAccess s .app = true → 32 ≤ (seOf s n).tx.length →
    exec (.seDataWrite n v) s = .next (updSe n (fun e => { e with txovf := true }) s)) ∧
  (∀ (n : Nat) (b : Byte) (r : List Byte) (s : State),
    mayAccess s .app = true → (seOf s n).rx = b :: r →
    exec (.seDataRead n) s = .next (updSe n (fun e => { e with rx := r }) s)) ∧
  (∀ (n : Nat) (v : Word) (s : State),
    mayAccess s .app = true → (seOf s n).phase = .idle →
    exec (.seConfigWrite n .div v) s = .next (updSe n (fun e => { e with div := v.extractLsb' 0 16 }) s)) ∧
  (∀ (n : Nat) (reg : SeReg) (v : Word) (s : State),
    mayAccess s .app = true → (seOf s n).phase ≠ .idle →
    exec (.seConfigWrite n reg v) s = .next (updSe n (fun e => { e with wign := true }) s)) ∧
  (∀ (n : Nat) (r : SeEnd) (s : State),
    (seOf s n).phase = .transfer → (seOf s n).role = 0 → (seOf s n).rxen = false → (seOf s n).wleft ≤ (seOf s n).tx.length → (seOf s n).wleft ≤ 255 →
    exec (.seTransferEnd n r) s = .next (updSe n (fun e =>
      { e with tx := e.tx.drop e.wleft, wleft := 0, rleft := 0, phase := .idle, done := true, err := 0, csHeld := e.csHeld && bit e.xfer 23 }) s)) ∧
  (∀ (n sent : Nat) (s : State),
    (seOf s n).phase = .transfer → (seOf s n).role = 1 →
    exec (.seTransferEnd n { sent := sent, got := [], err := 2 }) s = .next (updSe n (fun e =>
      { e with tx := e.tx.drop sent, wleft := 0, rleft := 0, phase := .idle, done := true, err := 2 }) s)) ∧
  (∀ (n : Nat) (s : State),
    (seOf s n).phase = .transfer → (seOf s n).role = 1 →
    exec (.seI2cTimeout n) s = .next (updSe n (fun e => { e with phase := .idle, done := true, err := 3, wleft := 0, rleft := 0 }) s)) ∧
  (∀ (n : Nat) (b : Byte) (s : State),
    (seOf s n).en = true → (seOf s n).role = 2 → (seOf s n).rx.length < 32 →
    exec (.seUartRxByte n b .none) s = .next (updSe n (fun e => { e with rx := e.rx ++ [b] }) s)) ∧
  (∀ (n : Nat) (b : Byte) (s : State),
    (seOf s n).en = true → (seOf s n).role = 2 → (seOf s n).rx.length < 32 →
    exec (.seUartRxByte n b .parity) s = .next (updSe n (fun e => { e with rx := e.rx ++ [b], done := true, err := 6 }) s)) ∧
  (∀ (n : Nat) (b : Byte) (x : UartErr) (s : State),
    (seOf s n).en = true → (seOf s n).role = 2 → 32 ≤ (seOf s n).rx.length →
    exec (.seUartRxByte n b x) s = .next (updSe n (fun e => { e with done := true, err := 4 }) s)) ∧
  (∀ (n : Nat) (b : Byte) (r : List Byte) (s : State),
    (seOf s n).en = true → (seOf s n).role = 2 → (seOf s n).tx = b :: r → (bit (seOf s n).ctl 13 = false ∨ (seOf s n).cts = false) →
    exec (.seUartTxByte n) s = .next (updSe n (fun e => { e with tx := r }) s)) ∧
  (∀ (n : Nat) (level : Bool) (s : State),
    exec (.ctsChange n level) s = .next (updSe n (fun e => { e with cts := level }) s)) ∧
  (∀ (v : Word) (s : State),
    mayAccess s .app = true → bit v 0 = true → s.adc.trig = 0 → s.adc.en = true → s.adc.slot = none →
    exec (.adcStart v) s = .next { s with adc := { s.adc with slot := some 0 } }) ∧
  (∀ (v : Word) (k : Nat) (s : State),
    mayAccess s .app = true → bit v 0 = true → s.adc.trig = 0 → s.adc.en = true → s.adc.slot = some k →
    exec (.adcStart v) s = .next { s with adc := { s.adc with trigLost := true } }) ∧
  (∀ (v : Word) (s : State),
    mayAccess s .app = true → s.adc.trig ≠ 0 → exec (.adcStart v) s = .next s) ∧
  (∀ (s : State),
    s.adc.en = true → exec .adcSettled s = .next { s with adc := { s.adc with settled := true } }) ∧
  (∀ (volt vref k : Nat) (s : State),
    s.adc.slot = some k → s.adc.settled = true → adcHasPin s (s.adc.chan k) = true → vref ≠ 0 → s.adc.fifo.length < 16 →
    k < bits s.adc.seq.toNat 24 3 →
    exec (.adcConversionEnd volt vref) s = .next { s with adc := { s.adc with
      fifo := s.adc.fifo ++ [{ code := min 4095 (rdiv (4096 * volt) vref), ch := s.adc.chan k, noPin := false }], slot := some (k + 1) } }) ∧
  (∀ (volt vref k : Nat) (s : State),
    s.adc.slot = some k → s.adc.settled = true → adcHasPin s (s.adc.chan k) = false → s.adc.fifo.length < 16 →
    bits s.adc.seq.toNat 24 3 ≤ k → bit s.adc.ctl 2 = false →
    exec (.adcConversionEnd volt vref) s = .next { s with adc := { s.adc with
      fifo := s.adc.fifo ++ [{ code := 0, ch := s.adc.chan k, noPin := true }], done := true, slot := none } }) ∧
  (∀ (volt vref k : Nat) (s : State),
    s.adc.slot = some k → s.adc.settled = true → 16 ≤ s.adc.fifo.length → bits s.adc.seq.toNat 24 3 ≤ k → bit s.adc.ctl 2 = true →
    exec (.adcConversionEnd volt vref) s = .next { s with adc := { s.adc with ovr := true, done := true, slot := some 0 } }) ∧
  (∀ (x : AdcResult) (r : List AdcResult) (s : State),
    mayAccess s .app = true → s.adc.fifo = x :: r → exec .adcDataRead s = .next { s with adc := { s.adc with fifo := r } })

/-- R663, R664: the timers match, wrap and capture in each of their modes.
R473, R484, R665 to R667: the watchdog starts, is fed, warns and expires at its scope. -/
def Obligations.TimerAndWatchdogSteps : Prop :=
  (∀ (v : Word) (s : State),
    mayAccess s .app = true →
    exec (.tmrSync v) s = .next { s with tmr := (List.range 4).map (fun n =>
      let t := tmrOf s n
      if bit v n then { t with ctl := setBit t.ctl 0 true, out := if !t.en && t.mode == 1 then decide (t.cnt < t.cmp) else t.out } else t) }) ∧
  (∀ (n : Nat) (s : State),
    pclkRuns s = true → n < 4 → (tmrOf s n).en = true → (tmrOf s n).mode = 0 → (tmrOf s n).cmp ≤ (tmrOf s n).top → s.adc.trig ≠ n + 1 →
    exec (.timerMatch n) s = .next (updTmr n (fun t => { t with cnt := t.cmp, stat := setBit t.stat 0 true, out := !t.out }) s)) ∧
  (∀ (n : Nat) (s : State),
    pclkRuns s = true → n < 4 → (tmrOf s n).en = true → (tmrOf s n).mode = 1 → (tmrOf s n).cmp ≤ (tmrOf s n).top → s.adc.trig ≠ n + 1 →
    exec (.timerMatch n) s = .next (updTmr n (fun t => { t with cnt := t.cmp, stat := setBit t.stat 0 true, out := false }) s)) ∧
  (∀ (n : Nat) (s : State),
    pclkRuns s = true → n < 4 → (tmrOf s n).en = true → (tmrOf s n).mode = 0 → (tmrOf s n).cmp ≤ (tmrOf s n).top → s.adc.trig = n + 1 →
    s.adc.en = true → s.adc.slot = none →
    exec (.timerMatch n) s = .next (updAdc (fun a => { a with slot := some 0 })
      (updTmr n (fun t => { t with cnt := t.cmp, stat := setBit t.stat 0 true, out := !t.out }) s))) ∧
  (∀ (n : Nat) (s : State),
    pclkRuns s = true → n < 4 → (tmrOf s n).en = true → (tmrOf s n).cmp > (tmrOf s n).top → exec (.timerMatch n) s = .next s) ∧
  (∀ (n : Nat) (s : State),
    pclkRuns s = true → n < 4 → s.tmr.length = 4 → (tmrOf s n).en = true → (tmrOf s n).mode = 0 → (tmrOf s n).cmp ≠ 0 → bit (tmrOf s n).ctl 11 = false →
    exec (.timerWrap n) s = .next (updTmr n (fun t => { t with stat := setBit t.stat 1 true, cnt := 0 }) s)) ∧
  (∀ (n : Nat) (s : State),
    pclkRuns s = true → n < 4 → s.tmr.length = 4 → (tmrOf s n).en = true → (tmrOf s n).mode = 0 → (tmrOf s n).cmp ≠ 0 → bit (tmrOf s n).ctl 11 = true →
    exec (.timerWrap n) s = .next (updTmr n (fun t => { t with stat := setBit t.stat 1 true, cnt := 0, ctl := setBit t.ctl 0 false }) s)) ∧
  (∀ (n : Nat) (top cmp : Word) (s : State),
    pclkRuns s = true → n < 4 → s.tmr.length = 4 → (tmrOf s n).en = true → (tmrOf s n).mode = 1 → (tmrOf s n).topNext = some top →
    (tmrOf s n).cmpNext = some cmp → cmp ≠ 0 → bit (tmrOf s n).ctl 11 = false →
    exec (.timerWrap n) s = .next (updTmr n (fun t =>
      { t with top := top, cmp := cmp, topNext := none, cmpNext := none, stat := setBit t.stat 1 true, cnt := 0, out := true }) s)) ∧
  (∀ (n count : Nat) (s : State),
    pclkRuns s = true → n < 4 → (tmrOf s n).en = true → (tmrOf s n).mode = 2 → bits (tmrOf s n).ctl.toNat 12 2 = 0 → bit (tmrOf s n).stat 2 = false →
    exec (.timerCapture n true count) s = .next (updTmr n (fun t =>
      { t with stat := setBit t.stat 2 true, cnt := BitVec.ofNat 32 (count % (t.top.toNat + 1)), cap := BitVec.ofNat 32 (count % (t.top.toNat + 1)) }) s)) ∧
  (∀ (n count : Nat) (rising : Bool) (s : State),
    pclkRuns s = true → n < 4 → (tmrOf s n).en = true → (tmrOf s n).mode = 2 → bits (tmrOf s n).ctl.toNat 12 2 = 2 → bit (tmrOf s n).stat 2 = true →
    exec (.timerCapture n rising count) s = .next (updTmr n (fun t =>
      { t with stat := setBit t.stat 3 true, cnt := BitVec.ofNat 32 (count % (t.top.toNat + 1)), cap := BitVec.ofNat 32 (count % (t.top.toNat + 1)) }) s)) ∧
  (∀ (n count : Nat) (s : State),
    pclkRuns s = true → n < 4 → s.tmr.length = 4 → (tmrOf s n).mode = 2 → bits (tmrOf s n).ctl.toNat 12 2 = 0 →
    exec (.timerCapture n false count) s = .next s) ∧
  (∀ (v : Word) (s : State),
    mayAccess s .app = true → s.wdg.en = false → bit v 0 = true → s.wdg.lock = false →
    exec (.wdgStart v) s = .next { s with wdg := { s.wdg with
      en := true, cnt := max 1 s.wdg.load, warnEn := bit v 1, lock := bit v 2 } }) ∧
  (∀ (v : Word) (s : State),
    mayAccess s .app = true → s.wdg.en = true → s.wdg.lock = true → exec (.wdgStart v) s = .next s) ∧
  (∀ (v : Word) (s : State),
    mayAccess s .app = true → s.wdg.en = true → v.toNat % 65536 = 0x5EED →
    exec (.wdgFeed v) s = .next { s with wdg := { s.wdg with feeding := true } }) ∧
  (∀ (v : Word) (s : State),
    mayAccess s .app = true → s.wdg.en = true → v.toNat % 65536 ≠ 0x5EED →
    exec (.wdgFeed v) s = .next { s with wdg := { s.wdg with cnt := 0, expired := true } }) ∧
  (∀ (s : State),
    s.wdg.en = true → s.wdg.feeding = true → s.wdg.expired = false →
    exec .wdgReload s = .next { s with wdg := { s.wdg with cnt := max 1 s.wdg.load, feeding := false } }) ∧
  (∀ (s : State),
    wdgCounts s = true →
    exec .wdgWarn s = .next { s with wdg := { s.wdg with warn := true, cnt := min s.wdg.cnt (s.wdg.load / 2) } }) ∧
  (∀ (s : State),
    wdgCounts s = true → (oByte s.boot.opt 0x00B).testBit 0 = true → exec .wdtExpire s = .next (takeReset .wdt false s)) ∧
  (∀ (s : State),
    s.wdg.en = true → s.wdg.expired = true → (oByte s.boot.opt 0x00B).testBit 0 = false → exec .wdtExpire s = .next (coreReset 4 s)) ∧
  (∀ (s : State),
    s.wdg.en = false → exec .wdtExpire s = .next s)

/-- R71, R685: the debug port opens to nothing at level 0; above it, it halts, resumes, reads and writes. -/
def Obligations.DebugPortSteps : Prop :=
  (∀ (a : DebugAccess) (s : State),
    s.boot.debug = 0 → exec (.debugPortAccess a) s = .next { s with core := { s.core with debugRead := 0 } }) ∧
  (∀ (s : State),
    s.boot.debug ≠ 0 → s.core.run = .running →
    exec (.debugPortAccess .halt) s = .next { s with core := { s.core with run := .halted, debugHalt := true, debugRead := 0 } }) ∧
  (∀ (s : State),
    s.boot.debug ≠ 0 → s.core.run = .halted →
    exec (.debugPortAccess .resume) s = .next { s with core := { s.core with run := .running, debugHalt := true, debugRead := 0 } }) ∧
  (∀ (s : State),
    s.boot.debug ≠ 0 →
    exec (.debugPortAccess .coreReset) s = .next (updCore (fun c => { c with debugHalt := true, debugRead := 0 }) (coreReset 7 s))) ∧
  (∀ (r : Reg) (s : State),
    s.boot.debug ≠ 0 →
    exec (.debugPortAccess (.readReg r)) s = .next { s with core := { s.core with debugHalt := true, debugRead := greg s r } }) ∧
  (∀ (r : Reg) (v : Word) (s : State),
    s.boot.debug ≠ 0 →
    exec (.debugPortAccess (.writeReg r v)) s = .next { s with core := { s.core.put r.toNat v with debugHalt := true, debugRead := 0 } }) ∧
  (∀ (a : Word) (s : State),
    s.boot.debug ≠ 0 → a.toNat % 4 = 0 → placeOf a.toNat = .ram →
    exec (.debugPortAccess (.readMem a)) s = .next { s with core := { s.core with
      debugHalt := true, debugRead := BitVec.ofNat 32 (unle (rdBytes s a.toNat 4)) } }) ∧
  (∀ (a v : Word) (s : State),
    s.boot.debug ≠ 0 → misaligned a.toNat .w = true →
    exec (.debugPortAccess (.writeMem a v)) s = .next { s with core := { s.core with debugHalt := true, debugRead := 0 } })


/-- R601, R631 to R634: what each operation of the ALU group and each immediate operation leaves in u[rd], the edge cases of division among them;
nothing but u[rd] and the program counter changes. -/
def Obligations.ArithmeticRows : Prop :=
  (∀ (rd ra rb : Reg) (s : State),
    Plain s → exec (.add rd ra rb) s = .next (wrote rd (greg s ra + greg s rb) s)) ∧
  (∀ (rd ra rb : Reg) (s : State),
    Plain s → exec (.sub rd ra rb) s = .next (wrote rd (greg s ra - greg s rb) s)) ∧
  (∀ (rd ra rb : Reg) (s : State),
    Plain s → exec (.and_ rd ra rb) s = .next (wrote rd (greg s ra &&& greg s rb) s)) ∧
  (∀ (rd ra rb : Reg) (s : State),
    Plain s → exec (.or_ rd ra rb) s = .next (wrote rd (greg s ra ||| greg s rb) s)) ∧
  (∀ (rd ra rb : Reg) (s : State),
    Plain s → exec (.xor rd ra rb) s = .next (wrote rd (greg s ra ^^^ greg s rb) s)) ∧
  (∀ (rd ra rb : Reg) (s : State),
    Plain s → exec (.shl rd ra rb) s = .next (wrote rd (greg s ra <<< ((greg s rb).toNat % 32)) s)) ∧
  (∀ (rd ra rb : Reg) (s : State),
    Plain s → exec (.shr rd ra rb) s = .next (wrote rd (greg s ra >>> ((greg s rb).toNat % 32)) s)) ∧
  (∀ (rd ra rb : Reg) (s : State),
    Plain s → exec (.sar rd ra rb) s = .next (wrote rd ((greg s ra).sshiftRight ((greg s rb).toNat % 32)) s)) ∧
  (∀ (rd ra rb : Reg) (s : State),
    Plain s → exec (.cmpLt rd ra rb) s = .next (wrote rd (if (greg s ra).toInt < (greg s rb).toInt then 1#32 else 0#32) s)) ∧
  (∀ (rd ra rb : Reg) (s : State),
    Plain s → exec (.cmpLo rd ra rb) s = .next (wrote rd (if (greg s ra).toNat < (greg s rb).toNat then 1#32 else 0#32) s)) ∧
  (∀ (rd ra rb : Reg) (s : State),
    Plain s → exec (.mul rd ra rb) s = .next (wrote rd (greg s ra * greg s rb) s)) ∧
  (∀ (rd ra rb : Reg) (s : State),
    Plain s → exec (.mulhs rd ra rb) s = .next (wrote rd (BitVec.ofInt 32 ((greg s ra).toInt * (greg s rb).toInt / 2 ^ 32)) s)) ∧
  (∀ (rd ra rb : Reg) (s : State),
    Plain s → exec (.mulhu rd ra rb) s = .next (wrote rd (BitVec.ofNat 32 ((greg s ra).toNat * (greg s rb).toNat / 2 ^ 32)) s)) ∧
  (∀ (rd ra rb : Reg) (s : State),
    Plain s → exec (.cy rd ra rb) s = .next (wrote rd (if 0xFFFFFFFF < (greg s ra).toNat + (greg s rb).toNat then 1#32 else 0#32) s)) ∧
  (∀ (rd ra rb : Reg) (s : State),
    Plain s → exec (.bw rd ra rb) s = .next (wrote rd (if (greg s ra).toNat < (greg s rb).toNat then 0xFFFFFFFF#32 else 0#32) s)) ∧
  (∀ (rd ra rb : Reg) (s : State),
    Plain s → exec (.divS rd ra rb) s = .next (wrote rd (if greg s rb = 0 then 0xFFFFFFFF#32 else BitVec.ofInt 32 ((greg s ra).toInt.tdiv (greg s rb).toInt)) s)) ∧
  (∀ (rd ra rb : Reg) (s : State),
    Plain s → exec (.divU rd ra rb) s = .next (wrote rd (if greg s rb = 0 then 0xFFFFFFFF#32 else BitVec.ofNat 32 ((greg s ra).toNat / (greg s rb).toNat)) s)) ∧
  (∀ (rd ra rb : Reg) (s : State),
    Plain s → exec (.modS rd ra rb) s = .next (wrote rd (if greg s rb = 0 then greg s ra else BitVec.ofInt 32 ((greg s ra).toInt.tmod (greg s rb).toInt)) s)) ∧
  (∀ (rd ra rb : Reg) (s : State),
    Plain s → exec (.modU rd ra rb) s = .next (wrote rd (if greg s rb = 0 then greg s ra else BitVec.ofNat 32 ((greg s ra).toNat % (greg s rb).toNat)) s)) ∧
  (∀ (rd ra : Reg) (imm : BitVec 17) (s : State),
    Plain s → exec (.addi rd ra imm) s = .next (wrote rd (greg s ra + imm.signExtend 32) s)) ∧
  (∀ (rd ra : Reg) (imm : BitVec 17) (s : State),
    Plain s → exec (.andi rd ra imm) s = .next (wrote rd (greg s ra &&& imm.setWidth 32) s)) ∧
  (∀ (rd ra : Reg) (imm : BitVec 17) (s : State),
    Plain s → exec (.ori rd ra imm) s = .next (wrote rd (greg s ra ||| imm.setWidth 32) s)) ∧
  (∀ (rd ra : Reg) (imm : BitVec 17) (s : State),
    Plain s → exec (.xori rd ra imm) s = .next (wrote rd (greg s ra ^^^ imm.setWidth 32) s)) ∧
  (∀ (rd ra : Reg) (imm : BitVec 17) (s : State),
    Plain s → exec (.cmpiLt rd ra imm) s = .next (wrote rd (if (greg s ra).toInt < imm.toInt then 1#32 else 0#32) s)) ∧
  (∀ (rd ra : Reg) (imm : BitVec 17) (s : State),
    Plain s → exec (.cmpiLo rd ra imm) s = .next (wrote rd (if (greg s ra).toNat < (imm.signExtend 32).toNat then 1#32 else 0#32) s)) ∧
  (∀ (rd ra : Reg) (imm : BitVec 5) (s : State),
    Plain s → exec (.shli rd ra imm) s = .next (wrote rd (greg s ra <<< imm.toNat) s)) ∧
  (∀ (rd ra : Reg) (imm : BitVec 5) (s : State),
    Plain s → exec (.shri rd ra imm) s = .next (wrote rd (greg s ra >>> imm.toNat) s)) ∧
  (∀ (rd ra : Reg) (imm : BitVec 5) (s : State),
    Plain s → exec (.sari rd ra imm) s = .next (wrote rd ((greg s ra).sshiftRight imm.toNat) s)) ∧
  (∀ (rd : Reg) (imm : BitVec 21) (s : State),
    Plain s → exec (.ldhi rd imm) s = .next (wrote rd (imm ++ 0#11) s))

/-- R604, R610, R636: loads from RAM, whose value waits for the end of the next word, and stores to RAM. -/
def Obligations.LoadAndStoreRows : Prop :=
  (∀ (rd ra : Reg) (imm : BitVec 17) (s : State),
    Plain s → ReadsRam (greg s ra + imm.signExtend 32) .w s →
    exec (.ldW rd ra imm) s = .next (loading rd (BitVec.ofNat 32 (unle (rdBytes s (greg s ra + imm.signExtend 32).toNat 4))) s)) ∧
  (∀ (rd ra : Reg) (imm : BitVec 17) (s : State),
    Plain s → ReadsRam (greg s ra + imm.signExtend 32) .h s →
    exec (.ldHs rd ra imm) s = .next (loading rd ((BitVec.ofNat 16 (unle (rdBytes s (greg s ra + imm.signExtend 32).toNat 2))).signExtend 32) s)) ∧
  (∀ (rd ra : Reg) (imm : BitVec 17) (s : State),
    Plain s → ReadsRam (greg s ra + imm.signExtend 32) .h s →
    exec (.ldHz rd ra imm) s = .next (loading rd (BitVec.ofNat 32 (unle (rdBytes s (greg s ra + imm.signExtend 32).toNat 2))) s)) ∧
  (∀ (rd ra : Reg) (imm : BitVec 17) (s : State),
    Plain s → ReadsRam (greg s ra + imm.signExtend 32) .b s →
    exec (.ldBs rd ra imm) s = .next (loading rd ((BitVec.ofNat 8 (unle (rdBytes s (greg s ra + imm.signExtend 32).toNat 1))).signExtend 32) s)) ∧
  (∀ (rd ra : Reg) (imm : BitVec 17) (s : State),
    Plain s → ReadsRam (greg s ra + imm.signExtend 32) .b s →
    exec (.ldBz rd ra imm) s = .next (loading rd (BitVec.ofNat 32 (unle (rdBytes s (greg s ra + imm.signExtend 32).toNat 1))) s)) ∧
  (∀ (rs ra : Reg) (imm : BitVec 17) (s : State),
    Plain s → WritesRam (greg s ra + imm.signExtend 32) .w s →
    exec (.stW rs ra imm) s = .next (wentTo (s.core.pc + 4#32) (wrBytes s (greg s ra + imm.signExtend 32).toNat (le 4 (greg s rs).toNat)))) ∧
  (∀ (rs ra : Reg) (imm : BitVec 17) (s : State),
    Plain s → WritesRam (greg s ra + imm.signExtend 32) .h s →
    exec (.stH rs ra imm) s = .next (wentTo (s.core.pc + 4#32) (wrBytes s (greg s ra + imm.signExtend 32).toNat (le 2 (greg s rs).toNat)))) ∧
  (∀ (rs ra : Reg) (imm : BitVec 17) (s : State),
    Plain s → WritesRam (greg s ra + imm.signExtend 32) .b s →
    exec (.stB rs ra imm) s = .next (wentTo (s.core.pc + 4#32) (wrBytes s (greg s ra + imm.signExtend 32).toNat (le 1 (greg s rs).toNat))))

/-- R604 to R606, R609: the checks of an access in their order, each with its exception, and those of a fetch; a halted core executes nothing. -/
def Obligations.AccessFaults : Prop :=
  (∀ (rd ra : Reg) (imm : BitVec 17) (s : State),
    Plain s → misaligned (greg s ra + imm.signExtend 32).toNat .w = true →
    exec (.ldW rd ra imm) s = .next (raiseExc { exc := 3, kind := some 0, slotb := some false, addr := greg s ra + imm.signExtend 32 } s.core.pc s)) ∧
  (∀ (rd ra : Reg) (imm : BitVec 17) (s : State),
    Plain s → misaligned (greg s ra + imm.signExtend 32).toNat .h = true →
    exec (.ldHs rd ra imm) s = .next (raiseExc { exc := 3, kind := some 0, slotb := some false, addr := greg s ra + imm.signExtend 32 } s.core.pc s)) ∧
  (∀ (rd ra : Reg) (imm : BitVec 17) (s : State),
    Plain s → misaligned (greg s ra + imm.signExtend 32).toNat .h = true →
    exec (.ldHz rd ra imm) s = .next (raiseExc { exc := 3, kind := some 0, slotb := some false, addr := greg s ra + imm.signExtend 32 } s.core.pc s)) ∧
  (∀ (rs ra : Reg) (imm : BitVec 17) (s : State),
    Plain s → misaligned (greg s ra + imm.signExtend 32).toNat .w = true →
    exec (.stW rs ra imm) s = .next (raiseExc { exc := 3, kind := some 1, slotb := some false, addr := greg s ra + imm.signExtend 32 } s.core.pc s)) ∧
  (∀ (rs ra : Reg) (imm : BitVec 17) (s : State),
    Plain s → misaligned (greg s ra + imm.signExtend 32).toNat .h = true →
    exec (.stH rs ra imm) s = .next (raiseExc { exc := 3, kind := some 1, slotb := some false, addr := greg s ra + imm.signExtend 32 } s.core.pc s)) ∧
  (∀ (rd ra : Reg) (imm : BitVec 17) (s : State),
    Plain s → misaligned (greg s ra + imm.signExtend 32).toNat .w = false → mpuAllows s.core s.core.mach 0 (greg s ra + imm.signExtend 32).toNat = false →
    exec (.ldW rd ra imm) s = .next (raiseExc { exc := 6, kind := some 0, slotb := some false, addr := greg s ra + imm.signExtend 32 } s.core.pc s)) ∧
  (∀ (rs ra : Reg) (imm : BitVec 17) (s : State),
    Plain s → misaligned (greg s ra + imm.signExtend 32).toNat .b = false → mpuAllows s.core s.core.mach 1 (greg s ra + imm.signExtend 32).toNat = false →
    exec (.stB rs ra imm) s = .next (raiseExc { exc := 6, kind := some 1, slotb := some false, addr := greg s ra + imm.signExtend 32 } s.core.pc s)) ∧
  (∀ (rd ra : Reg) (imm : BitVec 17) (s : State),
    Plain s → mpuAllows s.core s.core.mach 0 (greg s ra + imm.signExtend 32).toNat = true → placeOf (greg s ra + imm.signExtend 32).toNat = .none →
    exec (.ldBz rd ra imm) s = .next (raiseExc { exc := 2, kind := some 0, slotb := some false, addr := greg s ra + imm.signExtend 32 } s.core.pc s)) ∧
  (∀ (rs ra : Reg) (imm : BitVec 17) (s : State),
    Plain s → mpuAllows s.core s.core.mach 1 (greg s ra + imm.signExtend 32).toNat = true → placeOf (greg s ra + imm.signExtend 32).toNat = .none →
    exec (.stH rs ra imm) s = .next (raiseExc { exc := 2, kind := some 1, slotb := some false, addr := greg s ra + imm.signExtend 32 } s.core.pc s)) ∧
  (∀ (rd ra rb : Reg) (s : State),
    s.core.run = .running → s.core.pc.toNat % 4 ≠ 0 →
    exec (.add rd ra rb) s = .next (raiseExc { exc := 3, kind := some 2, slotb := some false, addr := s.core.pc } s.core.pc s)) ∧
  (∀ (off : BitVec 25) (s : State),
    s.core.run = .running → s.core.pc.toNat % 4 = 0 → mpuAllows s.core s.core.mach 2 s.core.pc.toNat = false →
    exec (.j off) s = .next (raiseExc { exc := 6, kind := some 2, slotb := some false, addr := s.core.pc } s.core.pc s)) ∧
  (∀ (s : State),
    s.core.run = .running → s.core.pc.toNat % 4 = 0 → mpuAllows s.core s.core.mach 2 s.core.pc.toNat = true → placeOf s.core.pc.toNat = .shared →
    exec .ret s = .next (raiseExc { exc := 2, kind := some 2, slotb := some false, addr := s.core.pc } s.core.pc s)) ∧
  (∀ (rd ra rb : Reg) (s : State),
    s.core.run = .halted → exec (.add rd ra rb) s = .next s)

/-- R609, R639, R640: a branch goes to its target when its condition holds and to the next word otherwise; a jump always goes. -/
def Obligations.BranchRows : Prop :=
  (∀ (ra rb : Reg) (off : BitVec 17) (s : State),
    Plain s → exec (.brEq ra rb off) s = .next (wentTo (if greg s ra = greg s rb then s.core.pc + off.signExtend 32 * 4#32 else s.core.pc + 4#32) s)) ∧
  (∀ (ra rb : Reg) (off : BitVec 17) (s : State),
    Plain s → exec (.brNe ra rb off) s = .next (wentTo (if greg s ra ≠ greg s rb then s.core.pc + off.signExtend 32 * 4#32 else s.core.pc + 4#32) s)) ∧
  (∀ (ra rb : Reg) (off : BitVec 17) (s : State),
    Plain s → exec (.brLt ra rb off) s = .next (wentTo (if (greg s ra).toInt < (greg s rb).toInt then s.core.pc + off.signExtend 32 * 4#32 else s.core.pc + 4#32) s)) ∧
  (∀ (ra rb : Reg) (off : BitVec 17) (s : State),
    Plain s → exec (.brGe ra rb off) s = .next (wentTo (if (greg s rb).toInt ≤ (greg s ra).toInt then s.core.pc + off.signExtend 32 * 4#32 else s.core.pc + 4#32) s)) ∧
  (∀ (ra rb : Reg) (off : BitVec 17) (s : State),
    Plain s → exec (.brBl ra rb off) s = .next (wentTo (if (greg s ra).toNat < (greg s rb).toNat then s.core.pc + off.signExtend 32 * 4#32 else s.core.pc + 4#32) s)) ∧
  (∀ (ra rb : Reg) (off : BitVec 17) (s : State),
    Plain s → exec (.brNb ra rb off) s = .next (wentTo (if (greg s rb).toNat ≤ (greg s ra).toNat then s.core.pc + off.signExtend 32 * 4#32 else s.core.pc + 4#32) s)) ∧
  (∀ (ra : Reg) (imm : BitVec 5) (off : BitVec 17) (s : State),
    Plain s → exec (.briEq ra imm off) s = .next (wentTo (if (greg s ra).toInt = imm.toInt then s.core.pc + off.signExtend 32 * 4#32 else s.core.pc + 4#32) s)) ∧
  (∀ (ra : Reg) (imm : BitVec 5) (off : BitVec 17) (s : State),
    Plain s → exec (.briNe ra imm off) s = .next (wentTo (if (greg s ra).toInt ≠ imm.toInt then s.core.pc + off.signExtend 32 * 4#32 else s.core.pc + 4#32) s)) ∧
  (∀ (ra : Reg) (imm : BitVec 5) (off : BitVec 17) (s : State),
    Plain s → exec (.briLt ra imm off) s = .next (wentTo (if (greg s ra).toInt < imm.toInt then s.core.pc + off.signExtend 32 * 4#32 else s.core.pc + 4#32) s)) ∧
  (∀ (ra : Reg) (imm : BitVec 5) (off : BitVec 17) (s : State),
    Plain s → exec (.briGe ra imm off) s = .next (wentTo (if imm.toInt ≤ (greg s ra).toInt then s.core.pc + off.signExtend 32 * 4#32 else s.core.pc + 4#32) s)) ∧
  (∀ (ra : Reg) (imm : BitVec 5) (off : BitVec 17) (s : State),
    Plain s → exec (.briBl ra imm off) s = .next (wentTo (if (greg s ra).toNat < imm.toNat then s.core.pc + off.signExtend 32 * 4#32 else s.core.pc + 4#32) s)) ∧
  (∀ (ra : Reg) (imm : BitVec 5) (off : BitVec 17) (s : State),
    Plain s → exec (.briNb ra imm off) s = .next (wentTo (if imm.toNat ≤ (greg s ra).toNat then s.core.pc + off.signExtend 32 * 4#32 else s.core.pc + 4#32) s)) ∧
  (∀ (off : BitVec 25) (s : State),
    Plain s → exec (.j off) s = .next (wentTo (s.core.pc + off.signExtend 32 * 4#32) s)) ∧
  (∀ (ra : Reg) (s : State),
    Plain s → (greg s ra).toNat % 4 = 0 → exec (.jmpR ra) s = .next (wentTo (greg s ra) s)) ∧
  (∀ (ra : Reg) (s : State),
    Plain s → (greg s ra).toNat % 4 ≠ 0 →
    exec (.jmpR ra) s = .next (raiseExc { exc := 3, kind := some 2, slotb := some false, addr := greg s ra } s.core.pc s))

/-- R609, R613, R614, R640 to R642: calls and returns on the hardware stack and on the memory stack. -/
def Obligations.CallAndReturnRows : Prop :=
  (∀ (off : BitVec 25) (s : State),
    Plain s → s.core.split = true → s.core.hw.length < 64 →
    exec (.call off) s = .next { s with core := { s.core with
      hw := { ret := s.core.pc + 4#32, st := none } :: s.core.hw, pc := s.core.pc + off.signExtend 32 * 4#32 } }) ∧
  (∀ (off : BitVec 25) (s : State),
    Plain s → s.core.split = true → 64 ≤ s.core.hw.length → exec (.call off) s = .next (stackFault false s)) ∧
  (∀ (off : BitVec 25) (s : State),
    Plain s → s.core.split = false → WritesRam (s.core.get 15 - 4#32) .w s →
    exec (.call off) s = .next (
      let t := wrBytes s (s.core.get 15 - 4#32).toNat (le 4 (s.core.pc + 4#32).toNat)
      { t with core := { s.core.put 15 (s.core.get 15 - 4#32) with pc := s.core.pc + off.signExtend 32 * 4#32 } })) ∧
  (∀ (ra : Reg) (s : State),
    Plain s → (greg s ra).toNat % 4 = 0 → s.core.split = true → s.core.hw.length < 64 →
    exec (.callR ra) s = .next { s with core := { s.core with hw := { ret := s.core.pc + 4#32, st := none } :: s.core.hw, pc := greg s ra } }) ∧
  (∀ (ra : Reg) (s : State),
    Plain s → (greg s ra).toNat % 4 = 0 → s.core.split = false → WritesRam (s.core.get 15 - 4#32) .w s →
    exec (.callR ra) s = .next (
      let t := wrBytes s (s.core.get 15 - 4#32).toNat (le 4 (s.core.pc + 4#32).toNat)
      { t with core := { s.core.put 15 (s.core.get 15 - 4#32) with pc := greg s ra } })) ∧
  (∀ (ra : Reg) (s : State),
    Plain s → (greg s ra).toNat % 4 ≠ 0 →
    exec (.callR ra) s = .next (raiseExc { exc := 3, kind := some 2, slotb := some false, addr := greg s ra } s.core.pc s)) ∧
  (∀ (a : Word) (l : List HwEntry) (s : State),
    Plain s → s.core.split = true → s.core.hw = { ret := a, st := none } :: l → a.toNat % 4 = 0 →
    exec .ret s = .next { s with core := { s.core with hw := l, pc := a } }) ∧
  (∀ (s : State),
    Plain s → s.core.split = true → s.core.hw = [] → exec .ret s = .next (stackFault true s)) ∧
  (∀ (a v : Word) (l : List HwEntry) (s : State),
    Plain s → s.core.split = true → s.core.hw = { ret := a, st := some v } :: l → exec .ret s = .next (stackFault true s)) ∧
  (∀ (a : Word) (s : State),
    Plain s → s.core.split = false → ReadsRam (s.core.get 15) .w s → unle (rdBytes s (s.core.get 15).toNat 4) = a.toNat → a.toNat % 4 = 0 →
    exec .ret s = .next { s with core := { s.core.put 15 (s.core.get 15 + 4#32) with pc := a } }) ∧
  (∀ (a v : Word) (l : List HwEntry) (s : State),
    Plain s → s.core.mach = true → s.core.split = true → s.core.hw = { ret := a, st := some v } :: l → a.toNat % 4 = 0 →
    exec .rfe s = .next { s with core := { s.core with
      ie := bit v 0, mach := bit v 1, ract := bit v 3, runi := bit v 4, ilvl := v.extractLsb' 8 4, hw := l, pc := a } }) ∧
  (∀ (a v : Word) (s : State),
    Plain s → s.core.mach = true → s.core.split = false → ReadsRam s.core.spm .w s → ReadsRam (s.core.spm + 4#32) .w s →
    unle (rdBytes s s.core.spm.toNat 4) = a.toNat → unle (rdBytes s (s.core.spm + 4#32).toNat 4) = v.toNat → a.toNat % 4 = 0 →
    exec .rfe s = .next { s with core := { s.core with
      ie := bit v 0, mach := bit v 1, ract := bit v 3, runi := bit v 4, ilvl := v.extractLsb' 8 4, spm := s.core.spm + 8#32, pc := a } }) ∧
  (∀ (s : State),
    Plain s → s.core.mach = false →
    exec .rfe s = .next (raiseExc { exc := 5, kind := none, slotb := some false, addr := s.core.pc } s.core.pc s))

/-- R613, R614, R617, R619 to R622, R627, R642: taking an exception and an interrupt; syscall, break, wait and an undefined word. -/
def Obligations.ExceptionRows : Prop :=
  (∀ (v : Word) (s : State),
    Plain s → s.core.split = true → s.core.hw.length < 64 → Vectored 7 v s →
    exec .syscall s = .next (entered v (s.core.pc + 4#32) none s)) ∧
  (∀ (v : Word) (s : State),
    Plain s → s.core.split = true → s.core.hw.length < 64 → Vectored 8 v s → s.boot.debug = 0 →
    exec .break_ s = .next (entered v (s.core.pc + 4#32) none s)) ∧
  (∀ (s : State),
    Plain s → 1 ≤ s.boot.debug → s.core.debugHalt = true →
    exec .break_ s = .next { s with core := { s.core with run := .halted, pc := s.core.pc + 4#32 } }) ∧
  (∀ (exc k : Nat) (b : Bool) (a v ret : Word) (s : State),
    Plain s → s.core.split = true → s.core.hw.length < 64 → Vectored exc v s → exc ≠ 7 → exc ≠ 8 →
    raiseExc { exc := exc, kind := some k, slotb := some b, addr := a } ret s =
      { entered v ret none s with core := { (entered v ret none s).core with
        faddr := a, fcause := BitVec.ofNat 8 (exc + 16 * k + 64 * b2n b) } }) ∧
  (∀ (v : Word) (s : State),
    Plain s → MemWf s → s.core.split = false → Vectored 7 v s → s.core.spm.toNat % 4 = 0 →
    mpuAllows s.core true 1 (s.core.spm - 4#32).toNat = true → mpuAllows s.core true 1 (s.core.spm - 8#32).toNat = true →
    placeOf (s.core.spm - 4#32).toNat = .ram → placeOf (s.core.spm - 8#32).toNat = .ram →
    (∀ k < 4, (vectorAddr s 7).toNat + k < (s.core.spm - 8#32).toNat ∨ (s.core.spm - 4#32).toNat + 4 ≤ (vectorAddr s 7).toNat + k) →
    exec .syscall s = .next (
      let t := wrBytes (wrBytes s (s.core.spm - 4#32).toNat (le 4 s.core.st.toNat)) (s.core.spm - 8#32).toNat (le 4 (s.core.pc + 4#32).toNat)
      { t with core := { s.core with spm := s.core.spm - 8#32, mach := true, ie := false, ract := false, runi := false, pc := v } })) ∧
  (∀ (w : Word) (s : State),
    Plain s → wordDefined w = false → bit w 31 = false →
    exec (.illegalEncoding w) s = .next (raiseExc { exc := 4, kind := none, slotb := some false, addr := s.core.pc } s.core.pc s)) ∧
  (∀ (n : Nat) (v : Word) (s : State),
    Plain s → s.core.split = true → s.core.hw.length < 64 → nextSource s = some n → Vectored (16 + n) v s →
    exec .interruptEntry s = .next (entered v s.core.pc (some (BitVec.ofNat 4 ((at_ 0#3 s.core.ipri n).toNat + 1))) s)) ∧
  (∀ (s : State),
    s.core.run = .running → nextSource s = none → exec .interruptEntry s = .next s) ∧
  (∀ (s : State),
    Plain s → enabledPends s = false →
    exec .wait_ s = .next { s with core := { s.core with run := .waiting, pc := s.core.pc + 4#32 } }) ∧
  (∀ (s : State),
    Plain s → enabledPends s = true → exec .wait_ s = .next (wentTo (s.core.pc + 4#32) s)) ∧
  (∀ (s : State),
    s.core.run = .waiting → enabledPends s = true → s.core.ie = false →
    exec .interruptEntry s = .next { s with core := { s.core with run := .running } })

/-- R602, R603, R615, R643: the system registers: what a read gives, what a write changes, and who may. -/
def Obligations.SystemRegisterRows : Prop :=
  (∀ (rd : Reg) (s : State), Plain s → exec (.mfs rd 0) s = .next (wrote rd s.core.st s)) ∧
  (∀ (rd : Reg) (s : State), Plain s → exec (.mfs rd 1) s = .next (wrote rd (BitVec.ofNat 32 s.core.rpc) s)) ∧
  (∀ (rd : Reg) (s : State), Plain s → s.core.mach = true → exec (.mfs rd 2) s = .next (wrote rd (s.core.vbase ++ 0#8) s)) ∧
  (∀ (rd : Reg) (s : State), Plain s → s.core.mach = true → exec (.mfs rd 3) s = .next (wrote rd s.core.spt s)) ∧
  (∀ (rd : Reg) (s : State), Plain s → s.core.mach = true → exec (.mfs rd 4) s = .next (wrote rd s.core.spm s)) ∧
  (∀ (rd : Reg) (s : State), Plain s → s.core.mach = true → exec (.mfs rd 5) s = .next (wrote rd s.core.faddr s)) ∧
  (∀ (rd : Reg) (s : State), Plain s → s.core.mach = true → exec (.mfs rd 6) s = .next (wrote rd (BitVec.ofNat 32 s.core.fcause.toNat) s)) ∧
  (∀ (rd : Reg) (s : State), Plain s → s.core.mach = true → exec (.mfs rd 7) s = .next (wrote rd (BitVec.ofNat 32 s.core.hw.length) s)) ∧
  (∀ (rd : Reg) (s : State), Plain s → s.core.mach = true → exec (.mfs rd 20) s = .next (wrote rd 0 s)) ∧
  (∀ (rd : Reg) (sr : BitVec 8) (s : State),
    Plain s → s.core.mach = false → srListed sr.toNat = true → sr.toNat ≠ 0 → sr.toNat ≠ 1 → sr.toNat ≠ 8 →
    exec (.mfs rd sr) s = .next (raiseExc { exc := 5, kind := none, slotb := some false, addr := s.core.pc } s.core.pc s)) ∧
  (∀ (rd : Reg) (sr : BitVec 8) (s : State),
    Plain s → srListed sr.toNat = false →
    exec (.mfs rd sr) s = .next (raiseExc { exc := 4, kind := none, slotb := some false, addr := s.core.pc } s.core.pc s)) ∧
  (∀ (ra : Reg) (s : State),
    Plain s → s.core.mach = true → s.core.split = false →
    exec (.mts 0 ra) s = .next { s with core := { s.core with
      ie := bit (greg s ra) 0, mach := bit (greg s ra) 1, ract := bit (greg s ra) 3, runi := bit (greg s ra) 4,
      ilvl := (greg s ra).extractLsb' 8 4, pc := s.core.pc + 4#32 } }) ∧
  (∀ (ra : Reg) (s : State),
    Plain s → s.core.mach = true → s.core.split = true → bit (greg s ra) 2 = false → s.pwr.mode ≠ .service → s.core.hw = [] →
    exec (.mts 0 ra) s = .next { s with core := { s.core with
      ie := bit (greg s ra) 0, mach := bit (greg s ra) 1, ract := bit (greg s ra) 3, runi := bit (greg s ra) 4,
      ilvl := (greg s ra).extractLsb' 8 4, split := false, pc := s.core.pc + 4#32 } }) ∧
  (∀ (ra : Reg) (s : State),
    Plain s → exec (.mts 1 ra) s = .next { s with core := { s.core with rpc := (greg s ra).toNat % 512, pc := s.core.pc + 4#32 } }) ∧
  (∀ (ra : Reg) (s : State),
    Plain s → s.core.mach = true →
    exec (.mts 2 ra) s = .next { s with core := { s.core with vbase := (greg s ra).extractLsb' 8 24, pc := s.core.pc + 4#32 } }) ∧
  (∀ (ra : Reg) (s : State),
    Plain s → s.core.mach = true → exec (.mts 3 ra) s = .next { s with core := { s.core with spt := greg s ra, pc := s.core.pc + 4#32 } }) ∧
  (∀ (ra : Reg) (s : State),
    Plain s → s.core.mach = true → exec (.mts 4 ra) s = .next { s with core := { s.core with spm := greg s ra, pc := s.core.pc + 4#32 } }) ∧
  (∀ (ra : Reg) (s : State),
    Plain s → s.core.mach = true →
    exec (.mts 16 ra) s = .next { s with core := { s.core with ien := s.core.ien.extractLsb' 32 32 ++ greg s ra, pc := s.core.pc + 4#32 } }) ∧
  (∀ (ra : Reg) (s : State),
    Plain s → s.core.mach = true →
    exec (.mts 20 ra) s = .next { s with core := { s.core with swi := s.core.swi ||| (greg s ra).extractLsb' 0 8, pc := s.core.pc + 4#32 } }) ∧
  (∀ (ra : Reg) (s : State),
    Plain s → s.core.mach = true →
    exec (.mts 48 ra) s = .next { s with core := { s.core with mpuCtl := (greg s ra).extractLsb' 0 2, pc := s.core.pc + 4#32 } }) ∧
  (∀ (sr : BitVec 8) (ra : Reg) (s : State),
    Plain s → s.core.mach = true → 5 ≤ sr.toNat → sr.toNat ≤ 7 →
    exec (.mts sr ra) s = .next (raiseExc { exc := 4, kind := none, slotb := some false, addr := s.core.pc } s.core.pc s)) ∧
  (∀ (sr : BitVec 8) (ra : Reg) (s : State),
    Plain s → s.core.mach = false → srListed sr.toNat = true → sr.toNat ≠ 1 →
    exec (.mts sr ra) s = .next (raiseExc { exc := 5, kind := none, slotb := some false, addr := s.core.pc } s.core.pc s))

/-- R610, R611, R638, R644: a word ends: the load before it lands, unless the word writes the same register; a repeat counts down.
R607, R608, R635, R637: both slots of a pair read at the start of the word and write at its end. -/
def Obligations.PairsRepeatsAndDelays : Prop :=
  (∀ (f : BitVec 8) (w : Word) (s : State),
    Plain s → peek s (s.core.pc + 4#32).toNat = some w → notRepeatable w = false →
    exec (.repI (.imm f)) s = .next { s with core := { s.core with ract := true, runi := false, rpc := f.toNat + 1, pc := s.core.pc + 4#32 } }) ∧
  (∀ (f : BitVec 8) (w : Word) (s : State),
    Plain s → f.toNat ≤ 63 → peek s (s.core.pc + 4#32).toNat = some w → notRepeatable w = false →
    exec (.repU (.imm f)) s = .next { s with core := { s.core with ract := true, runi := true, rpc := f.toNat + 1, pc := s.core.pc + 4#32 } }) ∧
  (∀ (ra : Reg) (w : Word) (s : State),
    Plain s → greg s ra = 0 → peek s (s.core.pc + 4#32).toNat = some w → notRepeatable w = false →
    exec (.repI (.reg ra)) s = .next (wentTo (s.core.pc + 8#32) s)) ∧
  (∀ (ra : Reg) (s : State),
    Plain s → 64 < (greg s ra).toNat →
    exec (.repU (.reg ra)) s = .next (raiseExc { exc := 4, kind := none, slotb := some false, addr := s.core.pc } s.core.pc s)) ∧
  (∀ (f : BitVec 8) (w : Word) (s : State),
    Plain s → peek s (s.core.pc + 4#32).toNat = some w → notRepeatable w = true →
    exec (.repI (.imm f)) s = .next (raiseExc { exc := 4, kind := none, slotb := some false, addr := s.core.pc } s.core.pc s)) ∧
  (∀ (rd ra rb : Reg) (s : State),
    s.core.run = .running → fetchFails s = none → s.core.pendLoad = none → s.core.ract = true → 1 < s.core.rpc →
    exec (.add rd ra rb) s = .next { s with core := { s.core.put rd.toNat (greg s ra + greg s rb) with rpc := s.core.rpc - 1 } }) ∧
  (∀ (rd ra rb : Reg) (s : State),
    s.core.run = .running → fetchFails s = none → s.core.pendLoad = none → s.core.ract = true → s.core.rpc ≤ 1 →
    exec (.add rd ra rb) s = .next { s with core := { s.core.put rd.toNat (greg s ra + greg s rb) with
      ract := false, runi := false, rpc := 0, pc := s.core.pc + 4#32 } }) ∧
  (∀ (rd ra rb : Reg) (r : Nat) (v : Word) (s : State),
    s.core.run = .running → fetchFails s = none → s.core.pendLoad = some (r, v) → s.core.ract = false →
    exec (.add rd ra rb) s = .next { s with core := { (s.core.put r v).put rd.toNat (greg s ra + greg s rb) with
      pendLoad := none, pc := s.core.pc + 4#32 } }) ∧
  (∀ (rd ra rb : Reg) (v : Word) (s : State),
    s.core.run = .running → fetchFails s = none → s.core.pendLoad = some (rd.toNat, v) → s.core.ract = false → rd.toNat < 15 →
    exec (.add rd ra rb) s = .next { s with core := { s.core.put rd.toNat (greg s ra + greg s rb) with
      pendLoad := none, pc := s.core.pc + 4#32 } }) ∧
  (∀ (s : State),
    Plain s →
    exec (.pairWord { op := 0, rd := 0, rs := 0, md := 0 } { op := 0, rd := 0, rs := 0, md := 0 }) s = .next (wentTo (s.core.pc + 4#32) s)) ∧
  (∀ (a b c d : Reg) (s : State),
    Plain s → a ≠ c →
    exec (.pairWord { op := 1, rd := a, rs := b, md := 0 } { op := 1, rd := c, rs := d, md := 0 }) s =
      .next { s with core := { (s.core.put a.toNat (greg s b)).put c.toNat (greg s d) with pc := s.core.pc + 4#32 } }) ∧
  (∀ (a b c d : Reg) (s : State),
    Plain s → a ≠ c →
    exec (.pairWord { op := 2, rd := a, rs := b, md := 0 } { op := 3, rd := c, rs := d, md := 0 }) s =
      .next { s with core := { (s.core.put a.toNat (greg s a + greg s b)).put c.toNat (greg s c - greg s d) with pc := s.core.pc + 4#32 } }) ∧
  (∀ (a b : Reg) (s : State),
    Plain s → a ≠ b → ReadsRam (greg s b) .w s →
    exec (.pairWord { op := 19, rd := a, rs := b, md := 1 } { op := 0, rd := 0, rs := 0, md := 0 }) s =
      .next { s with core := { s.core.put b.toNat (greg s b + 4#32) with
        pendLoad := some (a.toNat, BitVec.ofNat 32 (unle (rdBytes s (greg s b).toNat 4))), pc := s.core.pc + 4#32 } }) ∧
  (∀ (a b : Reg) (s : State),
    Plain s → WritesRam (greg s a - 4#32) .w s →
    exec (.pairWord { op := 0, rd := 0, rs := 0, md := 0 } { op := 24, rd := a, rs := b, md := 2 }) s =
      .next (let t := wrBytes s (greg s a - 4#32).toNat (le 4 (greg s b).toNat)
        { t with core := { s.core.put a.toNat (greg s a - 4#32) with pc := s.core.pc + 4#32 } })) ∧
  (∀ (a b : Short) (f : Option Bool) (s : State),
    Plain s → pairFault a b = some f →
    exec (.pairWord a b) s = .next (raiseExc { exc := 4, kind := none, slotb := f, addr := s.core.pc } s.core.pc s))

/-- R604, R636: a store to RAM writes the bytes of its width at its address, least significant first; every other byte of RAM reads as before, and so does
every register but the program counter. -/
def Obligations.StoreFrame : Prop :=
  let stored (a : Word) (n : Nat) (x : Word) (s t : State) : Prop :=
    (∀ k < n, rdMem t (a.toNat + k) = x.extractLsb' (8 * k) 8) ∧ (∀ b, (b < a.toNat ∨ a.toNat + n ≤ b) → rdMem t b = rdMem s b) ∧
      t.core = { s.core with pc := s.core.pc + 4#32 }
  (∀ (rs ra : Reg) (imm : BitVec 17) (s : State),
    Plain s → MemWf s → WritesRam (greg s ra + imm.signExtend 32) .w s →
    ∃ t, exec (.stW rs ra imm) s = .next t ∧ stored (greg s ra + imm.signExtend 32) 4 (greg s rs) s t) ∧
  (∀ (rs ra : Reg) (imm : BitVec 17) (s : State),
    Plain s → MemWf s → WritesRam (greg s ra + imm.signExtend 32) .h s →
    ∃ t, exec (.stH rs ra imm) s = .next t ∧ stored (greg s ra + imm.signExtend 32) 2 (greg s rs) s t) ∧
  (∀ (rs ra : Reg) (imm : BitVec 17) (s : State),
    Plain s → MemWf s → WritesRam (greg s ra + imm.signExtend 32) .b s →
    ∃ t, exec (.stB rs ra imm) s = .next t ∧ stored (greg s ra + imm.signExtend 32) 1 (greg s rs) s t)

/-- R601: a general register holds what is written to it and no other changes; u15 is the stack pointer of the privilege in force. -/
def Obligations.GeneralRegisters : Prop :=
  (∀ (c : Core) (r : Reg) (v : Word),
    c.u.length = 15 → (c.put r.toNat v).get r.toNat = v) ∧
  (∀ (c : Core) (r q : Reg) (v : Word),
    q ≠ r → (c.put r.toNat v).get q.toNat = c.get q.toNat) ∧
  (∀ (c : Core) (v : Word),
    c.mach = true → c.get 15 = c.spm ∧ c.put 15 v = { c with spm := v }) ∧
  (∀ (c : Core) (v : Word),
    c.mach = false → c.get 15 = c.spt ∧ c.put 15 v = { c with spt := v })

/-- R606: which region decides, what its permission bits allow, and the privilege at which an entry's pushes and its vector read are checked. -/
def Obligations.MpuRegions : Prop :=
  (∀ (c : Core) (mach : Bool) (kind a : Nat),
    bit c.mpuCtl 0 = false → mpuAllows c mach kind a = true) ∧
  (∀ (c : Core) (l h : List MpuRegion) (r : MpuRegion) (mach : Bool) (kind a : Nat),
    bit c.mpuCtl 0 = true → c.mpu = l ++ r :: h → r.en = true → a / 2 ^ (r.size + 1) = r.base.toNat * 256 / 2 ^ (r.size + 1) →
    (∀ q ∈ h, q.en = true → a / 2 ^ (q.size + 1) ≠ q.base.toNat * 256 / 2 ^ (q.size + 1)) →
    mpuAllows c mach kind a = if mach then (!bit c.mpuCtl 1 || bit r.perm (3 + kind)) else bit r.perm kind) ∧
  (∀ (c : Core) (mach : Bool) (kind a : Nat),
    bit c.mpuCtl 0 = true → (∀ q ∈ c.mpu, q.en = true → a / 2 ^ (q.size + 1) ≠ q.base.toNat * 256 / 2 ^ (q.size + 1)) →
    mpuAllows c mach kind a = mach) ∧
  (∀ (ret : Word) (s : State),
    s.core.split = false → s.core.spm.toNat % 4 = 0 → mpuAllows s.core true 1 (s.core.spm - 4#32).toNat = false →
    placeOf (s.core.spm - 4#32).toNat = .ram → entryPush ret s = .failed (s.core.spm - 4#32) s) ∧
  (∀ (n : Nat) (level : Option (BitVec 4)) (ret : Word) (s : State),
    s.core.split = true → s.core.hw.length < 64 → mpuAllows s.core true 0 (vectorAddr s n).toNat = false →
    enter n level ret s = .failed (vectorAddr s n) s)

/-- R638: the short loads and stores that update their address register, a fault among their accesses, and a load of u15 before a change of privilege. -/
def Obligations.UpdatingLoadsAndStores : Prop :=
  (∀ (op : BitVec 5) (m : BitVec 2) (r : Reg) (x : Short) (s : State),
    Plain s → 19 ≤ op.toNat → op.toNat ≤ 23 → (m = 1 ∨ m = 2) →
    ∃ f, exec (.pairWord { op := op, rd := r, rs := r, md := m } x) s =
      .next (raiseExc { exc := 4, kind := none, slotb := f, addr := s.core.pc } s.core.pc s)) ∧
  (∀ (op : BitVec 5) (m : BitVec 2) (r : Reg) (x : Short) (s : State),
    Plain s → 19 ≤ op.toNat → op.toNat ≤ 23 → (m = 1 ∨ m = 2) →
    ∃ f, exec (.pairWord x { op := op, rd := r, rs := r, md := m }) s =
      .next (raiseExc { exc := 4, kind := none, slotb := f, addr := s.core.pc } s.core.pc s)) ∧
  (∀ (r : Reg) (s : State),
    Plain s → WritesRam (greg s r) .w s →
    exec (.pairWord { op := 24, rd := r, rs := r, md := 1 } { op := 0, rd := 0, rs := 0, md := 0 }) s =
      .next (let t := wrBytes s (greg s r).toNat (le 4 (greg s r).toNat)
        { t with core := { s.core.put r.toNat (greg s r + 4#32) with pc := s.core.pc + 4#32 } })) ∧
  (∀ (r : Reg) (s : State),
    Plain s → WritesRam (greg s r - 2#32) .h s →
    exec (.pairWord { op := 25, rd := r, rs := r, md := 2 } { op := 0, rd := 0, rs := 0, md := 0 }) s =
      .next (let t := wrBytes s (greg s r - 2#32).toNat (le 2 (greg s r).toNat)
        { t with core := { s.core.put r.toNat (greg s r - 2#32) with pc := s.core.pc + 4#32 } })) ∧
  (∀ (r : Reg) (s : State),
    Plain s → WritesRam (greg s r - 1#32) .b s →
    exec (.pairWord { op := 26, rd := r, rs := r, md := 2 } { op := 0, rd := 0, rs := 0, md := 0 }) s =
      .next (let t := wrBytes s (greg s r - 1#32).toNat (le 1 (greg s r).toNat)
        { t with core := { s.core.put r.toNat (greg s r - 1#32) with pc := s.core.pc + 4#32 } })) ∧
  (∀ (a b : Reg) (e : Nat) (s t : State),
    Plain s → a ≠ b → coreRead s.core.mach (greg s b) .w (some a.toNat) s = .fail e t →
    exec (.pairWord { op := 19, rd := a, rs := b, md := 1 } { op := 0, rd := 0, rs := 0, md := 0 }) s =
      .next (raiseExc { exc := e, kind := some 0, slotb := some false, addr := greg s b } t.core.pc t)) ∧
  (∀ (a b : Reg) (e : Nat) (s t : State),
    Plain s → coreWrite s.core.mach (greg s a) .w (greg s b) s = .fail e t →
    exec (.pairWord { op := 24, rd := a, rs := b, md := 1 } { op := 0, rd := 0, rs := 0, md := 0 }) s =
      .next (raiseExc { exc := e, kind := some 1, slotb := some false, addr := greg s a } t.core.pc t)) ∧
  (∀ (m : Bool) (a : Word) (z : Size) (rd : Option Nat) (e : Nat) (s t : State),
    coreRead m a z rd s = .fail e t → t.core = s.core) ∧
  (∀ (m : Bool) (a v : Word) (z : Size) (e : Nat) (s t : State),
    coreWrite m a z v s = .fail e t → t = s) ∧
  (∀ (ra : Reg) (v : Word) (s : State),
    s.core.run = .running → fetchFails s = none → s.core.pendLoad = some (15, v) → s.core.mach = true → s.core.split = false →
    exec (.mts 0 ra) s = .next { s with core := { s.core with
      ie := bit (greg s ra) 0, mach := bit (greg s ra) 1, ract := bit (greg s ra) 3, runi := bit (greg s ra) 4,
      ilvl := (greg s ra).extractLsb' 8 4, pc := s.core.pc + 4#32, pendLoad := none,
      spm := if bit (greg s ra) 1 then v else s.core.spm, spt := if bit (greg s ra) 1 then s.core.spt else v } }) ∧
  (∀ (ra rb : Reg) (v : Word) (s : State),
    s.core.run = .running → fetchFails s = none → s.core.pendLoad = some (15, v) → s.core.ract = false → s.core.mach = false → s.core.u.length = 15 →
    exec (.add 0 ra rb) s = .next { s with core := { s.core with
      u := s.core.u.set 0 (greg s ra + greg s rb), pc := s.core.pc + 4#32, pendLoad := none, spt := v } })

end
end

