-- ==== Sys2Proof/Laws/Serve.lean ====
section
/-! SUPPORT. What serving a request does, once: `serve` for a request that stands. -/

set_option Elab.async false
set_option linter.all false

namespace Sys2Proof.Machine

@[simp] theorem requestOf_taken (s : State) (n : Nat) : requestOf (taken s) n = requestOf s n := by
  unfold requestOf
  generalize 256 = k, reqBuf n = a
  induction k generalizing a with
  | zero => rfl
  | succ k ih => simp only [rdBytes, ih]; rfl

@[simp] theorem chanOwner_taken (s : State) (n : Nat) : chanOwner (taken s) n = chanOwner s n := rfl

@[simp] theorem taken_taken (s : State) : taken (taken s) = taken s := by
  have h : ∀ l : BitVec 10, setBit (setBit l 8 false) 8 false = setBit l 8 false := by
    intro l; simp [setBit, BitVec.and_assoc]
  simp [taken, updPwr, h]

theorem length_slice (p : List Byte) (o k : Nat) : (slice p o k).length = k := by
  unfold slice; simp <;> omega

theorem response_ne_nil (req : List Byte) (st det : Nat) (body : List Byte) (auth : Option (List Byte)) :
    response req st det body auth ≠ [] := by
  intro h
  have h1 : (slice req 0 4).length = 4 := length_slice _ _ _
  cases auth with
  | none => simp [response] at h; simp [h.1] at h1
  | some k => simp [response] at h; simp [h.1] at h1

section
variable (op : Nat) (v : Srv) (s : State)
@[simp] theorem ctxOf_op : (ctxOf op v s).op = op := rfl
@[simp] theorem ctxOf_req : (ctxOf op v s).req = chanOwner s v.ch := rfl
@[simp] theorem ctxOf_chan : (ctxOf op v s).chan = v.ch := rfl
@[simp] theorem ctxOf_auth : (ctxOf op v s).auth = none := rfl
@[simp] theorem ctxOf_wFail : (ctxOf op v s).wFail = v.wFail := rfl
@[simp] theorem ctxOf_shot : (ctxOf op v s).shot = false := rfl
end

/-- A command that answers PENDING holds the lowest free slot. -/
theorem pendR_held {op : Nat} {v : Srv} {s t : State} {n : Nat} (go : Nat → State) (h : freeSlot t = some n) :
    pendR (ctxOf op v s) t go = ⟨heldSlot op v n s (go n), stPENDING, n, []⟩ := by
  simp only [pendR, h]; rfl

/-- A list of checks that all pass lets the command go on. -/
theorem guardR_pass {s : State} {l : List (Bool × Nat)} (go : Unit → Res) (h : Pass l) : guardR s l go = go () := by
  have : firstBad l = none := by
    induction l with
    | nil => rfl
    | cons a l ih => simp [firstBad, h a (by simp), ih (fun c hc => h c (by simp [hc]))]
  simp [guardR, this]

/-- A command that passed its own checks and that nothing holds back runs as it is. -/
theorem holdBack_free {op : Nat} {s : State} (c : Cmd) (r : Res) (hc : c.op = op) (h : Unhindered op s) : holdBack c s r = r := by
  subst hc
  unfold holdBack
  rcases h with ⟨h1, h2⟩
  rw [if_neg]
  intro h
  simp at h
  rcases h with ⟨-, h | h⟩
  · rcases h1 with h1 | h1 <;> simp_all
  · rcases h2 with h2 | h2 <;> simp_all

/-- A command that changes no state is never held back. -/
theorem holdBack_get {s : State} (c : Cmd) (r : Res) (h : c.sets = false) : holdBack c s r = r := by
  simp [holdBack, h]

/-- The checks of R53 let a request without AUTH through to its command. -/
theorem handle_plain {op : Nat} {core : CoreFn} {who : Requester} {chan : Nat} {cf : Option Nat} {wf : Option (Nat × Nat)}
    {req p : List Byte} {t : State} (c : Cmd) (ho : u16 req 0 = op) (hlen : u16 req 4 = p.length) (hf : u16 req 6 = 0)
    (hp : slice req 16 p.length = p) (hg : chan = 0 → bits op 8 8 = 1) (hc : cmdOf op = some c) (hn : c.len.ok p.length p = true)
    (hl : p.length ≤ 240) (hr : c.critical = false) :
    handle core who chan cf wf req t =
      (let r := runCore core c { op := op, req := who, chan := chan, seq := u16 req 2, auth := none, wFail := wf, shot := false } p t
       (r.s, answer req r none)) := by
  unfold handle
  simp only [ho, hlen, hf, hp, hc]
  rw [if_neg (by rintro ⟨a, b⟩; exact b (hg a)), if_neg (by decide), if_neg (by simp [hn]; exact hl), if_neg (by simp [hr])]
  rw [if_pos (by simp)]

/-- A request without AUTH that stands, and whose opcode takes it, reaches its command; the answer goes to its channel. -/
theorem serve_stands {op : Nat} {core : CoreFn} {v : Srv} {p : List Byte} {s : State} (c : Cmd) (h : Stands op v p s)
    (hc : cmdOf op = some c) (hn : c.len.ok p.length p = true) (hl : p.length ≤ 240) (hr : c.critical = false) :
    serve op core v s =
      (let r := holdBack c (taken s) (core (ctxOf op v s) p (taken s))
       if r.st = noAnswer then r.s else reply v.ch (response (requestOf s v.ch) r.st r.det r.body none) r.s) := by
  have hst : (taken s).boot.stage ≠ .loader := h.firmware
  have hrun : ∀ x, runCore core c x p (taken s) = holdBack c (taken s) (core x p (taken s)) := by
    intro x; rw [runCore, if_neg (by simp [hst])]
  unfold serve
  rw [if_pos (by simp [h.serves, h.next, h.opcode]),
    handle_plain c h.opcode h.length h.flags h.payload h.group hc hn hl hr, hrun]
  have hctx : ({ op := op, req := chanOwner s v.ch, chan := v.ch, seq := u16 (requestOf s v.ch) 2, auth := none, wFail := v.wFail, shot := false } : Ctx)
      = ctxOf op v s := rfl
  rw [hctx]
  generalize holdBack c (taken s) (core (ctxOf op v s) p (taken s)) = r
  by_cases hr : r.st = noAnswer
  · simp [answer, hr]
  · simp [answer, hr, response_ne_nil]

/-- As a command with AUTH is told of its request. -/
def ctxAuth (op : Nat) (v : Srv) (s : State) : Ctx := { ctxOf op v s with auth := some (commandKey s) }

/-- A request with AUTH that stands reaches its command in the state `accepted`; its answer carries a trailer. -/
theorem serve_stands_auth {op : Nat} {core : CoreFn} {v : Srv} {p : List Byte} {s : State} (c : Cmd) (h : StandsAuth op v p s)
    (hc : cmdOf op = some c) (hn : c.len.ok p.length p = true) (hl : p.length ≤ 232) :
    serve op core v s =
      (let r := holdBack c (accepted v s) (core (ctxAuth op v s) p (accepted v s))
       if r.st = noAnswer then r.s else reply v.ch (response (requestOf s v.ch) r.st r.det r.body (some (commandKey s))) r.s) := by
  have hst : (accepted v s).boot.stage ≠ .loader := h.firmware
  have hrun : ∀ x, runCore core c x p (accepted v s) = holdBack c (accepted v s) (core x p (accepted v s)) := by
    intro x; rw [runCore, if_neg (by simp [hst])]
  have hk : ∀ t : State, t.cipher.slot = s.cipher.slot → commandKey t = commandKey s := by
    intro t ht; simp [commandKey, ht]
  have htr : trailerOk (taken s) (requestOf s v.ch) = true := by
    have := h.trailer
    simpa [trailerOk, hk (taken s) rfl] using this
  have hh : handle core (chanOwner s v.ch) v.ch v.ctrFail v.wFail (requestOf s v.ch) (taken s) =
      (let r := runCore core c (ctxAuth op v s) p (accepted v s)
       (r.s, answer (requestOf s v.ch) r (some (commandKey s)))) := by
    unfold handle
    simp only [h.opcode, h.length, h.flags, h.payload, hc]
    rw [if_neg (by rintro ⟨a, b⟩; exact b (h.group a)), if_neg (by decide), if_neg (by simp [hn]; exact hl), if_neg (by simp)]
    rw [if_neg (by simp), if_neg (by simp [show (taken s).cipher = s.cipher from rfl, h.engine]),
      if_neg (by simp [show (taken s).mbx = s.mbx from rfl, h.unlocked]), if_neg (by simp [htr])]
    rw [if_neg (by have := h.counter; simp [updMbx, maskUse, updCipher, show (taken s).mbx = s.mbx from rfl]; omega)]
    simp only [h.stored]
    have ha : ∀ k : Nat, k = u16 (requestOf s v.ch) 4 → updMbx (fun m => { m with counter := pset m.counter (chanOwner s v.ch) (u32 (requestOf s v.ch) 8) })
        (updMbx (fun m => { m with fails := pset m.fails (chanOwner s v.ch) 0 }) (maskUse (16 + k) (taken s))) = accepted v s := by
      intro k hk; subst hk; rfl
    rw [ha _ h.length.symm]
    rfl
  unfold serve
  rw [if_pos (by simp [h.serves, h.next, h.opcode]), hh, hrun]
  generalize holdBack c (accepted v s) (core (ctxAuth op v s) p (accepted v s)) = r
  by_cases hr : r.st = noAnswer
  · simp [answer, hr]
  · simp [answer, hr, response_ne_nil]

end Sys2Proof.Machine
end

