-- ==== Sys2Proof/Laws/Bytes.lean ====
section
/-! SUPPORT. Bytes, once: little-endian numbers, the fields of a payload, and what lies in RAM. -/

set_option Elab.async false
set_option linter.all false

namespace Sys2Proof.Machine

/-- Byte `k` of a little-endian number. -/
theorem getElem_le (k n x : Nat) (h : k < n) : (le n x)[k]'(by rw [show (le n x).length = n by clear h; induction n generalizing x with | zero => rfl | succ n ih => simp [le, ih]]; exact h) = BitVec.ofNat 8 (x / 256 ^ k) := by
  induction n generalizing k x with
  | zero => omega
  | succ n ih =>
    cases k with
    | zero => simp [le]
    | succ k => simp only [le, List.getElem_cons_succ]; rw [ih k (x/256) (by omega), Nat.div_div_eq_div_mul, Nat.pow_succ, Nat.mul_comm]

theorem length_le (n x : Nat) : (le n x).length = n := by induction n generalizing x with | zero => rfl | succ n ih => simp [le, ih]

/-- A field that lies in the first part. -/
theorem slice_append_left (a b : List Byte) (o k : Nat) (h : o + k ≤ a.length) : slice (a ++ b) o k = slice a o k := by
  have : ((a ++ b).drop o).take k = (a.drop o).take k := by
    rw [List.drop_append_of_le_length (by omega), List.take_append_of_le_length (by simp; omega)]
  simp only [slice, this]

/-- A field that lies behind the first part. -/
theorem slice_append_right (a b : List Byte) (o k : Nat) (h : a.length ≤ o) : slice (a ++ b) o k = slice b (o - a.length) k := by
  have : (a ++ b).drop o = b.drop (o - a.length) := by rw [List.drop_append, List.drop_eq_nil_of_le h]; simp
  simp only [slice, this]

/-- The bytes that lie in RAM are read back. -/
theorem rdBytes_of_rdMem (u : State) (a : Nat) (l : List Byte) (h : ∀ k (hk : k < l.length), rdMem u (a + k) = l[k]) : rdBytes u a l.length = l := by
  induction l generalizing a with
  | nil => rfl
  | cons b l ih =>
    simp only [List.length_cons, rdBytes]
    have h0 := h 0 (by simp)
    simp only [Nat.add_zero, List.getElem_cons_zero] at h0
    rw [h0, ih (a + 1) (fun k hk => by have := h (k+1) (by simpa using hk); simp only [List.getElem_cons_succ] at this; rw [Nat.add_assoc, Nat.add_comm 1 k]; exact this)]

/-- The first part itself. -/
theorem slice_append_self (a b : List Byte) (k : Nat) (h : k = a.length) : slice (a ++ b) 0 k = a := by subst h; simp [slice]

theorem slice_self (a : List Byte) (k : Nat) (h : k = a.length) : slice a 0 k = a := by subst h; simp [slice]

/-- A field of a field. -/
theorem slice_slice (a : List Byte) (o k p n : Nat) (h : o + k ≤ n) : slice (slice a p n) o k = slice a (p + o) k := by
  apply List.ext_getElem?
  intro i
  have g : ∀ (l : List Byte) (q m j : Nat), (slice l q m)[j]? = if j < m then some ((l[q + j]?).getD 0) else none := by
    intro l q m j
    by_cases hj : j < m
    · rw [if_pos hj]
      simp only [slice]
      by_cases hl : q + j < l.length
      · rw [List.getElem?_append_left (by simp; omega)]; simp [hj, hl]
      · rw [List.getElem?_append_right (by simp; omega)]
        simp only [List.getElem?_replicate]
        rw [if_pos (by simp; omega), List.getElem?_eq_none (by omega)]; rfl
    · rw [if_neg hj, List.getElem?_eq_none]; rw [length_slice]; omega
  rw [g (slice a p n) o k, g a (p + o) k]
  by_cases hi : i < k
  · rw [if_pos hi, if_pos hi, g, if_pos (by omega), Nat.add_assoc]; simp
  · rw [if_neg hi, if_neg hi]

/-- A little-endian number is read back modulo its width. -/
theorem unle_le (k n : Nat) : unle (le k n) = n % 256 ^ k := by
  induction k generalizing n with
  | zero => simp [le, unle, Nat.mod_one]
  | succ k ih =>
    simp only [le, unle, ih]
    rw [show 256 ^ (k+1) = 256 * 256 ^ k by rw [Nat.pow_succ, Nat.mul_comm], Nat.mod_mul]; simp

/-- A shorter read is the head of a longer one. -/
theorem rdBytes_take (u : State) (a n k : Nat) (h : k ≤ n) : rdBytes u a k = (rdBytes u a n).take k := by
  induction n generalizing a k with
  | zero => cases k with | zero => rfl | succ k => omega
  | succ n ih => cases k with
    | zero => rfl
    | succ k => simp only [rdBytes, List.take_succ_cons]; rw [ih (a+1) k (by omega)]

end Sys2Proof.Machine
end

