-- ==== Sys2Proof/Laws/Tables.lean ====
section
/-! SUPPORT. The laws of the tables and of the RAMs: a read after a write to the same key gives the value written, a write leaves every other key
alone, and a write keeps the canonical form. -/

set_option Elab.async false
set_option linter.all false

namespace Sys2Proof.Machine

theorem wf_cons {α : Type} [DecidableEq α] {d : α} {i : Nat} {v : α} {r : Tab α} : Tab.wf d ((i, v) :: r) = true ↔ v ≠ d ∧ (∀ c ∈ r, i < c.1) ∧ Tab.wf d r = true := by
  simp [Tab.wf, and_assoc]

/-- A key below every listed key reads as the default. -/
theorem tget_below {α : Type} {d : α} {k : Nat} {t : Tab α} (h : ∀ c ∈ t, k < c.1) : tget d k t = d := by
  cases t with
  | nil => rfl
  | cons c r => simp [tget, h c (by simp)]

theorem tget_tset_self {α : Type} [DecidableEq α] {d : α} (k : Nat) (v : α) (t : Tab α) (h : Tab.wf d t = true) : tget d k (tset d k v t) = v := by
  induction t with
  | nil => by_cases hv : v = d <;> simp [tset, tget, hv]
  | cons c r ih =>
    obtain ⟨-, h2, h3⟩ := wf_cons.1 h
    simp only [tset]
    split
    · rename_i hk
      split
      · rename_i hv; simp [tget, hk, hv]
      · simp [tget]
    · split
      · rename_i hk hi
        split
        · rename_i hv; rw [hv]; exact tget_below (fun x hx => by have := h2 x hx; omega)
        · simp [tget]
      · rename_i hk hi
        simp [tget, hk, hi, ih h3]

theorem tget_tset_of_ne {α : Type} [DecidableEq α] {d : α} {k j : Nat} (v : α) (t : Tab α) (h : Tab.wf d t = true) (hj : j ≠ k) : tget d j (tset d k v t) = tget d j t := by
  induction t with
  | nil =>
    by_cases hv : v = d
    · simp [tset, hv]
    · simp only [tset, hv, if_false, tget, hj]; split <;> rfl
  | cons c r ih =>
    obtain ⟨-, h2, h3⟩ := wf_cons.1 h
    simp only [tset]
    split
    · split
      · rfl
      · rename_i hk hv
        by_cases hjk : j < k
        · simp [tget, hjk, show j < c.1 by omega]
        · simp [tget, hjk, hj]
    · split
      · rename_i hk hi
        by_cases hjk : j < k
        · have h4 : tget d j r = d := tget_below (fun x hx => by have := h2 x hx; omega)
          split <;> simp [tget, h4, hjk, ← hi]
        · split <;> simp [tget, hjk, hj, ← hi]
      · simp only [tget]
        split
        · rfl
        · split
          · rfl
          · exact ih h3

/-- What a write lists lies above `i` where the table and the key do. -/
theorem tset_above {α : Type} [DecidableEq α] {d : α} {i k : Nat} {v : α} {t : Tab α} (h : ∀ c ∈ t, i < c.1) (hk : i < k) : ∀ c ∈ tset d k v t, i < c.1 := by
  induction t with
  | nil => intro c; simp only [tset]; split <;> simp_all
  | cons a r ih =>
    obtain ⟨ha, hr⟩ : i < a.1 ∧ ∀ c ∈ r, i < c.1 := by simpa only [List.mem_cons, forall_eq_or_imp] using h
    have hi : ∀ c ∈ tset d k v r, i < c.1 := ih hr
    simp only [tset]
    repeat' split
    all_goals first | exact h | exact hr | skip
    all_goals simp only [List.mem_cons, forall_eq_or_imp]
    · exact ⟨hk, ha, hr⟩
    · exact ⟨hk, hr⟩
    · exact ⟨ha, hi⟩

theorem tset_wf {α : Type} [DecidableEq α] {d : α} (k : Nat) (v : α) (t : Tab α) (h : Tab.wf d t = true) : Tab.wf d (tset d k v t) = true := by
  induction t with
  | nil => by_cases hv : v = d <;> simp [tset, hv, Tab.wf]
  | cons c r ih =>
    obtain ⟨h1, h2, h3⟩ := wf_cons.1 h
    simp only [tset]
    split
    · rename_i hk
      split
      · exact h
      · rename_i hv
        refine wf_cons.2 ⟨hv, ?_, h⟩
        intro x hx
        rcases List.mem_cons.1 hx with rfl | hx
        · exact hk
        · exact Nat.lt_trans hk (h2 x hx)
    · split
      · rename_i hk hi
        split
        · exact h3
        · rename_i hv; exact wf_cons.2 ⟨hv, hi ▸ h2, h3⟩
      · exact wf_cons.2 ⟨h1, tset_above h2 (by omega), ih h3⟩

/-! ### Runs of octets -/

theorem wrTab_wf (a : Nat) (l : List Byte) (t : Tab Byte) (h : Tab.wf 0 t = true) : Tab.wf 0 (wrTab t a l) = true := by
  induction l generalizing a t with
  | nil => exact h
  | cons b l ih => exact ih _ _ (tset_wf _ _ _ h)

theorem tget_wrTab_outside {x : Nat} (a : Nat) (l : List Byte) (t : Tab Byte) (h : Tab.wf 0 t = true) (hx : x < a ∨ a + l.length ≤ x) :
    tget 0 x (wrTab t a l) = tget 0 x t := by
  induction l generalizing a t with
  | nil => rfl
  | cons b l ih =>
    simp only [List.length_cons] at hx
    rw [wrTab, ih _ _ (tset_wf _ _ _ h) (by omega), tget_tset_of_ne _ _ h (by omega)]

theorem tget_wrTab_inside {k : Nat} (a : Nat) (l : List Byte) (t : Tab Byte) (h : Tab.wf 0 t = true) (hk : k < l.length) :
    tget 0 (a + k) (wrTab t a l) = l[k] := by
  induction l generalizing a t k with
  | nil => simp at hk
  | cons b l ih =>
    rw [wrTab]
    cases k with
    | zero => rw [tget_wrTab_outside _ _ _ (tset_wf _ _ _ h) (by omega)]; simpa using tget_tset_self _ _ _ h
    | succ k =>
      rw [show a + (k + 1) = a + 1 + k by omega, ih _ _ (tset_wf _ _ _ h) (by simpa using hk)]
      rfl

end Sys2Proof.Machine
end

