-- ==== Sys2Proof/Laws/MemoryOps.lean ====
section
/-! SUPPORT. The canonical form of memory is kept by shared operations, the settings, the mailboxes' service and the flash: one lemma an operation, cited by name. -/

set_option Elab.async false
set_option linter.all false

namespace Sys2Proof.Machine

/-- A fold keeps the memory's canonical form when each of its steps does. -/
theorem mem_foldl {α : Type} (f : State → α → State) (h : ∀ s a, Memory.wf s.mem = true → Memory.wf (f s a).mem = true) (l : List α) :
    ∀ s : State, Memory.wf s.mem = true → Memory.wf (l.foldl f s).mem = true := by
  induction l with
  | nil => exact fun _ h => h
  | cons a l ih => exact fun s hs => ih _ (h s a hs)
/-- A fold that carries a value beside the state keeps it too. -/
theorem mem_foldl_fst {α β : Type} (f : State × β → α → State × β) (h : ∀ s a, Memory.wf s.1.mem = true → Memory.wf (f s a).1.mem = true) (l : List α) :
    ∀ s, Memory.wf s.1.mem = true → Memory.wf (l.foldl f s).1.mem = true := by
  induction l with
  | nil => exact fun _ h => h
  | cons a l ih => exact fun s hs => ih _ (h s a hs)
/-- Dropping entries keeps the canonical form. -/
theorem tkeep_wf (p : Nat → Bool) (t : Tab Byte) (h : Memory.wf t = true) : Memory.wf (tkeep p t) = true := by
  unfold Memory.wf tkeep at *
  induction t with
  | nil => rfl
  | cons c r ih =>
    obtain ⟨h1, h2, h3⟩ := wf_cons.1 h
    rw [List.filter_cons]
    split
    · exact wf_cons.2 ⟨h1, fun x hx => h2 x (List.mem_filter.1 hx).1, ih h3⟩
    · exact ih h3
/-- Both sides of a choice keep it. -/
theorem mem_ite {c : Prop} [Decidable c] {a b : State} (ha : Memory.wf a.mem = true) (hb : Memory.wf b.mem = true) : Memory.wf (if c then a else b).mem = true := by
  split
  · exact ha
  · exact hb
/-- Both sides of a choice that carries a value keep it. -/
theorem mem_ite_fst {β : Type} {c : Prop} [Decidable c] {a b : State × β} (ha : Memory.wf a.1.mem = true) (hb : Memory.wf b.1.mem = true) : Memory.wf (if c then a else b).1.mem = true := by
  split
  · exact ha
  · exact hb
/-- Both sides of a choice of responses keep it. -/
theorem mem_ite_res {c : Prop} [Decidable c] {a b : Res} (ha : Memory.wf a.s.mem = true) (hb : Memory.wf b.s.mem = true) : Memory.wf (if c then a else b).s.mem = true := by
  split
  · exact ha
  · exact hb

theorem State.reset_mem : Memory.wf State.reset.mem = true := by
  rfl
theorem wrBytes_mem : ∀ (s : State) (a : Nat) (l : List Byte), Memory.wf s.mem = true → Memory.wf (wrBytes s a l).mem = true := by
  intro s a l h; exact wrTab_wf _ _ _ h
theorem fresh_mem : ∀ (s : State), Memory.wf s.mem = true → Memory.wf (fresh s).snd.mem = true := by
  intros; simp_all [fresh]
theorem freshBytes_mem : ∀ (a : Nat) (a_1 : State), Memory.wf a_1.mem = true → Memory.wf (freshBytes a a_1).snd.mem = true := by
  intro n; induction n with
   | zero => exact fun s h => h
   | succ n ih => exact fun s h => ih _ h
theorem okR_mem : ∀ (s : State) (body : List Byte), Memory.wf s.mem = true → Memory.wf (okR s body).s.mem = true := by
  intros; simp_all [okR]
theorem errR_mem : ∀ (s : State) (st det : Nat), Memory.wf s.mem = true → Memory.wf (errR s st det).s.mem = true := by
  intros; simp_all [errR]
theorem badR_mem : ∀ (s : State) (off : Nat), Memory.wf s.mem = true → Memory.wf (badR s off).s.mem = true := by
  intros; simp_all [badR]
theorem busyR_mem : ∀ (s : State) (unit : Nat), Memory.wf s.mem = true → Memory.wf (busyR s unit).s.mem = true := by
  intros; simp_all [busyR]
theorem modeR_mem : ∀ (s : State), Memory.wf s.mem = true → Memory.wf (modeR s).s.mem = true := by
  intros; simp_all [modeR]
theorem guardR_mem : ∀ (s : State) (checks : List (Bool × Nat)) (go : Unit → Res), Memory.wf s.mem = true → (∀ (a : Unit), Memory.wf (go a).s.mem = true) → Memory.wf (guardR s checks go).s.mem = true := by
  intros; unfold guardR at *; (repeat' split) <;> simp_all [badR_mem]
theorem setEvq_mem : ∀ (s : State) (seven : Bool) (q : EvQueue), Memory.wf s.mem = true → Memory.wf (setEvq s seven q).mem = true := by
  intros; unfold setEvq; repeat' (first | with_reducible assumption | split)
theorem enqueue_mem : ∀ (seven : Bool) (e : Ev) (s : State), Memory.wf s.mem = true → Memory.wf (enqueue seven e s).mem = true := by
  intros; unfold enqueue; repeat' (first | with_reducible assumption | with_reducible apply setEvq_mem | with_reducible apply mem_ite)
theorem raiseAt_mem : ∀ (t op : Nat) (payload : List Byte) (s : State), Memory.wf s.mem = true → Memory.wf (raiseAt t op payload s).mem = true := by
  intros; unfold raiseAt; repeat' (first | with_reducible assumption | with_reducible apply enqueue_mem | with_reducible apply mem_ite)
theorem raise_mem : ∀ (op : Nat) (payload : List Byte) (s : State), Memory.wf s.mem = true → Memory.wf (raise op payload s).mem = true := by
  intros; simp_all [raise, raiseAt_mem]
theorem pendR_mem : ∀ (c : Ctx) (s : State) (go : Nat → State), Memory.wf s.mem = true → (∀ (a : Nat), Memory.wf (go a).mem = true) → Memory.wf (pendR c s go).s.mem = true := by
  intros; unfold pendR at *; (repeat' split) <;> simp_all [busyR_mem]
theorem complete_mem : ∀ (slot st det : Nat) (result : List Byte) (s : State), Memory.wf s.mem = true → Memory.wf (complete slot st det result s).mem = true := by
  intros; unfold complete; repeat' (first | with_reducible assumption | with_reducible apply enqueue_mem | split)
theorem updRadio_mem : ∀ (f : Radio → Radio) (s : State), Memory.wf s.mem = true → Memory.wf (updRadio f s).mem = true := by
  intros; simp_all [updRadio]
theorem updLanes_mem : ∀ (f : Lanes → Lanes) (s : State), Memory.wf s.mem = true → Memory.wf (updLanes f s).mem = true := by
  intros; simp_all [updLanes]
theorem updLink_mem : ∀ (f : Link → Link) (s : State), Memory.wf s.mem = true → Memory.wf (updLink f s).mem = true := by
  intros; simp_all [updLink]
theorem updTiming_mem : ∀ (f : Timing → Timing) (s : State), Memory.wf s.mem = true → Memory.wf (updTiming f s).mem = true := by
  intros; simp_all [updTiming]
theorem updTally_mem : ∀ (f : Tally → Tally) (s : State), Memory.wf s.mem = true → Memory.wf (updTally f s).mem = true := by
  intros; simp_all [updTally]
theorem updQm_mem : ∀ (f : Qm → Qm) (s : State), Memory.wf s.mem = true → Memory.wf (updQm f s).mem = true := by
  intros; simp_all [updQm]
theorem updSched_mem : ∀ (f : Sched → Sched) (s : State), Memory.wf s.mem = true → Memory.wf (updSched f s).mem = true := by
  intros; simp_all [updSched]
theorem updCipher_mem : ∀ (f : Cipher → Cipher) (s : State), Memory.wf s.mem = true → Memory.wf (updCipher f s).mem = true := by
  intros; simp_all [updCipher]
theorem updPwr_mem : ∀ (f : Pwr → Pwr) (s : State), Memory.wf s.mem = true → Memory.wf (updPwr f s).mem = true := by
  intros; simp_all [updPwr]
theorem updFlash_mem : ∀ (f : Flash → Flash) (s : State), Memory.wf s.mem = true → Memory.wf (updFlash f s).mem = true := by
  intros; simp_all [updFlash]
theorem updUpd_mem : ∀ (f : Upd → Upd) (s : State), Memory.wf s.mem = true → Memory.wf (updUpd f s).mem = true := by
  intros; simp_all [updUpd]
theorem updRtc_mem : ∀ (f : Rtc → Rtc) (s : State), Memory.wf s.mem = true → Memory.wf (updRtc f s).mem = true := by
  intros; simp_all [updRtc]
theorem updPort_mem : ∀ (f : Port → Port) (s : State), Memory.wf s.mem = true → Memory.wf (updPort f s).mem = true := by
  intros; simp_all [updPort]
theorem updCore_mem : ∀ (f : Core → Core) (s : State), Memory.wf s.mem = true → Memory.wf (updCore f s).mem = true := by
  intros; simp_all [updCore]
theorem updCanary_mem : ∀ (f : Canary → Canary) (s : State), Memory.wf s.mem = true → Memory.wf (updCanary f s).mem = true := by
  intros; simp_all [updCanary]
theorem updMbx_mem : ∀ (f : Mbx → Mbx) (s : State), Memory.wf s.mem = true → Memory.wf (updMbx f s).mem = true := by
  intros; simp_all [updMbx]
theorem updBoot_mem : ∀ (f : Boot → Boot) (s : State), Memory.wf s.mem = true → Memory.wf (updBoot f s).mem = true := by
  intros; simp_all [updBoot]
theorem updClk_mem : ∀ (f : Clk → Clk) (s : State), Memory.wf s.mem = true → Memory.wf (updClk f s).mem = true := by
  intros; simp_all [updClk]
theorem writeSettings_mem : ∀ (s : State), Memory.wf s.mem = true → Memory.wf (writeSettings s).mem = true := by
  intros; simp_all [writeSettings, updUpd_mem]
theorem persistR_mem : ∀ (c : Ctx) (on : Bool) (k : Nat) (r : Res), Memory.wf r.s.mem = true → Memory.wf (persistR c on k r).s.mem = true := by
  intros; unfold persistR; repeat' (first | with_reducible assumption | with_reducible apply errR_mem | with_reducible apply writeSettings_mem | split)
theorem maskUse_mem : ∀ (n : Nat) (s : State), Memory.wf s.mem = true → Memory.wf (maskUse n s).mem = true := by
  intros; simp_all [maskUse, updCipher_mem]
theorem trailerFailed_mem : ∀ (r : Requester) (s : State), Memory.wf s.mem = true → Memory.wf (trailerFailed r s).mem = true := by
  intros; simp_all [trailerFailed, updMbx_mem]
theorem holdBack_mem : ∀ (c : Cmd) (s : State) (r : Res), Memory.wf s.mem = true → Memory.wf r.s.mem = true → Memory.wf (holdBack c s r).s.mem = true := by
  intros; unfold holdBack; repeat' (first | with_reducible assumption | with_reducible apply busyR_mem | with_reducible apply mem_ite_res)
theorem runCore_mem : ∀ (core : CoreFn) (i : Cmd) (c : Ctx) (payload : List Byte) (s : State), (∀ (a : Ctx) (a_1 : List Byte) (a_2 : State), Memory.wf a_2.mem = true → Memory.wf (core a a_1 a_2).s.mem = true) → Memory.wf s.mem = true → Memory.wf (runCore core i c payload s).s.mem = true := by
  intros; unfold runCore at *; (repeat' split) <;> simp_all [holdBack_mem]
theorem handle_mem : ∀ (core : CoreFn) (who : Requester) (chan : Nat) (ctrFail : Option Nat) (wFail : Option (Nat × Nat)) (req : List Byte) (s : State), (∀ (a : Ctx) (a_1 : List Byte) (a_2 : State), Memory.wf a_2.mem = true → Memory.wf (core a a_1 a_2).s.mem = true) → Memory.wf s.mem = true → Memory.wf (handle core who chan ctrFail wFail req s).fst.mem = true := by
  intro core who chan cf wf req s hc h
  have hr : ∀ i c p t, Memory.wf t.mem = true → Memory.wf (runCore core i c p t).s.mem = true := fun i c p t ht => runCore_mem core i c p t hc ht
  have pi : ∀ (c : Prop) [Decidable c] (a b : State × List Byte), Memory.wf a.1.mem = true → Memory.wf b.1.mem = true → Memory.wf (if c then a else b).1.mem = true := by
    intro c _ a b ha hb; split
    · exact ha
    · exact hb
  unfold handle; dsimp only
  cases cmdOf (u16 req 0) with
  | none => exact h
  | some i =>
    refine pi _ _ _ h (pi _ _ _ h (pi _ _ _ h (pi _ _ _ h (pi _ _ _ (hr _ _ _ _ h) (pi _ _ _ h (pi _ _ _ h (pi _ _ _ (trailerFailed_mem who _ (maskUse_mem (16 + u16 req 4) s h)) (pi _ _ _ (maskUse_mem (16 + u16 req 4) s h) ?_))))))))
    cases cf with
    | some b => exact maskUse_mem (16 + u16 req 4) s h
    | none => exact hr _ _ _ _ (maskUse_mem (16 + u16 req 4) s h)
theorem taken_mem : ∀ (s : State), Memory.wf s.mem = true → Memory.wf (taken s).mem = true := by
  intros; simp_all [taken, updPwr_mem]
theorem reply_mem : ∀ (ch : Nat) (m : List Byte) (s : State), Memory.wf s.mem = true → Memory.wf (reply ch m s).mem = true := by
  intros; simp_all [reply, updMbx_mem, wrBytes_mem]
theorem serve_mem : ∀ (op : Nat) (core : CoreFn) (v : Srv) (s : State), (∀ (a : Ctx) (a_1 : List Byte) (a_2 : State), Memory.wf a_2.mem = true → Memory.wf (core a a_1 a_2).s.mem = true) → Memory.wf s.mem = true → Memory.wf (serve op core v s).mem = true := by
  intros; unfold serve; repeat' (first | with_reducible assumption | with_reducible apply handle_mem | with_reducible apply taken_mem | with_reducible apply reply_mem | with_reducible apply mem_ite)
theorem flashStore_mem : ∀ (a : Nat) (l : List Byte) (s : State), Memory.wf s.mem = true → Memory.wf (flashStore a l s).mem = true := by
  intros; simp_all [flashStore, updFlash_mem]
theorem setWritten_mem : ∀ (u n : Nat) (s : State), Memory.wf s.mem = true → Memory.wf (setWritten u n s).mem = true := by
  intros; simp_all [setWritten, updFlash_mem]
theorem setEcc_mem : ∀ (u e : Nat) (s : State), Memory.wf s.mem = true → Memory.wf (setEcc u e s).mem = true := by
  intros; simp_all [setEcc, updFlash_mem]
theorem leaveErrors_mem : ∀ (u n : Nat) (r : FlashEnd) (s : State), Memory.wf s.mem = true → Memory.wf (leaveErrors u n r s).mem = true := by
  intro u n r s h
  unfold leaveErrors; dsimp only
  refine mem_foldl _ (fun a x ha => ?_) _ _ (mem_foldl _ (fun a x ha => ?_) _ _ h)
  · exact freshBytes_mem 16 a ha
  · exact ha
theorem spoilUnit_mem : ∀ (u : Nat) (s : State), Memory.wf s.mem = true → Memory.wf (spoilUnit u s).mem = true := by
  intros; unfold spoilUnit; repeat' (first | with_reducible assumption | with_reducible apply freshBytes_mem | with_reducible apply fresh_mem | with_reducible apply setEcc_mem | with_reducible apply setWritten_mem | with_reducible apply flashStore_mem)
theorem spoilBlock_mem : ∀ (b : Nat) (s : State), Memory.wf s.mem = true → Memory.wf (spoilBlock b s).mem = true := by
  intro b s h; exact mem_foldl _ (fun a x ha => spoilUnit_mem _ _ ha) _ _ h
theorem blankBlock_mem : ∀ (b : Nat) (s : State), Memory.wf s.mem = true → Memory.wf (blankBlock b s).mem = true := by
  intros; simp_all [blankBlock, updFlash_mem]
theorem setPlane_mem : ∀ (p : Nat) (x : Plane) (s : State), Memory.wf s.mem = true → Memory.wf (setPlane p x s).mem = true := by
  intros; simp_all [setPlane, updFlash_mem]
theorem noteUnit_mem : ∀ (s : State) (u : Nat), Memory.wf s.mem = true → Memory.wf (noteUnit s u).mem = true := by
  intros; unfold noteUnit; repeat' (first | with_reducible assumption | with_reducible apply updFlash_mem | with_reducible apply raise_mem | with_reducible apply mem_ite)
theorem programOn_mem : ∀ (p : Nat) (s : State), Memory.wf s.mem = true → Memory.wf (programOn p s).mem = true := by
  intros; unfold programOn; repeat' (first | with_reducible assumption | with_reducible apply fresh_mem | with_reducible apply setPlane_mem | with_reducible apply setWritten_mem | with_reducible apply flashStore_mem | split)
theorem suspendErase_mem : ∀ (p : Nat) (s : State), Memory.wf s.mem = true → Memory.wf (suspendErase p s).mem = true := by
  intros; unfold suspendErase; repeat' (first | with_reducible assumption | with_reducible apply spoilBlock_mem | with_reducible apply setPlane_mem | with_reducible apply updFlash_mem | split)
theorem serveRead_mem : ∀ (p : Nat) (sus : Bool) (s : State), Memory.wf s.mem = true → ∀ (t : State), serveRead p sus s = some t → Memory.wf t.mem = true := by
  intros; grind [serveRead, programOn_mem, suspendErase_mem]
theorem flashRead_mem : ∀ (a n : Nat) (sus : Bool) (s : State), Memory.wf s.mem = true → ∀ (t : State × List Byte × Nat), flashRead a n sus s = some t → Memory.wf t.fst.mem = true := by
  intro a n sus s h t ht
  unfold flashRead at ht
  split at ht
  · cases ht
  · rename_i u hu; injection ht with ht; subst ht; exact mem_foldl _ (fun a x ha => noteUnit_mem _ _ ha) _ _ (serveRead_mem _ _ _ h _ hu)
theorem journalErase_mem : ∀ (b origin : Nat) (s : State), Memory.wf s.mem = true → Memory.wf (journalErase b origin s).mem = true := by
  intros; unfold journalErase; repeat' (first | with_reducible assumption | with_reducible apply updFlash_mem | with_reducible apply raise_mem | with_reducible apply mem_ite)
theorem markErase_mem : ∀ (b : Nat) (s : State), Memory.wf s.mem = true → Memory.wf (markErase b s).mem = true := by
  intros; simp_all [markErase, updFlash_mem]
theorem eraseWhole_mem : ∀ (m : FMaster) (s : State) (b : Nat), Memory.wf s.mem = true → Memory.wf (eraseWhole m s b).mem = true := by
  intros; unfold eraseWhole; repeat' (first | with_reducible assumption | with_reducible apply updFlash_mem | with_reducible apply markErase_mem | with_reducible apply blankBlock_mem | with_reducible apply journalErase_mem)
theorem journalStart_mem : ∀ (loader : Bool) (s : State), Memory.wf s.mem = true → Memory.wf (journalStart loader s).mem = true := by
  intro l s h
  unfold journalStart; dsimp only
  have h1 : ∀ t : List JEntry, Memory.wf (t.foldl (fun a e => if !e.mark && decide (ecntOf a e.block < e.ecnt) then updFlash (fun f => { f with ecnt := tset 0 e.block e.ecnt f.ecnt }) a else a) s).mem = true := by
    intro t; refine mem_foldl _ (fun a x ha => ?_) t _ h; split <;> exact ha
  split
  · exact mem_foldl _ (fun a x ha => eraseWhole_mem _ _ _ ha) _ _ (h1 _)
  · exact h1 _
theorem countRefused_mem : ∀ (s : State), Memory.wf s.mem = true → Memory.wf (countRefused s).mem = true := by
  intros; simp_all [countRefused, updFlash_mem]
theorem appOpDone_mem : ∀ (err : Nat) (s : State), Memory.wf s.mem = true → Memory.wf (appOpDone err s).mem = true := by
  intros; simp_all [appOpDone, updFlash_mem]
theorem jobEnds_mem : ∀ (j : FJob) (reason block : Nat) (s : State), Memory.wf s.mem = true → Memory.wf (jobEnds j reason block s).mem = true := by
  intros; simp_all [jobEnds, complete_mem, updFlash_mem]
theorem startOp_mem : ∀ (o : FOp) (s : State), Memory.wf s.mem = true → Memory.wf (startOp o s).mem = true := by
  intros; unfold startOp; dsimp only; repeat' (first | with_reducible assumption | with_reducible apply setPlane_mem | with_reducible apply spoilBlock_mem | with_reducible apply journalErase_mem | with_reducible apply countRefused_mem | with_reducible apply appOpDone_mem | with_reducible apply jobEnds_mem | with_reducible apply mem_ite | split)
theorem acceptOp_mem : ∀ (o : FOp) (s : State), Memory.wf s.mem = true → Memory.wf (acceptOp o s).mem = true := by
  intros; unfold acceptOp; repeat' (first | with_reducible assumption | with_reducible apply startOp_mem | with_reducible apply updFlash_mem | with_reducible apply mem_ite)
theorem flashcCmd_mem : ∀ (v : Word) (s : State), Memory.wf s.mem = true → Memory.wf (flashcCmd v s).mem = true := by
  intros; unfold flashcCmd; repeat' (first | with_reducible assumption | with_reducible apply countRefused_mem | with_reducible apply updFlash_mem | with_reducible apply appOpDone_mem | with_reducible apply acceptOp_mem | with_reducible apply mem_ite)
theorem bselWrite_mem : ∀ (v : Word) (s : State), Memory.wf s.mem = true → Memory.wf (bselWrite v s).mem = true := by
  intros; simp_all [bselWrite, updFlash_mem]
theorem lockWrite_mem : ∀ (v : Word) (s : State), Memory.wf s.mem = true → Memory.wf (lockWrite v s).mem = true := by
  intros; simp_all [lockWrite, updFlash_mem]
theorem flashStateGet_mem : ∀ (a : Ctx) (a_1 : List Byte) (a_2 : State), Memory.wf a_2.mem = true → Memory.wf (flashStateGet a a_1 a_2).s.mem = true := by
  intros; simp_all [flashStateGet, okR_mem]
theorem readAcross_mem : ∀ (a n : Nat) (s : State), Memory.wf s.mem = true → Memory.wf (readAcross a n s).fst.mem = true := by
  intro a n s h
  have g : ∀ a n t, Memory.wf t.mem = true → Memory.wf ((flashRead a n true t).getD (t, [], 0)).1.mem = true := by
    intro a n t ht
    cases hf : flashRead a n true t with
    | none => exact ht
    | some r => exact flashRead_mem _ _ _ _ ht _ hf
  unfold readAcross; dsimp only
  generalize (if a < planeBytes s then min n (planeBytes s - a) else 0) = m
  have h0 := g a m s h
  revert h0; generalize (flashRead a m true s).getD (s, [], 0) = r0; intro h0
  split
  · exact h0
  · exact g _ _ _ h0
theorem flashReadCmd_mem : ∀ (a : Ctx) (a_1 : List Byte) (a_2 : State), Memory.wf a_2.mem = true → Memory.wf (flashReadCmd a a_1 a_2).s.mem = true := by
  intros; unfold flashReadCmd; repeat' (first | with_reducible assumption | with_reducible apply guardR_mem | with_reducible apply readAcross_mem | with_reducible apply okR_mem | with_reducible intro _)
theorem refusedR_mem : ∀ (r : Res) (off : Nat), Memory.wf r.s.mem = true → Memory.wf (refusedR r off).s.mem = true := by
  intros; unfold refusedR; repeat' (first | with_reducible assumption | with_reducible apply countRefused_mem | split)
theorem flashProgram_mem : ∀ (a : Ctx) (a_1 : List Byte) (a_2 : State), Memory.wf a_2.mem = true → Memory.wf (flashProgram a a_1 a_2).s.mem = true := by
  intros; unfold flashProgram; repeat' (first | with_reducible assumption | with_reducible apply refusedR_mem | with_reducible apply guardR_mem | with_reducible apply pendR_mem | with_reducible apply acceptOp_mem | with_reducible apply updFlash_mem | with_reducible intro _)
theorem flashErase_mem : ∀ (a : Ctx) (a_1 : List Byte) (a_2 : State), Memory.wf a_2.mem = true → Memory.wf (flashErase a a_1 a_2).s.mem = true := by
  intros; unfold flashErase; repeat' (first | with_reducible assumption | with_reducible apply refusedR_mem | with_reducible apply guardR_mem | with_reducible apply pendR_mem | with_reducible apply acceptOp_mem | with_reducible apply updFlash_mem | with_reducible intro _)
theorem flashBlockGet_mem : ∀ (a : Ctx) (a_1 : List Byte) (a_2 : State), Memory.wf a_2.mem = true → Memory.wf (flashBlockGet a a_1 a_2).s.mem = true := by
  intros; simp_all [flashBlockGet, guardR_mem, okR_mem]
theorem flashStatsGet_mem : ∀ (a : Ctx) (a_1 : List Byte) (a_2 : State), Memory.wf a_2.mem = true → Memory.wf (flashStatsGet a a_1 a_2).s.mem = true := by
  intros; unfold flashStatsGet; repeat' (first | with_reducible assumption | with_reducible apply guardR_mem | with_reducible apply okR_mem | with_reducible apply updFlash_mem | with_reducible intro _ | split)
theorem execFlashStateGet_mem : ∀ (v : Srv) (s : State), Memory.wf s.mem = true → ∀ (t : State), execFlashStateGet v s = Host.Outcome.next t → Memory.wf t.mem = true := by
  intros; unfold execFlashStateGet at *; rename_i h; injection h with h; subst h; repeat' (first | with_reducible assumption | with_reducible apply serve_mem | with_reducible apply flashStateGet_mem)
theorem execFlashRead_mem : ∀ (v : Srv) (s : State), Memory.wf s.mem = true → ∀ (t : State), execFlashRead v s = Host.Outcome.next t → Memory.wf t.mem = true := by
  intros; unfold execFlashRead at *; rename_i h; injection h with h; subst h; repeat' (first | with_reducible assumption | with_reducible apply serve_mem | with_reducible apply flashReadCmd_mem)
theorem execFlashProgram_mem : ∀ (v : Srv) (s : State), Memory.wf s.mem = true → ∀ (t : State), execFlashProgram v s = Host.Outcome.next t → Memory.wf t.mem = true := by
  intros; unfold execFlashProgram at *; rename_i h; injection h with h; subst h; repeat' (first | with_reducible assumption | with_reducible apply serve_mem | with_reducible apply flashProgram_mem)
theorem execFlashErase_mem : ∀ (v : Srv) (s : State), Memory.wf s.mem = true → ∀ (t : State), execFlashErase v s = Host.Outcome.next t → Memory.wf t.mem = true := by
  intros; unfold execFlashErase at *; rename_i h; injection h with h; subst h; repeat' (first | with_reducible assumption | with_reducible apply serve_mem | with_reducible apply flashErase_mem)
theorem execFlashBlockGet_mem : ∀ (v : Srv) (s : State), Memory.wf s.mem = true → ∀ (t : State), execFlashBlockGet v s = Host.Outcome.next t → Memory.wf t.mem = true := by
  intros; unfold execFlashBlockGet at *; rename_i h; injection h with h; subst h; repeat' (first | with_reducible assumption | with_reducible apply serve_mem | with_reducible apply flashBlockGet_mem)
theorem execFlashStatsGet_mem : ∀ (v : Srv) (s : State), Memory.wf s.mem = true → ∀ (t : State), execFlashStatsGet v s = Host.Outcome.next t → Memory.wf t.mem = true := by
  intros; unfold execFlashStatsGet at *; rename_i h; injection h with h; subst h; repeat' (first | with_reducible assumption | with_reducible apply serve_mem | with_reducible apply flashStatsGet_mem)
theorem execFlashcProgram_mem : ∀ (v : Word) (s : State), Memory.wf s.mem = true → ∀ (t : State), execFlashcProgram v s = Host.Outcome.next t → Memory.wf t.mem = true := by
  intros; unfold execFlashcProgram at *; rename_i h; injection h with h; subst h; repeat' (first | with_reducible assumption | with_reducible apply flashcCmd_mem | split)
theorem execFlashcErase_mem : ∀ (v : Word) (s : State), Memory.wf s.mem = true → ∀ (t : State), execFlashcErase v s = Host.Outcome.next t → Memory.wf t.mem = true := by
  intros; unfold execFlashcErase at *; rename_i h; injection h with h; subst h; repeat' (first | with_reducible assumption | with_reducible apply flashcCmd_mem | split)
theorem execFlashCommandStart_mem : ∀ (plane : Nat) (s : State), Memory.wf s.mem = true → ∀ (t : State), execFlashCommandStart plane s = Host.Outcome.next t → Memory.wf t.mem = true := by
  intros; unfold execFlashCommandStart at *; rename_i h; injection h with h; subst h; repeat' (first | with_reducible assumption | with_reducible apply startOp_mem | with_reducible apply updFlash_mem | split)
theorem verifies_mem : ∀ (j : FJob) (s : State), Memory.wf s.mem = true → Memory.wf (verifies j s).fst.mem = true := by
  intro j s h
  unfold verifies; split
  · exact h
  · rename_i hf; exact flashRead_mem _ _ _ _ h _ hf
theorem execFlashProgramDone_mem : ∀ (plane : Nat) (r : FlashEnd) (s : State), Memory.wf s.mem = true → ∀ (t : State), execFlashProgramDone plane r s = Host.Outcome.next t → Memory.wf t.mem = true := by
  intros; unfold execFlashProgramDone at *; rename_i h; injection h with h; subst h; dsimp only; repeat' (first | with_reducible assumption | with_reducible apply setWritten_mem | with_reducible apply flashStore_mem | with_reducible apply leaveErrors_mem | with_reducible apply setPlane_mem | with_reducible apply updFlash_mem | with_reducible apply appOpDone_mem | with_reducible apply verifies_mem | with_reducible apply jobEnds_mem | with_reducible apply mem_ite | split)
theorem execFlashEraseDone_mem : ∀ (plane : Nat) (r : FlashEnd) (s : State), Memory.wf s.mem = true → ∀ (t : State), execFlashEraseDone plane r s = Host.Outcome.next t → Memory.wf t.mem = true := by
  intros; unfold execFlashEraseDone at *; rename_i h; injection h with h; subst h; dsimp only; repeat' (first | with_reducible assumption | with_reducible apply leaveErrors_mem | with_reducible apply blankBlock_mem | with_reducible apply setPlane_mem | with_reducible apply updFlash_mem | with_reducible apply markErase_mem | with_reducible apply appOpDone_mem | with_reducible apply jobEnds_mem | with_reducible apply acceptOp_mem | with_reducible apply mem_ite | split)
theorem execEraseSuspended_mem : ∀ (plane : Nat) (s : State), Memory.wf s.mem = true → ∀ (t : State), execEraseSuspended plane s = Host.Outcome.next t → Memory.wf t.mem = true := by
  intros; unfold execEraseSuspended at *; rename_i h; injection h with h; subst h; repeat' (first | with_reducible assumption | with_reducible apply suspendErase_mem)
theorem execEraseResume_mem : ∀ (plane : Nat) (s : State), Memory.wf s.mem = true → ∀ (t : State), execEraseResume plane s = Host.Outcome.next t → Memory.wf t.mem = true := by
  intros; unfold execEraseResume at *; rename_i h; injection h with h; subst h; repeat' (first | with_reducible assumption | with_reducible apply setPlane_mem | split)
theorem execFlashcBsel_mem : ∀ (v : Word) (s : State), Memory.wf s.mem = true → ∀ (t : State), execFlashcBsel v s = Host.Outcome.next t → Memory.wf t.mem = true := by
  intros; unfold execFlashcBsel at *; rename_i h; injection h with h; subst h; repeat' (first | with_reducible assumption | with_reducible apply bselWrite_mem | split)
theorem execBlockQueryDone_mem : ∀ (s : State), Memory.wf s.mem = true → ∀ (t : State), execBlockQueryDone s = Host.Outcome.next t → Memory.wf t.mem = true := by
  intros; unfold execBlockQueryDone at *; rename_i h; injection h with h; subst h; repeat' (first | with_reducible assumption | with_reducible apply updFlash_mem | split)
theorem execFlashcLock_mem : ∀ (v : Word) (s : State), Memory.wf s.mem = true → ∀ (t : State), execFlashcLock v s = Host.Outcome.next t → Memory.wf t.mem = true := by
  intros; unfold execFlashcLock at *; rename_i h; injection h with h; subst h; repeat' (first | with_reducible assumption | with_reducible apply lockWrite_mem | split)
theorem ecccntRead_mem : ∀ (s : State), Memory.wf s.mem = true → Memory.wf (ecccntRead s).mem = true := by
  intros; simp_all [ecccntRead, updFlash_mem]
theorem execFlashcEcccntRead_mem : ∀ (s : State), Memory.wf s.mem = true → ∀ (t : State), execFlashcEcccntRead s = Host.Outcome.next t → Memory.wf t.mem = true := by
  intros; unfold execFlashcEcccntRead at *; rename_i h; injection h with h; subst h; repeat' (first | with_reducible assumption | with_reducible apply ecccntRead_mem | split)
theorem cutPlane_mem : ∀ (p : Nat) (s : State), Memory.wf s.mem = true → Memory.wf (cutPlane p s).mem = true := by
  intros; unfold cutPlane; repeat' (first | with_reducible assumption | with_reducible apply fresh_mem | with_reducible apply setWritten_mem | with_reducible apply flashStore_mem | with_reducible apply setPlane_mem | with_reducible apply spoilUnit_mem | with_reducible apply spoilBlock_mem | with_reducible apply mem_ite | split)
theorem flashReset_mem : ∀ (counters : Bool) (s : State), Memory.wf s.mem = true → Memory.wf (flashReset counters s).mem = true := by
  intros; unfold flashReset; repeat' (first | with_reducible assumption | with_reducible apply updFlash_mem | with_reducible apply cutPlane_mem)

end Sys2Proof.Machine
end

