-- ==== Sys2Proof/Laws/MemoryRadio.lean ====
section
/-! SUPPORT. The canonical form of memory is kept by the tally, the radio, the lanes and the queues: one lemma an operation, cited by name. -/

set_option Elab.async false
set_option linter.all false

namespace Sys2Proof.Machine

theorem updBand_mem : ∀ (b : Nat) (f : Band → Band) (s : State), Memory.wf s.mem = true → Memory.wf (updBand b f s).mem = true := by
  intros; simp_all [updBand, updTally_mem]
theorem noteRefusal_mem : ∀ (b : Option Nat) (t : Nat) (s : State), Memory.wf s.mem = true → Memory.wf (noteRefusal b t s).mem = true := by
  intros; simp_all [noteRefusal, updTally_mem]
theorem tallyTake_mem : ∀ (carrier t : Nat) (ack : Bool) (s : State), Memory.wf s.mem = true → Memory.wf (tallyTake carrier t ack s).fst.mem = true := by
  intros; unfold tallyTake; repeat' (first | with_reducible assumption | with_reducible apply updTally_mem | with_reducible apply noteRefusal_mem | with_reducible apply updBand_mem | split)
theorem dropResv_mem : ∀ (id : Nat) (s : State), Memory.wf s.mem = true → Memory.wf (dropResv id s).mem = true := by
  intros; simp_all [dropResv, updTally_mem]
theorem tallyStart_mem : ∀ (id : Option Nat) (s : State), Memory.wf s.mem = true → Memory.wf (tallyStart id s).mem = true := by
  intros; unfold tallyStart; repeat' (first | with_reducible assumption | with_reducible apply updTally_mem | split)
theorem chargeResv_mem : ∀ (id us : Nat) (s : State), Memory.wf s.mem = true → Memory.wf (chargeResv id us s).mem = true := by
  intros; unfold chargeResv; repeat' (first | with_reducible assumption | with_reducible apply dropResv_mem | with_reducible apply updBand_mem | split)
theorem tallyEnd_mem : ∀ (id : Option Nat) (s : State), Memory.wf s.mem = true → Memory.wf (tallyEnd id s).mem = true := by
  intros; unfold tallyEnd; repeat' (first | with_reducible assumption | with_reducible apply chargeResv_mem | split)
theorem tallyCut_mem : ∀ (id : Option Nat) (us : Nat) (s : State), Memory.wf s.mem = true → Memory.wf (tallyCut id us s).mem = true := by
  intros; unfold tallyCut; repeat' (first | with_reducible assumption | with_reducible apply updTally_mem | with_reducible apply chargeResv_mem | split)
theorem tallyRelease_mem : ∀ (id : Option Nat) (s : State), Memory.wf s.mem = true → Memory.wf (tallyRelease id s).mem = true := by
  intros; unfold tallyRelease; repeat' (first | with_reducible assumption | with_reducible apply dropResv_mem | split)
theorem unblockNever_mem : ∀ (s : State), Memory.wf s.mem = true → Memory.wf (unblockNever s).mem = true := by
  intros; simp_all [unblockNever, updSched_mem]
theorem tallyCfgSet_mem : ∀ (a : Ctx) (a_1 : List Byte) (a_2 : State), Memory.wf a_2.mem = true → Memory.wf (tallyCfgSet a a_1 a_2).s.mem = true := by
  intros; unfold tallyCfgSet; repeat' (first | with_reducible assumption | with_reducible apply guardR_mem | with_reducible apply unblockNever_mem | with_reducible apply updTally_mem | with_reducible apply persistR_mem | with_reducible apply okR_mem | with_reducible intro _)
theorem tallyCfgGet_mem : ∀ (a : Ctx) (a_1 : List Byte) (a_2 : State), Memory.wf a_2.mem = true → Memory.wf (tallyCfgGet a a_1 a_2).s.mem = true := by
  intros; simp_all [tallyCfgGet, okR_mem]
theorem tallyBandSet_mem : ∀ (a : Ctx) (a_1 : List Byte) (a_2 : State), Memory.wf a_2.mem = true → Memory.wf (tallyBandSet a a_1 a_2).s.mem = true := by
  intros; unfold tallyBandSet; repeat' (first | with_reducible assumption | with_reducible apply guardR_mem | with_reducible apply unblockNever_mem | with_reducible apply updBand_mem | with_reducible apply persistR_mem | with_reducible apply okR_mem | with_reducible intro _)
theorem tallyBandGet_mem : ∀ (a : Ctx) (a_1 : List Byte) (a_2 : State), Memory.wf a_2.mem = true → Memory.wf (tallyBandGet a a_1 a_2).s.mem = true := by
  intros; simp_all [tallyBandGet, guardR_mem, okR_mem]
theorem tallyUsageGet_mem : ∀ (a : Ctx) (a_1 : List Byte) (a_2 : State), Memory.wf a_2.mem = true → Memory.wf (tallyUsageGet a a_1 a_2).s.mem = true := by
  intros; simp_all [tallyUsageGet, guardR_mem, okR_mem]
theorem tallyCheck_mem : ∀ (a : Ctx) (a_1 : List Byte) (a_2 : State), Memory.wf a_2.mem = true → Memory.wf (tallyCheck a a_1 a_2).s.mem = true := by
  intros; simp_all [tallyCheck, guardR_mem, okR_mem]
theorem tallyStatsGet_mem : ∀ (a : Ctx) (a_1 : List Byte) (a_2 : State), Memory.wf a_2.mem = true → Memory.wf (tallyStatsGet a a_1 a_2).s.mem = true := by
  intros; unfold tallyStatsGet; repeat' (first | with_reducible assumption | with_reducible apply guardR_mem | with_reducible apply okR_mem | with_reducible apply updTally_mem | with_reducible apply updBand_mem | with_reducible apply mem_ite_res | with_reducible intro _ | split)
theorem tallyClear_mem : ∀ (a : Ctx) (a_1 : List Byte) (a_2 : State), Memory.wf a_2.mem = true → Memory.wf (tallyClear a a_1 a_2).s.mem = true := by
  intros; unfold tallyClear; repeat' (first | with_reducible assumption | with_reducible apply guardR_mem | with_reducible apply modeR_mem | with_reducible apply okR_mem | with_reducible apply updTally_mem | with_reducible apply updBand_mem | with_reducible apply mem_ite_res | with_reducible intro _)
theorem execTallyCfgSet_mem : ∀ (v : Srv) (s : State), Memory.wf s.mem = true → ∀ (t : State), execTallyCfgSet v s = Host.Outcome.next t → Memory.wf t.mem = true := by
  intros; unfold execTallyCfgSet at *; rename_i h; injection h with h; subst h; repeat' (first | with_reducible assumption | with_reducible apply serve_mem | with_reducible apply tallyCfgSet_mem)
theorem execTallyCfgGet_mem : ∀ (v : Srv) (s : State), Memory.wf s.mem = true → ∀ (t : State), execTallyCfgGet v s = Host.Outcome.next t → Memory.wf t.mem = true := by
  intros; unfold execTallyCfgGet at *; rename_i h; injection h with h; subst h; repeat' (first | with_reducible assumption | with_reducible apply serve_mem | with_reducible apply tallyCfgGet_mem)
theorem execTallyBandSet_mem : ∀ (v : Srv) (s : State), Memory.wf s.mem = true → ∀ (t : State), execTallyBandSet v s = Host.Outcome.next t → Memory.wf t.mem = true := by
  intros; unfold execTallyBandSet at *; rename_i h; injection h with h; subst h; repeat' (first | with_reducible assumption | with_reducible apply serve_mem | with_reducible apply tallyBandSet_mem)
theorem execTallyBandGet_mem : ∀ (v : Srv) (s : State), Memory.wf s.mem = true → ∀ (t : State), execTallyBandGet v s = Host.Outcome.next t → Memory.wf t.mem = true := by
  intros; unfold execTallyBandGet at *; rename_i h; injection h with h; subst h; repeat' (first | with_reducible assumption | with_reducible apply serve_mem | with_reducible apply tallyBandGet_mem)
theorem execTallyUsageGet_mem : ∀ (v : Srv) (s : State), Memory.wf s.mem = true → ∀ (t : State), execTallyUsageGet v s = Host.Outcome.next t → Memory.wf t.mem = true := by
  intros; unfold execTallyUsageGet at *; rename_i h; injection h with h; subst h; repeat' (first | with_reducible assumption | with_reducible apply serve_mem | with_reducible apply tallyUsageGet_mem)
theorem execTallyCheck_mem : ∀ (v : Srv) (s : State), Memory.wf s.mem = true → ∀ (t : State), execTallyCheck v s = Host.Outcome.next t → Memory.wf t.mem = true := by
  intros; unfold execTallyCheck at *; rename_i h; injection h with h; subst h; repeat' (first | with_reducible assumption | with_reducible apply serve_mem | with_reducible apply tallyCheck_mem)
theorem execTallyStatsGet_mem : ∀ (v : Srv) (s : State), Memory.wf s.mem = true → ∀ (t : State), execTallyStatsGet v s = Host.Outcome.next t → Memory.wf t.mem = true := by
  intros; unfold execTallyStatsGet at *; rename_i h; injection h with h; subst h; repeat' (first | with_reducible assumption | with_reducible apply serve_mem | with_reducible apply tallyStatsGet_mem)
theorem execTallyClear_mem : ∀ (v : Srv) (s : State), Memory.wf s.mem = true → ∀ (t : State), execTallyClear v s = Host.Outcome.next t → Memory.wf t.mem = true := by
  intros; unfold execTallyClear at *; rename_i h; injection h with h; subst h; repeat' (first | with_reducible assumption | with_reducible apply serve_mem | with_reducible apply tallyClear_mem)
theorem execTallyRefuse_mem : ∀ (s : State), Memory.wf s.mem = true → ∀ (t : State), execTallyRefuse s = Host.Outcome.next t → Memory.wf t.mem = true := by
  intros; unfold execTallyRefuse at *; rename_i h; injection h with h; subst h; repeat' (first | with_reducible assumption | with_reducible apply updTally_mem | with_reducible apply raise_mem | split)
theorem lanesBlank_mem : ∀ (s : State), Memory.wf s.mem = true → Memory.wf (lanesBlank s).mem = true := by
  intros; simp_all [lanesBlank, updLanes_mem]
theorem radioSettle_mem : ∀ (s : State), Memory.wf s.mem = true → Memory.wf (radioSettle s).mem = true := by
  intros; simp_all [radioSettle, updRadio_mem]
theorem radioKick_mem : ∀ (s : State), Memory.wf s.mem = true → Memory.wf (radioKick s).mem = true := by
  intros; grind [radioKick, radioSettle_mem, lanesBlank_mem, updRadio_mem]
theorem radioOff_mem : ∀ (s : State), Memory.wf s.mem = true → Memory.wf (radioOff s).mem = true := by
  intros; unfold radioOff; repeat' (first | with_reducible assumption | with_reducible apply radioSettle_mem | with_reducible apply lanesBlank_mem | with_reducible apply updRadio_mem)
theorem radioSubmit_mem : ∀ (q : TxReq) (s : State), Memory.wf s.mem = true → Memory.wf (radioSubmit q s).mem = true := by
  intros; simp_all [radioSubmit, radioKick_mem, updRadio_mem]
theorem abandonHeld_mem : ∀ (s : State), Memory.wf s.mem = true → Memory.wf (abandonHeld s).mem = true := by
  intros; unfold abandonHeld; repeat' (first | with_reducible assumption | with_reducible apply updRadio_mem | with_reducible apply tallyRelease_mem | split)
theorem radioStart_mem : ∀ (q : TxReq) (rec : LastTx) (s : State), Memory.wf s.mem = true → Memory.wf (radioStart q rec s).mem = true := by
  intros; unfold radioStart; repeat' (first | with_reducible assumption | with_reducible apply updRadio_mem | with_reducible apply lanesBlank_mem | with_reducible apply tallyStart_mem | with_reducible apply raise_mem | with_reducible apply mem_ite)
theorem measureR_mem : ∀ (s : State) (hz bw : Nat) (checks : List (Bool × Nat)) (go : Unit → Res), Memory.wf s.mem = true → (∀ (a : Unit), Memory.wf (go a).s.mem = true) → Memory.wf (measureR s hz bw checks go).s.mem = true := by
  intros; unfold measureR at *; (repeat' split) <;> simp_all [guardR_mem, modeR_mem]
theorem radioStateGet_mem : ∀ (a : Ctx) (a_1 : List Byte) (a_2 : State), Memory.wf a_2.mem = true → Memory.wf (radioStateGet a a_1 a_2).s.mem = true := by
  intros; simp_all [radioStateGet, okR_mem]
theorem applyHome_mem : ∀ (s : State), Memory.wf s.mem = true → Memory.wf (applyHome s).mem = true := by
  intros; unfold applyHome; repeat' (first | with_reducible assumption | with_reducible apply updRadio_mem | with_reducible apply radioKick_mem | split)
theorem radioTuneSet_mem : ∀ (a : Ctx) (a_1 : List Byte) (a_2 : State), Memory.wf a_2.mem = true → Memory.wf (radioTuneSet a a_1 a_2).s.mem = true := by
  intros; unfold radioTuneSet; repeat' (first | with_reducible assumption | with_reducible apply guardR_mem | with_reducible apply applyHome_mem | with_reducible apply updRadio_mem | with_reducible apply okR_mem | with_reducible intro _)
theorem radioTuneGet_mem : ∀ (a : Ctx) (a_1 : List Byte) (a_2 : State), Memory.wf a_2.mem = true → Memory.wf (radioTuneGet a a_1 a_2).s.mem = true := by
  intros; simp_all [radioTuneGet, okR_mem]
theorem radioPaSet_mem : ∀ (a : Ctx) (a_1 : List Byte) (a_2 : State), Memory.wf a_2.mem = true → Memory.wf (radioPaSet a a_1 a_2).s.mem = true := by
  intros; unfold radioPaSet; repeat' (first | with_reducible assumption | with_reducible apply guardR_mem | with_reducible apply updRadio_mem | with_reducible apply okR_mem | with_reducible intro _)
theorem radioPaGet_mem : ∀ (a : Ctx) (a_1 : List Byte) (a_2 : State), Memory.wf a_2.mem = true → Memory.wf (radioPaGet a a_1 a_2).s.mem = true := by
  intros; simp_all [radioPaGet, okR_mem]
theorem radioCompSet_mem : ∀ (a : Ctx) (a_1 : List Byte) (a_2 : State), Memory.wf a_2.mem = true → Memory.wf (radioCompSet a a_1 a_2).s.mem = true := by
  intros; unfold radioCompSet; repeat' (first | with_reducible assumption | with_reducible apply guardR_mem | with_reducible apply updRadio_mem | with_reducible apply okR_mem | with_reducible intro _)
theorem radioCompGet_mem : ∀ (a : Ctx) (a_1 : List Byte) (a_2 : State), Memory.wf a_2.mem = true → Memory.wf (radioCompGet a a_1 a_2).s.mem = true := by
  intros; simp_all [radioCompGet, okR_mem]
theorem radioDivSet_mem : ∀ (a : Ctx) (a_1 : List Byte) (a_2 : State), Memory.wf a_2.mem = true → Memory.wf (radioDivSet a a_1 a_2).s.mem = true := by
  intros; unfold radioDivSet; repeat' (first | with_reducible assumption | with_reducible apply guardR_mem | with_reducible apply radioSettle_mem | with_reducible apply updRadio_mem | with_reducible apply okR_mem | with_reducible intro _ | split)
theorem radioDivGet_mem : ∀ (a : Ctx) (a_1 : List Byte) (a_2 : State), Memory.wf a_2.mem = true → Memory.wf (radioDivGet a a_1 a_2).s.mem = true := by
  intros; simp_all [radioDivGet, okR_mem]
theorem radioExtSet_mem : ∀ (a : Ctx) (a_1 : List Byte) (a_2 : State), Memory.wf a_2.mem = true → Memory.wf (radioExtSet a a_1 a_2).s.mem = true := by
  intros; unfold radioExtSet; repeat' (first | with_reducible assumption | with_reducible apply guardR_mem | with_reducible apply radioSettle_mem | with_reducible apply updRadio_mem | with_reducible apply okR_mem | with_reducible intro _)
theorem radioExtGet_mem : ∀ (a : Ctx) (a_1 : List Byte) (a_2 : State), Memory.wf a_2.mem = true → Memory.wf (radioExtGet a a_1 a_2).s.mem = true := by
  intros; simp_all [radioExtGet, okR_mem]
theorem radioCal_mem : ∀ (a : Ctx) (a_1 : List Byte) (a_2 : State), Memory.wf a_2.mem = true → Memory.wf (radioCal a a_1 a_2).s.mem = true := by
  intros; unfold radioCal; repeat' (first | with_reducible assumption | with_reducible apply guardR_mem | with_reducible apply modeR_mem | with_reducible apply pendR_mem | with_reducible apply radioKick_mem | with_reducible apply updRadio_mem | with_reducible intro _ | split)
theorem radioRssi_mem : ∀ (a : Ctx) (a_1 : List Byte) (a_2 : State), Memory.wf a_2.mem = true → Memory.wf (radioRssi a a_1 a_2).s.mem = true := by
  intros; unfold radioRssi; repeat' (first | with_reducible assumption | with_reducible apply measureR_mem | with_reducible apply pendR_mem | with_reducible apply radioKick_mem | with_reducible apply updRadio_mem | with_reducible intro _)
theorem radioCca_mem : ∀ (a : Ctx) (a_1 : List Byte) (a_2 : State), Memory.wf a_2.mem = true → Memory.wf (radioCca a a_1 a_2).s.mem = true := by
  intros; unfold radioCca; repeat' (first | with_reducible assumption | with_reducible apply measureR_mem | with_reducible apply pendR_mem | with_reducible apply radioKick_mem | with_reducible apply updRadio_mem | with_reducible intro _)
theorem radioStatsGet_mem : ∀ (a : Ctx) (a_1 : List Byte) (a_2 : State), Memory.wf a_2.mem = true → Memory.wf (radioStatsGet a a_1 a_2).s.mem = true := by
  intros; unfold radioStatsGet; repeat' (first | with_reducible assumption | with_reducible apply guardR_mem | with_reducible apply okR_mem | with_reducible apply updRadio_mem | with_reducible intro _ | split)
theorem radioTestTx_mem : ∀ (a : Ctx) (a_1 : List Byte) (a_2 : State), Memory.wf a_2.mem = true → Memory.wf (radioTestTx a a_1 a_2).s.mem = true := by
  intros; grind [radioTestTx, guardR_mem, modeR_mem, tallyTake_mem, errR_mem, pendR_mem, radioSubmit_mem, updRadio_mem]
theorem execRadioStateGet_mem : ∀ (v : Srv) (s : State), Memory.wf s.mem = true → ∀ (t : State), execRadioStateGet v s = Host.Outcome.next t → Memory.wf t.mem = true := by
  intros; unfold execRadioStateGet at *; rename_i h; injection h with h; subst h; repeat' (first | with_reducible assumption | with_reducible apply serve_mem | with_reducible apply radioStateGet_mem)
theorem execRadioTuneSet_mem : ∀ (v : Srv) (s : State), Memory.wf s.mem = true → ∀ (t : State), execRadioTuneSet v s = Host.Outcome.next t → Memory.wf t.mem = true := by
  intros; unfold execRadioTuneSet at *; rename_i h; injection h with h; subst h; repeat' (first | with_reducible assumption | with_reducible apply serve_mem | with_reducible apply radioTuneSet_mem)
theorem execRadioTuneGet_mem : ∀ (v : Srv) (s : State), Memory.wf s.mem = true → ∀ (t : State), execRadioTuneGet v s = Host.Outcome.next t → Memory.wf t.mem = true := by
  intros; unfold execRadioTuneGet at *; rename_i h; injection h with h; subst h; repeat' (first | with_reducible assumption | with_reducible apply serve_mem | with_reducible apply radioTuneGet_mem)
theorem execRadioPaSet_mem : ∀ (v : Srv) (s : State), Memory.wf s.mem = true → ∀ (t : State), execRadioPaSet v s = Host.Outcome.next t → Memory.wf t.mem = true := by
  intros; unfold execRadioPaSet at *; rename_i h; injection h with h; subst h; repeat' (first | with_reducible assumption | with_reducible apply serve_mem | with_reducible apply radioPaSet_mem)
theorem execRadioPaGet_mem : ∀ (v : Srv) (s : State), Memory.wf s.mem = true → ∀ (t : State), execRadioPaGet v s = Host.Outcome.next t → Memory.wf t.mem = true := by
  intros; unfold execRadioPaGet at *; rename_i h; injection h with h; subst h; repeat' (first | with_reducible assumption | with_reducible apply serve_mem | with_reducible apply radioPaGet_mem)
theorem execRadioCompSet_mem : ∀ (v : Srv) (s : State), Memory.wf s.mem = true → ∀ (t : State), execRadioCompSet v s = Host.Outcome.next t → Memory.wf t.mem = true := by
  intros; unfold execRadioCompSet at *; rename_i h; injection h with h; subst h; repeat' (first | with_reducible assumption | with_reducible apply serve_mem | with_reducible apply radioCompSet_mem)
theorem execRadioCompGet_mem : ∀ (v : Srv) (s : State), Memory.wf s.mem = true → ∀ (t : State), execRadioCompGet v s = Host.Outcome.next t → Memory.wf t.mem = true := by
  intros; unfold execRadioCompGet at *; rename_i h; injection h with h; subst h; repeat' (first | with_reducible assumption | with_reducible apply serve_mem | with_reducible apply radioCompGet_mem)
theorem execRadioDivSet_mem : ∀ (v : Srv) (s : State), Memory.wf s.mem = true → ∀ (t : State), execRadioDivSet v s = Host.Outcome.next t → Memory.wf t.mem = true := by
  intros; unfold execRadioDivSet at *; rename_i h; injection h with h; subst h; repeat' (first | with_reducible assumption | with_reducible apply serve_mem | with_reducible apply radioDivSet_mem)
theorem execRadioDivGet_mem : ∀ (v : Srv) (s : State), Memory.wf s.mem = true → ∀ (t : State), execRadioDivGet v s = Host.Outcome.next t → Memory.wf t.mem = true := by
  intros; unfold execRadioDivGet at *; rename_i h; injection h with h; subst h; repeat' (first | with_reducible assumption | with_reducible apply serve_mem | with_reducible apply radioDivGet_mem)
theorem execRadioExtSet_mem : ∀ (v : Srv) (s : State), Memory.wf s.mem = true → ∀ (t : State), execRadioExtSet v s = Host.Outcome.next t → Memory.wf t.mem = true := by
  intros; unfold execRadioExtSet at *; rename_i h; injection h with h; subst h; repeat' (first | with_reducible assumption | with_reducible apply serve_mem | with_reducible apply radioExtSet_mem)
theorem execRadioExtGet_mem : ∀ (v : Srv) (s : State), Memory.wf s.mem = true → ∀ (t : State), execRadioExtGet v s = Host.Outcome.next t → Memory.wf t.mem = true := by
  intros; unfold execRadioExtGet at *; rename_i h; injection h with h; subst h; repeat' (first | with_reducible assumption | with_reducible apply serve_mem | with_reducible apply radioExtGet_mem)
theorem execRadioCal_mem : ∀ (v : Srv) (s : State), Memory.wf s.mem = true → ∀ (t : State), execRadioCal v s = Host.Outcome.next t → Memory.wf t.mem = true := by
  intros; unfold execRadioCal at *; rename_i h; injection h with h; subst h; repeat' (first | with_reducible assumption | with_reducible apply serve_mem | with_reducible apply radioCal_mem)
theorem execRadioRssi_mem : ∀ (v : Srv) (s : State), Memory.wf s.mem = true → ∀ (t : State), execRadioRssi v s = Host.Outcome.next t → Memory.wf t.mem = true := by
  intros; unfold execRadioRssi at *; rename_i h; injection h with h; subst h; repeat' (first | with_reducible assumption | with_reducible apply serve_mem | with_reducible apply radioRssi_mem)
theorem execRadioCca_mem : ∀ (v : Srv) (s : State), Memory.wf s.mem = true → ∀ (t : State), execRadioCca v s = Host.Outcome.next t → Memory.wf t.mem = true := by
  intros; unfold execRadioCca at *; rename_i h; injection h with h; subst h; repeat' (first | with_reducible assumption | with_reducible apply serve_mem | with_reducible apply radioCca_mem)
theorem execRadioStatsGet_mem : ∀ (v : Srv) (s : State), Memory.wf s.mem = true → ∀ (t : State), execRadioStatsGet v s = Host.Outcome.next t → Memory.wf t.mem = true := by
  intros; unfold execRadioStatsGet at *; rename_i h; injection h with h; subst h; repeat' (first | with_reducible assumption | with_reducible apply serve_mem | with_reducible apply radioStatsGet_mem)
theorem execRadioTestTx_mem : ∀ (v : Srv) (s : State), Memory.wf s.mem = true → ∀ (t : State), execRadioTestTx v s = Host.Outcome.next t → Memory.wf t.mem = true := by
  intros; unfold execRadioTestTx at *; rename_i h; injection h with h; subst h; repeat' (first | with_reducible assumption | with_reducible apply serve_mem | with_reducible apply radioTestTx_mem)
theorem execRssiMeasureEnd_mem : ∀ (rssi : Int) (s : State), Memory.wf s.mem = true → ∀ (t : State), execRssiMeasureEnd rssi s = Host.Outcome.next t → Memory.wf t.mem = true := by
  intros; unfold execRssiMeasureEnd at *; rename_i h; injection h with h; subst h; repeat' (first | with_reducible assumption | with_reducible apply radioKick_mem | with_reducible apply complete_mem | with_reducible apply updRadio_mem | split)
theorem execCcaListenEnd_mem : ∀ (rssiA rssiB : Int) (s : State), Memory.wf s.mem = true → ∀ (t : State), execCcaListenEnd rssiA rssiB s = Host.Outcome.next t → Memory.wf t.mem = true := by
  intros; unfold execCcaListenEnd at *; rename_i h; injection h with h; subst h; repeat' (first | with_reducible assumption | with_reducible apply radioKick_mem | with_reducible apply complete_mem | with_reducible apply updRadio_mem | with_reducible apply mem_ite | split)
theorem execRadioCalDone_mem : ∀ (s : State), Memory.wf s.mem = true → ∀ (t : State), execRadioCalDone s = Host.Outcome.next t → Memory.wf t.mem = true := by
  intros; unfold execRadioCalDone at *; rename_i h; injection h with h; subst h; repeat' (first | with_reducible assumption | with_reducible apply radioKick_mem | with_reducible apply complete_mem | with_reducible apply updRadio_mem | split)
theorem execCalEnd_mem : ∀ (code : Nat) (s : State), Memory.wf s.mem = true → ∀ (t : State), execCalEnd code s = Host.Outcome.next t → Memory.wf t.mem = true := by
  intros; unfold execCalEnd at *; rename_i h; injection h with h; subst h; repeat' (first | with_reducible assumption | with_reducible apply updRadio_mem | with_reducible apply mem_ite | split)
theorem execRadioTransitionDone_mem : ∀ (s : State), Memory.wf s.mem = true → ∀ (t : State), execRadioTransitionDone s = Host.Outcome.next t → Memory.wf t.mem = true := by
  intros; unfold execRadioTransitionDone at *; rename_i h; injection h with h; subst h; repeat' (first | with_reducible assumption | with_reducible apply radioKick_mem | with_reducible apply updRadio_mem | split)
theorem execTempMeasure_mem : ∀ (temp : Int) (s : State), Memory.wf s.mem = true → ∀ (t : State), execTempMeasure temp s = Host.Outcome.next t → Memory.wf t.mem = true := by
  intros; unfold execTempMeasure at *; rename_i h; injection h with h; subst h; repeat' (first | with_reducible assumption | with_reducible apply updRadio_mem | with_reducible apply mem_ite)
theorem startRecal_mem : ∀ (s : State), Memory.wf s.mem = true → Memory.wf (startRecal s).mem = true := by
  intros; simp_all [startRecal, lanesBlank_mem, updRadio_mem]
theorem execAutoRecal_mem : ∀ (s : State), Memory.wf s.mem = true → ∀ (t : State), execAutoRecal s = Host.Outcome.next t → Memory.wf t.mem = true := by
  intros; unfold execAutoRecal at *; rename_i h; injection h with h; subst h; repeat' (first | with_reducible assumption | with_reducible apply startRecal_mem | split)
theorem execRecalWaitTimeout_mem : ∀ (s : State), Memory.wf s.mem = true → ∀ (t : State), execRecalWaitTimeout s = Host.Outcome.next t → Memory.wf t.mem = true := by
  intros; unfold execRecalWaitTimeout at *; rename_i h; injection h with h; subst h; repeat' (first | with_reducible assumption | with_reducible apply startRecal_mem | split)
theorem execHomeRetune_mem : ∀ (s : State), Memory.wf s.mem = true → ∀ (t : State), execHomeRetune s = Host.Outcome.next t → Memory.wf t.mem = true := by
  intros; unfold execHomeRetune at *; rename_i h; injection h with h; subst h; repeat' (first | with_reducible assumption | with_reducible apply applyHome_mem | split)
theorem execDivDecisionEnd_mem : ∀ (lane : Nat) (rssiA rssiB : Int) (cut : Option Nat) (s : State), Memory.wf s.mem = true → ∀ (t : State), execDivDecisionEnd lane rssiA rssiB cut s = Host.Outcome.next t → Memory.wf t.mem = true := by
  intros; unfold execDivDecisionEnd at *; rename_i h; injection h with h; subst h; repeat' (first | with_reducible assumption | with_reducible apply updRadio_mem | with_reducible apply mem_ite | split)
theorem lanesStop_mem : ∀ (s : State), Memory.wf s.mem = true → Memory.wf (lanesStop s).mem = true := by
  intros; simp_all [lanesStop, updLanes_mem]
theorem updLane_mem : ∀ (n : Nat) (f : Lane → Lane) (s : State), Memory.wf s.mem = true → Memory.wf (updLane n f s).mem = true := by
  intros; simp_all [updLane, updLanes_mem]
theorem laneStateGet_mem : ∀ (a : Ctx) (a_1 : List Byte) (a_2 : State), Memory.wf a_2.mem = true → Memory.wf (laneStateGet a a_1 a_2).s.mem = true := by
  intros; simp_all [laneStateGet, okR_mem]
theorem laneSet_mem : ∀ (a : Ctx) (a_1 : List Byte) (a_2 : State), Memory.wf a_2.mem = true → Memory.wf (laneSet a a_1 a_2).s.mem = true := by
  intros; unfold laneSet; repeat' (first | with_reducible assumption | with_reducible apply guardR_mem | with_reducible apply updLane_mem | with_reducible apply okR_mem | with_reducible intro _)
theorem laneGet_mem : ∀ (a : Ctx) (a_1 : List Byte) (a_2 : State), Memory.wf a_2.mem = true → Memory.wf (laneGet a a_1 a_2).s.mem = true := by
  intros; simp_all [laneGet, guardR_mem, okR_mem]
theorem laneStatsGet_mem : ∀ (a : Ctx) (a_1 : List Byte) (a_2 : State), Memory.wf a_2.mem = true → Memory.wf (laneStatsGet a a_1 a_2).s.mem = true := by
  intros; unfold laneStatsGet; repeat' (first | with_reducible assumption | with_reducible apply guardR_mem | with_reducible apply okR_mem | with_reducible apply updLanes_mem | with_reducible apply updLane_mem | with_reducible intro _ | split)
theorem phyProfileSet_mem : ∀ (a : Ctx) (a_1 : List Byte) (a_2 : State), Memory.wf a_2.mem = true → Memory.wf (phyProfileSet a a_1 a_2).s.mem = true := by
  intros; unfold phyProfileSet; repeat' (first | with_reducible assumption | with_reducible apply guardR_mem | with_reducible apply updLanes_mem | with_reducible apply okR_mem | with_reducible intro _)
theorem phyProfileGet_mem : ∀ (a : Ctx) (a_1 : List Byte) (a_2 : State), Memory.wf a_2.mem = true → Memory.wf (phyProfileGet a a_1 a_2).s.mem = true := by
  intros; simp_all [phyProfileGet, guardR_mem, okR_mem]
theorem phyQualityGet_mem : ∀ (a : Ctx) (a_1 : List Byte) (a_2 : State), Memory.wf a_2.mem = true → Memory.wf (phyQualityGet a a_1 a_2).s.mem = true := by
  intros; simp_all [phyQualityGet, guardR_mem, okR_mem]
theorem phyStatsGet_mem : ∀ (a : Ctx) (a_1 : List Byte) (a_2 : State), Memory.wf a_2.mem = true → Memory.wf (phyStatsGet a a_1 a_2).s.mem = true := by
  intros; unfold phyStatsGet; repeat' (first | with_reducible assumption | with_reducible apply guardR_mem | with_reducible apply okR_mem | with_reducible apply updLane_mem | with_reducible intro _ | split)
theorem execLaneStateGet_mem : ∀ (v : Srv) (s : State), Memory.wf s.mem = true → ∀ (t : State), execLaneStateGet v s = Host.Outcome.next t → Memory.wf t.mem = true := by
  intros; unfold execLaneStateGet at *; rename_i h; injection h with h; subst h; repeat' (first | with_reducible assumption | with_reducible apply serve_mem | with_reducible apply laneStateGet_mem)
theorem execLaneSet_mem : ∀ (v : Srv) (s : State), Memory.wf s.mem = true → ∀ (t : State), execLaneSet v s = Host.Outcome.next t → Memory.wf t.mem = true := by
  intros; unfold execLaneSet at *; rename_i h; injection h with h; subst h; repeat' (first | with_reducible assumption | with_reducible apply serve_mem | with_reducible apply laneSet_mem)
theorem execLaneGet_mem : ∀ (v : Srv) (s : State), Memory.wf s.mem = true → ∀ (t : State), execLaneGet v s = Host.Outcome.next t → Memory.wf t.mem = true := by
  intros; unfold execLaneGet at *; rename_i h; injection h with h; subst h; repeat' (first | with_reducible assumption | with_reducible apply serve_mem | with_reducible apply laneGet_mem)
theorem execLaneStatsGet_mem : ∀ (v : Srv) (s : State), Memory.wf s.mem = true → ∀ (t : State), execLaneStatsGet v s = Host.Outcome.next t → Memory.wf t.mem = true := by
  intros; unfold execLaneStatsGet at *; rename_i h; injection h with h; subst h; repeat' (first | with_reducible assumption | with_reducible apply serve_mem | with_reducible apply laneStatsGet_mem)
theorem execPhyProfileSet_mem : ∀ (v : Srv) (s : State), Memory.wf s.mem = true → ∀ (t : State), execPhyProfileSet v s = Host.Outcome.next t → Memory.wf t.mem = true := by
  intros; unfold execPhyProfileSet at *; rename_i h; injection h with h; subst h; repeat' (first | with_reducible assumption | with_reducible apply serve_mem | with_reducible apply phyProfileSet_mem)
theorem execPhyProfileGet_mem : ∀ (v : Srv) (s : State), Memory.wf s.mem = true → ∀ (t : State), execPhyProfileGet v s = Host.Outcome.next t → Memory.wf t.mem = true := by
  intros; unfold execPhyProfileGet at *; rename_i h; injection h with h; subst h; repeat' (first | with_reducible assumption | with_reducible apply serve_mem | with_reducible apply phyProfileGet_mem)
theorem execPhyQualityGet_mem : ∀ (v : Srv) (s : State), Memory.wf s.mem = true → ∀ (t : State), execPhyQualityGet v s = Host.Outcome.next t → Memory.wf t.mem = true := by
  intros; unfold execPhyQualityGet at *; rename_i h; injection h with h; subst h; repeat' (first | with_reducible assumption | with_reducible apply serve_mem | with_reducible apply phyQualityGet_mem)
theorem execPhyStatsGet_mem : ∀ (v : Srv) (s : State), Memory.wf s.mem = true → ∀ (t : State), execPhyStatsGet v s = Host.Outcome.next t → Memory.wf t.mem = true := by
  intros; unfold execPhyStatsGet at *; rename_i h; injection h with h; subst h; repeat' (first | with_reducible assumption | with_reducible apply serve_mem | with_reducible apply phyStatsGet_mem)
theorem laneStat_mem : ∀ (n : Nat) (f : LaneStats → LaneStats) (s : State), Memory.wf s.mem = true → Memory.wf (laneStat n f s).mem = true := by
  intros; simp_all [laneStat, updLane_mem]
theorem agcFreeze_mem : ∀ (path : Nat) (s : State), Memory.wf s.mem = true → Memory.wf (agcFreeze path s).mem = true := by
  intros; unfold agcFreeze; repeat' (first | with_reducible assumption | with_reducible apply updLanes_mem | with_reducible apply mem_ite)
theorem execLaneSofDetect_mem : ∀ (lane path : Nat) (coded : Bool) (stamp : Nat) (s : State), Memory.wf s.mem = true → ∀ (t : State), execLaneSofDetect lane path coded stamp s = Host.Outcome.next t → Memory.wf t.mem = true := by
  intros; unfold execLaneSofDetect at *; rename_i h; injection h with h; subst h; repeat' (first | with_reducible assumption | with_reducible apply updRadio_mem | with_reducible apply updLane_mem | with_reducible apply laneStat_mem | with_reducible apply agcFreeze_mem | with_reducible apply mem_ite)
theorem execLaneHeader_mem : ∀ (lane : Nat) (h : LaneHdr) (s : State), Memory.wf s.mem = true → ∀ (t : State), execLaneHeader lane h s = Host.Outcome.next t → Memory.wf t.mem = true := by
  intros; unfold execLaneHeader at *; rename_i h; injection h with h; subst h; repeat' (first | with_reducible assumption | with_reducible apply updLane_mem | with_reducible apply laneStat_mem | split)
theorem execSeamPilotBlock_mem : ∀ (lane : Nat) (weak energy : Bool) (s : State), Memory.wf s.mem = true → ∀ (t : State), execSeamPilotBlock lane weak energy s = Host.Outcome.next t → Memory.wf t.mem = true := by
  intros; unfold execSeamPilotBlock at *; rename_i h; injection h with h; subst h; repeat' (first | with_reducible assumption | with_reducible apply updLane_mem | with_reducible apply laneStat_mem | with_reducible apply mem_ite | split)
theorem execAgcClip_mem : ∀ (path : Nat) (s : State), Memory.wf s.mem = true → ∀ (t : State), execAgcClip path s = Host.Outcome.next t → Memory.wf t.mem = true := by
  intros; unfold execAgcClip at *; rename_i h; injection h with h; subst h; repeat' (first | with_reducible assumption | with_reducible apply updLanes_mem | split)
theorem updQueue_mem : ∀ (q : Nat) (f : Queue → Queue) (s : State), Memory.wf s.mem = true → Memory.wf (updQueue q f s).mem = true := by
  intros; simp_all [updQueue, updQm_mem]
theorem qmStat_mem : ∀ (f : QmStats → QmStats) (s : State), Memory.wf s.mem = true → Memory.wf (qmStat f s).mem = true := by
  intros; simp_all [qmStat, updQm_mem]
theorem allocCells_mem : ∀ (n : Nat) (s : State), Memory.wf s.mem = true → Memory.wf (allocCells n s).fst.mem = true := by
  intros; simp_all [allocCells, updQm_mem]
theorem releaseCells_mem : ∀ (cs : List Nat) (s : State), Memory.wf s.mem = true → Memory.wf (releaseCells cs s).mem = true := by
  intros; simp_all [releaseCells, updQm_mem]
theorem noteEcc_mem : ∀ (code : Nat) (ue : Bool) (s : State), Memory.wf s.mem = true → Memory.wf (noteEcc code ue s).mem = true := by
  intros; unfold noteEcc; repeat' (first | with_reducible assumption | with_reducible apply updQm_mem | with_reducible apply raise_mem | with_reducible apply mem_ite)
theorem readEcc_mem : ∀ (cells : List Nat) (e : PopEcc) (s : State), Memory.wf s.mem = true → Memory.wf (readEcc cells e s).fst.mem = true := by
  intros; unfold readEcc; repeat' (first | with_reducible assumption | with_reducible apply noteEcc_mem | split)
theorem setResult_mem : ∀ (m : Master) (v : Nat) (s : State), Memory.wf s.mem = true → Memory.wf (setResult m v s).mem = true := by
  intros; simp_all [setResult, updQm_mem]
theorem popHead_mem : ∀ (m : Master) (q : Nat) (p : Packet) (rest : List Packet) (e : PopEcc) (s : State), Memory.wf s.mem = true → Memory.wf (popHead m q p rest e s).fst.mem = true := by
  intros; unfold popHead; repeat' (first | with_reducible assumption | with_reducible apply qmStat_mem | with_reducible apply readEcc_mem | with_reducible apply wrBytes_mem | with_reducible apply releaseCells_mem | with_reducible apply updQueue_mem | with_reducible apply mem_ite_fst | split)
theorem countEmpty_mem : ∀ (s : State), Memory.wf s.mem = true → Memory.wf (countEmpty s).mem = true := by
  intros; simp_all [countEmpty, qmStat_mem]
theorem endStall_mem : ∀ (t : Stall) (v : Nat) (s : State), Memory.wf s.mem = true → Memory.wf (endStall t v s).mem = true := by
  intros; unfold endStall; repeat' (first | with_reducible assumption | with_reducible apply setResult_mem | with_reducible apply updQm_mem | with_reducible apply updCore_mem | with_reducible apply mem_ite | split)
theorem endStallsEmpty_mem : ∀ (q : Nat) (s : State), Memory.wf s.mem = true → Memory.wf (endStallsEmpty q s).mem = true := by
  intro q s h; exact mem_foldl _ (fun a x ha => endStall_mem _ _ _ (countEmpty_mem _ ha)) _ _ h
theorem serveStalls_mem : ∀ (q : Nat) (s : State), Memory.wf s.mem = true → Memory.wf (serveStalls q s).mem = true := by
  intro q s h
  refine mem_foldl _ (fun a x ha => ?_) _ _ h
  dsimp only; repeat' split
  all_goals first | exact ha | exact endStall_mem _ _ _ (popHead_mem _ _ _ _ _ _ ha)
theorem breakQueue_mem : ∀ (q w : Nat) (s : State), Memory.wf s.mem = true → Memory.wf (breakQueue q w s).mem = true := by
  intros; unfold breakQueue; repeat' (first | with_reducible assumption | with_reducible apply updQueue_mem | with_reducible apply noteEcc_mem | with_reducible apply endStallsEmpty_mem | with_reducible apply mem_ite)
theorem popRead_mem : ∀ (m : Master) (q : Nat) (e : PopEcc) (rd : Option Nat) (s : State), Memory.wf s.mem = true → Memory.wf (popRead m q e rd s).fst.mem = true := by
  intro m q e rd s h
  cases e with
  | linkUe w =>
    have h := breakQueue_mem q w s h; revert h; unfold popRead; dsimp only; generalize breakQueue q w s = S; intro h
    repeat' split
    all_goals first | exact h | exact popHead_mem _ _ _ _ _ _ h | exact updQueue_mem _ _ _ (countEmpty_mem _ h)
  | _ =>
    unfold popRead; dsimp only
    repeat' split
    all_goals first | exact h | exact popHead_mem _ _ _ _ _ _ h | exact updQueue_mem _ _ _ (countEmpty_mem _ h)
theorem linkPacket_mem : ∀ (q : Nat) (p : Packet) (s : State), Memory.wf s.mem = true → Memory.wf (linkPacket q p s).mem = true := by
  intros; simp_all [linkPacket, serveStalls_mem, updQueue_mem]
theorem pushWrite_mem : ∀ (q : Nat) (v : Word) (s : State), Memory.wf s.mem = true → Memory.wf (pushWrite q v s).mem = true := by
  intros; unfold pushWrite; repeat' (first | with_reducible assumption | with_reducible apply qmStat_mem | with_reducible apply updQueue_mem | with_reducible apply allocCells_mem | with_reducible apply linkPacket_mem | with_reducible apply mem_ite)
theorem landWrite_mem : ∀ (m : Master) (q : Nat) (v : Word) (s : State), Memory.wf s.mem = true → Memory.wf (landWrite m q v s).mem = true := by
  intros; unfold landWrite; repeat' (first | with_reducible assumption | with_reducible apply updQueue_mem | with_reducible apply mem_ite)
theorem clearStatus_mem : ∀ (q : Nat) (v : Word) (s : State), Memory.wf s.mem = true → Memory.wf (clearStatus q v s).mem = true := by
  intros; simp_all [clearStatus, updQueue_mem]

end Sys2Proof.Machine
end

