-- ==== Sys2Proof/Laws/MemoryUnits.lean ====
section
/-! SUPPORT. The canonical form of memory is kept by the cipher engine, the canary, the resets, the sensors and the RTC: one lemma an operation, cited by name. -/

set_option Elab.async false
set_option linter.all false

namespace Sys2Proof.Machine

theorem putSlot_mem : ∀ (k : Nat) (x : KeySlot) (s : State), Memory.wf s.mem = true → Memory.wf (putSlot k x s).mem = true := by
  intros; simp_all [putSlot, updCipher_mem]
theorem putCtr_mem : ∀ (k : Nat) (x : KeyCounter) (s : State), Memory.wf s.mem = true → Memory.wf (putCtr k x s).mem = true := by
  intros; simp_all [putCtr, updCipher_mem]
theorem putRecord_mem : ∀ (k : Nat) (x : KeyRecord) (s : State), Memory.wf s.mem = true → Memory.wf (putRecord k x s).mem = true := by
  intros; simp_all [putRecord, updCipher_mem]
theorem cipherStat_mem : ∀ (f : CipherStats → CipherStats) (s : State), Memory.wf s.mem = true → Memory.wf (cipherStat f s).mem = true := by
  intros; simp_all [cipherStat, updCipher_mem]
theorem cipherFault_mem : ∀ (reason slot : Nat) (s : State), Memory.wf s.mem = true → Memory.wf (cipherFault reason slot s).mem = true := by
  intros; simp_all [cipherFault, raise_mem]
theorem genUse_mem : ∀ (s : State), Memory.wf s.mem = true → Memory.wf (genUse s).mem = true := by
  intros; simp_all [genUse, updCipher_mem]
theorem drawFC_mem : ∀ (k : Nat) (s : State), Memory.wf s.mem = true → Memory.wf (drawFC k s).fst.mem = true := by
  intros; unfold drawFC; repeat' (first | with_reducible assumption | with_reducible apply putCtr_mem | with_reducible apply raise_mem | with_reducible apply mem_ite | with_reducible apply mem_ite_fst)
theorem reserveWritten_mem : ∀ (k : Nat) (fail : Bool) (s : State), Memory.wf s.mem = true → Memory.wf (reserveWritten k fail s).mem = true := by
  intros; unfold reserveWritten; repeat' (first | with_reducible assumption | with_reducible apply putCtr_mem | with_reducible apply cipherFault_mem | with_reducible apply cipherStat_mem | with_reducible apply putRecord_mem | with_reducible apply mem_ite)
theorem reserveRetry_mem : ∀ (s : State), Memory.wf s.mem = true → Memory.wf (reserveRetry s).mem = true := by
  intros; simp_all [reserveRetry, updCipher_mem]
theorem loadSlot_mem : ∀ (por : Bool) (s : State) (k : Nat), Memory.wf s.mem = true → Memory.wf (loadSlot por s k).mem = true := by
  intros; unfold loadSlot; repeat' (first | with_reducible assumption | with_reducible apply cipherFault_mem | with_reducible apply putCtr_mem | with_reducible apply putSlot_mem | with_reducible apply mem_ite)
theorem loadKeys_mem : ∀ (por : Bool) (s : State), Memory.wf s.mem = true → Memory.wf (loadKeys por s).mem = true := by
  intro p s h; unfold loadKeys; dsimp only
  exact updCipher_mem _ _ (mem_foldl (loadSlot p) (fun a x ha => loadSlot_mem _ _ _ ha) (List.range 64) s h)
theorem cipherStateGet_mem : ∀ (a : Ctx) (a_1 : List Byte) (a_2 : State), Memory.wf a_2.mem = true → Memory.wf (cipherStateGet a a_1 a_2).s.mem = true := by
  intros; simp_all [cipherStateGet, okR_mem]
theorem keyInfoGet_mem : ∀ (a : Ctx) (a_1 : List Byte) (a_2 : State), Memory.wf a_2.mem = true → Memory.wf (keyInfoGet a a_1 a_2).s.mem = true := by
  intros; simp_all [keyInfoGet, guardR_mem, okR_mem]
theorem keyUsageSet_mem : ∀ (a : Ctx) (a_1 : List Byte) (a_2 : State), Memory.wf a_2.mem = true → Memory.wf (keyUsageSet a a_1 a_2).s.mem = true := by
  intros; unfold keyUsageSet; repeat' (first | with_reducible assumption | with_reducible apply guardR_mem | with_reducible apply putSlot_mem | with_reducible apply cipherFault_mem | with_reducible apply putRecord_mem | with_reducible apply okR_mem | with_reducible intro _ | split)
theorem enterKey_mem : ∀ (c : Ctx) (k : Nat) (x : KeySlot) (fc : Nat) (s : State), Memory.wf s.mem = true → Memory.wf (enterKey c k x fc s).s.mem = true := by
  intros; unfold enterKey; repeat' (first | with_reducible assumption | with_reducible apply errR_mem | with_reducible apply putRecord_mem | with_reducible apply putCtr_mem | with_reducible apply putSlot_mem | with_reducible apply okR_mem | split)
theorem keyImport_mem : ∀ (a : Ctx) (a_1 : List Byte) (a_2 : State), Memory.wf a_2.mem = true → Memory.wf (keyImport a a_1 a_2).s.mem = true := by
  intros; unfold keyImport; repeat' (first | with_reducible assumption | with_reducible apply guardR_mem | with_reducible apply busyR_mem | with_reducible apply maskUse_mem | with_reducible apply badR_mem | with_reducible apply cipherStat_mem | with_reducible apply enterKey_mem | with_reducible apply mem_ite_res | with_reducible intro _ | split)
theorem keyRetire_mem : ∀ (a : Ctx) (a_1 : List Byte) (a_2 : State), Memory.wf a_2.mem = true → Memory.wf (keyRetire a a_1 a_2).s.mem = true := by
  intros; unfold keyRetire; repeat' (first | with_reducible assumption | with_reducible apply guardR_mem | with_reducible apply putSlot_mem | with_reducible apply errR_mem | with_reducible apply putRecord_mem | with_reducible apply putCtr_mem | with_reducible apply okR_mem | with_reducible intro _ | split)
theorem keyGenerate_mem : ∀ (a : Ctx) (a_1 : List Byte) (a_2 : State), Memory.wf a_2.mem = true → Memory.wf (keyGenerate a a_1 a_2).s.mem = true := by
  intros; unfold keyGenerate; repeat' (first | with_reducible assumption | with_reducible apply guardR_mem | with_reducible apply busyR_mem | with_reducible apply freshBytes_mem | with_reducible apply genUse_mem | with_reducible apply maskUse_mem | with_reducible apply enterKey_mem | with_reducible intro _ | split)
theorem cipherRun_mem : ∀ (a : Ctx) (a_1 : List Byte) (a_2 : State), Memory.wf a_2.mem = true → Memory.wf (cipherRun a a_1 a_2).s.mem = true := by
  intros; unfold cipherRun; repeat' (first | with_reducible assumption | with_reducible apply guardR_mem | with_reducible apply busyR_mem | with_reducible apply pendR_mem | with_reducible apply updCipher_mem | with_reducible intro _ | split)
theorem rngGet_mem : ∀ (a : Ctx) (a_1 : List Byte) (a_2 : State), Memory.wf a_2.mem = true → Memory.wf (rngGet a a_1 a_2).s.mem = true := by
  intros; unfold rngGet; repeat' (first | with_reducible assumption | with_reducible apply guardR_mem | with_reducible apply busyR_mem | with_reducible apply freshBytes_mem | with_reducible apply genUse_mem | with_reducible apply okR_mem | with_reducible intro _ | split)
theorem sigVerify_mem : ∀ (a : Ctx) (a_1 : List Byte) (a_2 : State), Memory.wf a_2.mem = true → Memory.wf (sigVerify a a_1 a_2).s.mem = true := by
  intros; simp_all [sigVerify, pendR_mem, updCipher_mem]
theorem cipherStatsGet_mem : ∀ (a : Ctx) (a_1 : List Byte) (a_2 : State), Memory.wf a_2.mem = true → Memory.wf (cipherStatsGet a a_1 a_2).s.mem = true := by
  intros; unfold cipherStatsGet; repeat' (first | with_reducible assumption | with_reducible apply guardR_mem | with_reducible apply okR_mem | with_reducible apply cipherStat_mem | with_reducible intro _ | split)
theorem execCipherStateGet_mem : ∀ (v : Srv) (s : State), Memory.wf s.mem = true → ∀ (t : State), execCipherStateGet v s = Host.Outcome.next t → Memory.wf t.mem = true := by
  intros; unfold execCipherStateGet at *; rename_i h; injection h with h; subst h; repeat' (first | with_reducible assumption | with_reducible apply serve_mem | with_reducible apply cipherStateGet_mem)
theorem execKeyInfoGet_mem : ∀ (v : Srv) (s : State), Memory.wf s.mem = true → ∀ (t : State), execKeyInfoGet v s = Host.Outcome.next t → Memory.wf t.mem = true := by
  intros; unfold execKeyInfoGet at *; rename_i h; injection h with h; subst h; repeat' (first | with_reducible assumption | with_reducible apply serve_mem | with_reducible apply keyInfoGet_mem)
theorem execKeyUsageSet_mem : ∀ (v : Srv) (s : State), Memory.wf s.mem = true → ∀ (t : State), execKeyUsageSet v s = Host.Outcome.next t → Memory.wf t.mem = true := by
  intros; unfold execKeyUsageSet at *; rename_i h; injection h with h; subst h; repeat' (first | with_reducible assumption | with_reducible apply serve_mem | with_reducible apply keyUsageSet_mem)
theorem execKeyImport_mem : ∀ (v : Srv) (s : State), Memory.wf s.mem = true → ∀ (t : State), execKeyImport v s = Host.Outcome.next t → Memory.wf t.mem = true := by
  intros; unfold execKeyImport at *; rename_i h; injection h with h; subst h; repeat' (first | with_reducible assumption | with_reducible apply serve_mem | with_reducible apply keyImport_mem)
theorem execKeyRetire_mem : ∀ (v : Srv) (s : State), Memory.wf s.mem = true → ∀ (t : State), execKeyRetire v s = Host.Outcome.next t → Memory.wf t.mem = true := by
  intros; unfold execKeyRetire at *; rename_i h; injection h with h; subst h; repeat' (first | with_reducible assumption | with_reducible apply serve_mem | with_reducible apply keyRetire_mem)
theorem execKeyGenerate_mem : ∀ (v : Srv) (s : State), Memory.wf s.mem = true → ∀ (t : State), execKeyGenerate v s = Host.Outcome.next t → Memory.wf t.mem = true := by
  intros; unfold execKeyGenerate at *; rename_i h; injection h with h; subst h; repeat' (first | with_reducible assumption | with_reducible apply serve_mem | with_reducible apply keyGenerate_mem)
theorem execCipherRun_mem : ∀ (v : Srv) (s : State), Memory.wf s.mem = true → ∀ (t : State), execCipherRun v s = Host.Outcome.next t → Memory.wf t.mem = true := by
  intros; unfold execCipherRun at *; rename_i h; injection h with h; subst h; repeat' (first | with_reducible assumption | with_reducible apply serve_mem | with_reducible apply cipherRun_mem)
theorem execRngGet_mem : ∀ (v : Srv) (s : State), Memory.wf s.mem = true → ∀ (t : State), execRngGet v s = Host.Outcome.next t → Memory.wf t.mem = true := by
  intros; unfold execRngGet at *; rename_i h; injection h with h; subst h; repeat' (first | with_reducible assumption | with_reducible apply serve_mem | with_reducible apply rngGet_mem)
theorem execSigVerify_mem : ∀ (v : Srv) (s : State), Memory.wf s.mem = true → ∀ (t : State), execSigVerify v s = Host.Outcome.next t → Memory.wf t.mem = true := by
  intros; unfold execSigVerify at *; rename_i h; injection h with h; subst h; repeat' (first | with_reducible assumption | with_reducible apply serve_mem | with_reducible apply sigVerify_mem)
theorem execCipherStatsGet_mem : ∀ (v : Srv) (s : State), Memory.wf s.mem = true → ∀ (t : State), execCipherStatsGet v s = Host.Outcome.next t → Memory.wf t.mem = true := by
  intros; unfold execCipherStatsGet at *; rename_i h; injection h with h; subst h; repeat' (first | with_reducible assumption | with_reducible apply serve_mem | with_reducible apply cipherStatsGet_mem)
theorem execCipherRunDone_mem : ∀ (s : State), Memory.wf s.mem = true → ∀ (t : State), execCipherRunDone s = Host.Outcome.next t → Memory.wf t.mem = true := by
  intros; unfold execCipherRunDone at *; rename_i h; injection h with h; subst h; repeat' (first | with_reducible assumption | with_reducible apply wrBytes_mem | with_reducible apply maskUse_mem | with_reducible apply cipherStat_mem | with_reducible apply complete_mem | with_reducible apply updCipher_mem | split)
theorem execSigVerifyDone_mem : ∀ (s : State), Memory.wf s.mem = true → ∀ (t : State), execSigVerifyDone s = Host.Outcome.next t → Memory.wf t.mem = true := by
  intros; unfold execSigVerifyDone at *; rename_i h; injection h with h; subst h; repeat' (first | with_reducible assumption | with_reducible apply complete_mem | with_reducible apply updCipher_mem | with_reducible apply cipherStat_mem | split)
theorem reseed_mem : ∀ (mask : Bool) (s : State), Memory.wf s.mem = true → Memory.wf (reseed mask s).mem = true := by
  intros; unfold reseed; repeat' (first | with_reducible assumption | with_reducible apply updCipher_mem | with_reducible apply cipherFault_mem | with_reducible apply mem_ite)
theorem execCipherHalt_mem : ∀ (mask : Bool) (s : State), Memory.wf s.mem = true → ∀ (t : State), execCipherHalt mask s = Host.Outcome.next t → Memory.wf t.mem = true := by
  intros; unfold execCipherHalt at *; rename_i h; injection h with h; subst h; repeat' (first | with_reducible assumption | with_reducible apply cipherFault_mem | with_reducible apply updCipher_mem | with_reducible apply mem_ite)
theorem execHealthFail_mem : ∀ (s : State), Memory.wf s.mem = true → ∀ (t : State), execHealthFail s = Host.Outcome.next t → Memory.wf t.mem = true := by
  intros; unfold execHealthFail at *; rename_i h; injection h with h; subst h; repeat' (first | with_reducible assumption | with_reducible apply updCipher_mem | split)
theorem execSourceRestartEnd_mem : ∀ (pass : Bool) (s : State), Memory.wf s.mem = true → ∀ (t : State), execSourceRestartEnd pass s = Host.Outcome.next t → Memory.wf t.mem = true := by
  intros; unfold execSourceRestartEnd at *; rename_i h; injection h with h; subst h; repeat' (first | with_reducible assumption | with_reducible apply updCipher_mem | with_reducible apply cipherFault_mem | with_reducible apply mem_ite)
theorem putNbr_mem : ∀ (i : Nat) (e : Nbr) (s : State), Memory.wf s.mem = true → Memory.wf (putNbr i e s).mem = true := by
  intros; simp_all [putNbr, updLink_mem]
theorem updNbr_mem : ∀ (i : Nat) (f : Nbr → Nbr) (s : State), Memory.wf s.mem = true → Memory.wf (updNbr i f s).mem = true := by
  intros; simp_all [updNbr, putNbr_mem]
theorem linkStat_mem : ∀ (f : LinkStats → LinkStats) (s : State), Memory.wf s.mem = true → Memory.wf (linkStat f s).mem = true := by
  intros; simp_all [linkStat, updLink_mem]
theorem updFlight_mem : ∀ (id : Nat) (g : Flight → Flight) (s : State), Memory.wf s.mem = true → Memory.wf (updFlight id g s).mem = true := by
  intros; simp_all [updFlight, updLink_mem]
theorem dropFlight_mem : ∀ (id : Nat) (s : State), Memory.wf s.mem = true → Memory.wf (dropFlight id s).mem = true := by
  intros; simp_all [dropFlight, updLink_mem]
theorem releaseCore_mem : ∀ (s : State), Memory.wf s.mem = true → Memory.wf (releaseCore s).mem = true := by
  intros; simp_all [releaseCore]
theorem endAppSleep_mem : ∀ (result : Nat) (s : State), Memory.wf s.mem = true → Memory.wf (endAppSleep result s).mem = true := by
  intros; unfold endAppSleep; repeat' (first | with_reducible assumption | with_reducible apply updCore_mem | with_reducible apply updPwr_mem | split)
theorem deliverWake_mem : ∀ (s : State), Memory.wf s.mem = true → Memory.wf (deliverWake s).mem = true := by
  intros; unfold deliverWake; repeat' (first | with_reducible assumption | with_reducible apply endAppSleep_mem | with_reducible apply releaseCore_mem | with_reducible apply updPwr_mem | with_reducible apply mem_ite)
theorem latchSet_mem : ∀ (n : Nat) (s : State), Memory.wf s.mem = true → Memory.wf (latchSet n s).mem = true := by
  intros; unfold latchSet; repeat' (first | with_reducible assumption | with_reducible apply updPwr_mem | with_reducible apply deliverWake_mem | with_reducible apply mem_ite)
theorem appTimer_mem : ∀ (s : State), Memory.wf s.mem = true → Memory.wf (appTimer s).mem = true := by
  intros; unfold appTimer; repeat' (first | with_reducible assumption | with_reducible apply updPwr_mem | with_reducible apply latchSet_mem | split)
theorem canaryStat_mem : ∀ (f : CanaryStats → CanaryStats) (s : State), Memory.wf s.mem = true → Memory.wf (canaryStat f s).mem = true := by
  intros; simp_all [canaryStat, updCanary_mem]
theorem canaryBlank_mem : ∀ (wake : Bool) (s : State), Memory.wf s.mem = true → Memory.wf (canaryBlank wake s).mem = true := by
  intros; simp_all [canaryBlank, updCanary_mem]
theorem canarySettle_mem : ∀ (s : State), Memory.wf s.mem = true → Memory.wf (canarySettle s).mem = true := by
  intros; unfold canarySettle; repeat' (first | with_reducible assumption | with_reducible apply updCanary_mem | split)
theorem canaryStateGet_mem : ∀ (a : Ctx) (a_1 : List Byte) (a_2 : State), Memory.wf a_2.mem = true → Memory.wf (canaryStateGet a a_1 a_2).s.mem = true := by
  intros; simp_all [canaryStateGet, okR_mem]
theorem canaryGet_mem : ∀ (a : Ctx) (a_1 : List Byte) (a_2 : State), Memory.wf a_2.mem = true → Memory.wf (canaryGet a a_1 a_2).s.mem = true := by
  intros; simp_all [canaryGet, okR_mem]
theorem canarySet_mem : ∀ (a : Ctx) (a_1 : List Byte) (a_2 : State), Memory.wf a_2.mem = true → Memory.wf (canarySet a a_1 a_2).s.mem = true := by
  intros; unfold canarySet; repeat' (first | with_reducible assumption | with_reducible apply guardR_mem | with_reducible apply updCanary_mem | with_reducible apply okR_mem | with_reducible intro _ | split)
theorem canaryStatsGet_mem : ∀ (a : Ctx) (a_1 : List Byte) (a_2 : State), Memory.wf a_2.mem = true → Memory.wf (canaryStatsGet a a_1 a_2).s.mem = true := by
  intros; unfold canaryStatsGet; repeat' (first | with_reducible assumption | with_reducible apply guardR_mem | with_reducible apply okR_mem | with_reducible apply canaryStat_mem | with_reducible intro _ | split)
theorem execCanaryStateGet_mem : ∀ (v : Srv) (s : State), Memory.wf s.mem = true → ∀ (t : State), execCanaryStateGet v s = Host.Outcome.next t → Memory.wf t.mem = true := by
  intros; unfold execCanaryStateGet at *; rename_i h; injection h with h; subst h; repeat' (first | with_reducible assumption | with_reducible apply serve_mem | with_reducible apply canaryStateGet_mem)
theorem execCanarySet_mem : ∀ (v : Srv) (s : State), Memory.wf s.mem = true → ∀ (t : State), execCanarySet v s = Host.Outcome.next t → Memory.wf t.mem = true := by
  intros; unfold execCanarySet at *; rename_i h; injection h with h; subst h; repeat' (first | with_reducible assumption | with_reducible apply serve_mem | with_reducible apply canarySet_mem)
theorem execCanaryGet_mem : ∀ (v : Srv) (s : State), Memory.wf s.mem = true → ∀ (t : State), execCanaryGet v s = Host.Outcome.next t → Memory.wf t.mem = true := by
  intros; unfold execCanaryGet at *; rename_i h; injection h with h; subst h; repeat' (first | with_reducible assumption | with_reducible apply serve_mem | with_reducible apply canaryGet_mem)
theorem execCanaryStatsGet_mem : ∀ (v : Srv) (s : State), Memory.wf s.mem = true → ∀ (t : State), execCanaryStatsGet v s = Host.Outcome.next t → Memory.wf t.mem = true := by
  intros; unfold execCanaryStatsGet at *; rename_i h; injection h with h; subst h; repeat' (first | with_reducible assumption | with_reducible apply serve_mem | with_reducible apply canaryStatsGet_mem)
theorem execPreambleSeen_mem : ∀ (s : State), Memory.wf s.mem = true → ∀ (t : State), execPreambleSeen s = Host.Outcome.next t → Memory.wf t.mem = true := by
  intros; unfold execPreambleSeen at *; rename_i h; injection h with h; subst h; repeat' (first | with_reducible assumption | with_reducible apply canaryStat_mem | with_reducible apply updCanary_mem | split)
theorem decodeFail_mem : ∀ (s : State), Memory.wf s.mem = true → Memory.wf (decodeFail s).mem = true := by
  intros; simp_all [decodeFail, canaryStat_mem]
theorem execManchesterViolation_mem : ∀ (s : State), Memory.wf s.mem = true → ∀ (t : State), execManchesterViolation s = Host.Outcome.next t → Memory.wf t.mem = true := by
  intros; unfold execManchesterViolation at *; rename_i h; injection h with h; subst h; repeat' (first | with_reducible assumption | with_reducible apply updCanary_mem | with_reducible apply decodeFail_mem | split)
theorem execCanarySequenceEnd_mem : ∀ (r : WakeSeq) (s : State), Memory.wf s.mem = true → ∀ (t : State), execCanarySequenceEnd r s = Host.Outcome.next t → Memory.wf t.mem = true := by
  intros; unfold execCanarySequenceEnd at *; rename_i h; injection h with h; subst h; repeat' (first | with_reducible assumption | with_reducible apply updCanary_mem | with_reducible apply decodeFail_mem | with_reducible apply canaryStat_mem | with_reducible apply latchSet_mem | with_reducible apply mem_ite)
theorem execCanaryBlankEnd_mem : ∀ (s : State), Memory.wf s.mem = true → ∀ (t : State), execCanaryBlankEnd s = Host.Outcome.next t → Memory.wf t.mem = true := by
  intros; unfold execCanaryBlankEnd at *; rename_i h; injection h with h; subst h; repeat' (first | with_reducible assumption | with_reducible apply updCanary_mem | split)
theorem wakeDone_mem : ∀ (w : WakeSend) (st det us : Nat) (s : State), Memory.wf s.mem = true → Memory.wf (wakeDone w st det us s).mem = true := by
  intros; unfold wakeDone; repeat' (first | with_reducible assumption | with_reducible apply updCanary_mem | with_reducible apply canaryStat_mem | with_reducible apply complete_mem | split)
theorem updShot_mem : ∀ (n : Nat) (f : Shot → Shot) (s : State), Memory.wf s.mem = true → Memory.wf (updShot n f s).mem = true := by
  intros; simp_all [updShot]
theorem shotEnd_mem : ∀ (n : Nat) (applied : Bool) (st det swap us est edet : Nat) (s : State), Memory.wf s.mem = true → Memory.wf (shotEnd n applied st det swap us est edet s).mem = true := by
  intros; simp_all [shotEnd, updShot_mem, complete_mem]
theorem shotDropped_mem : ∀ (n : Nat) (s : State), Memory.wf s.mem = true → Memory.wf (shotDropped n s).mem = true := by
  intros; simp_all [shotDropped, shotEnd_mem]
theorem shotFalls_mem : ∀ (n : Nat) (s : State), Memory.wf s.mem = true → Memory.wf (shotFalls n s).mem = true := by
  intros; unfold shotFalls at *; (repeat' split) <;> simp_all [latchSet_mem, updShot_mem]
theorem shotsFall_mem : ∀ (trigger : Nat) (s : State), Memory.wf s.mem = true → Memory.wf (shotsFall trigger s).mem = true := by
  intro t s h; refine mem_foldl _ (fun a x ha => ?_) _ _ h
  dsimp only; split
  · exact shotFalls_mem _ _ ha
  · exact ha
theorem shotsUntrusted_mem : ∀ (s : State), Memory.wf s.mem = true → Memory.wf (shotsUntrusted s).mem = true := by
  intro s h; refine mem_foldl _ (fun a x ha => ?_) _ _ h
  dsimp only; split
  · exact shotEnd_mem _ _ _ _ _ _ _ _ _ ha
  · exact ha
theorem enterHist_mem : ∀ (k : ResetKind) (s : State), Memory.wf s.mem = true → Memory.wf (enterHist k s).mem = true := by
  intros; simp_all [enterHist, updBoot_mem]
theorem refLost_mem : ∀ (s : State), Memory.wf s.mem = true → Memory.wf (refLost s).mem = true := by
  intros; simp_all [refLost, updClk_mem]
theorem portCutOne_mem : ∀ (b : Nat) (l : List Byte) (s : State), Memory.wf s.mem = true → Memory.wf (portCutOne b l s).mem = true := by
  intros; simp_all [portCutOne, fresh_mem, freshBytes_mem]
theorem portCut_mem : ∀ (net : Bool) (s : State), Memory.wf s.mem = true → Memory.wf (portCut net s).mem = true := by
  intros; unfold portCut; repeat' (first | with_reducible assumption | with_reducible apply portCutOne_mem | split)
theorem appUnitsReset_mem : ∀ (s : State), Memory.wf s.mem = true → Memory.wf (appUnitsReset s).mem = true := by
  intros; simp_all [appUnitsReset]
theorem bigLoss_mem : ∀ (s0 : State), Memory.wf s0.mem = true → Memory.wf (bigLoss s0).mem = true := by
  intro s h; exact tkeep_wf _ _ (flashReset_mem _ _ (appUnitsReset_mem _ (portCut_mem _ _ (refLost_mem _ h))))
theorem wakeLoss_mem : ∀ (s0 : State), Memory.wf s0.mem = true → Memory.wf (wakeLoss s0).mem = true := by
  intro s h; exact tkeep_wf _ _ (flashReset_mem _ _ (appUnitsReset_mem _ (portCut_mem _ _ h)))
theorem optionLoad_mem : ∀ (s : State), Memory.wf s.mem = true → Memory.wf (optionLoad s).mem = true := by
  intros; simp_all [optionLoad]
theorem beginStart_mem : ∀ (s : State), Memory.wf s.mem = true → Memory.wf (beginStart s).mem = true := by
  intros; unfold beginStart; repeat' (first | with_reducible assumption | with_reducible apply updBoot_mem | with_reducible apply optionLoad_mem | split)
theorem lastWake_mem : ∀ (s : State), Memory.wf s.mem = true → Memory.wf (lastWake s).mem = true := by
  intros; simp_all [lastWake, updPwr_mem]
theorem takeReset_mem : ∀ (k : ResetKind) (act : Bool) (s0 : State), Memory.wf s0.mem = true → Memory.wf (takeReset k act s0).mem = true := by
  intros; unfold takeReset; repeat' (first | with_reducible assumption | with_reducible apply enterHist_mem | with_reducible apply updRtc_mem | with_reducible apply updBoot_mem | with_reducible apply bigLoss_mem | with_reducible apply beginStart_mem | with_reducible apply mem_ite)
theorem dropAppShot_mem : ∀ (s : State) (n : Nat), Memory.wf s.mem = true → Memory.wf (dropAppShot s n).mem = true := by
  intros; unfold dropAppShot; repeat' (first | with_reducible assumption | with_reducible apply updShot_mem | with_reducible apply shotDropped_mem | with_reducible apply mem_ite | split)
theorem coreReset_mem : ∀ (code : Nat) (s : State), Memory.wf s.mem = true → Memory.wf (coreReset code s).mem = true := by
  intro c s h; unfold coreReset; split
  · exact h
  · exact appUnitsReset_mem _ (portCut_mem _ _ (mem_foldl _ (fun a x ha => dropAppShot_mem _ _ ha) _ _ h))
theorem updSe_mem : ∀ (n : Nat) (f : Se → Se) (s : State), Memory.wf s.mem = true → Memory.wf (updSe n f s).mem = true := by
  intros; unfold updSe; repeat' (first | with_reducible assumption | split)
theorem execSeGo_mem : ∀ (n : Nat) (s : State), Memory.wf s.mem = true → ∀ (t : State), execSeGo n s = Host.Outcome.next t → Memory.wf t.mem = true := by
  intros; unfold execSeGo at *; rename_i h; injection h with h; subst h; repeat' (first | with_reducible assumption | with_reducible apply updSe_mem | split)
theorem execSeAbort_mem : ∀ (n : Nat) (s : State), Memory.wf s.mem = true → ∀ (t : State), execSeAbort n s = Host.Outcome.next t → Memory.wf t.mem = true := by
  intros; unfold execSeAbort at *; rename_i h; injection h with h; subst h; repeat' (first | with_reducible assumption | with_reducible apply updSe_mem | split)
theorem execSeBusclr_mem : ∀ (n : Nat) (s : State), Memory.wf s.mem = true → ∀ (t : State), execSeBusclr n s = Host.Outcome.next t → Memory.wf t.mem = true := by
  intros; unfold execSeBusclr at *; rename_i h; injection h with h; subst h; repeat' (first | with_reducible assumption | with_reducible apply updSe_mem | split)
theorem execSeDataWrite_mem : ∀ (n : Nat) (v : Word) (s : State), Memory.wf s.mem = true → ∀ (t : State), execSeDataWrite n v s = Host.Outcome.next t → Memory.wf t.mem = true := by
  intros; unfold execSeDataWrite at *; rename_i h; injection h with h; subst h; repeat' (first | with_reducible assumption | with_reducible apply updSe_mem | split)
theorem execSeDataRead_mem : ∀ (n : Nat) (s : State), Memory.wf s.mem = true → ∀ (t : State), execSeDataRead n s = Host.Outcome.next t → Memory.wf t.mem = true := by
  intros; unfold execSeDataRead at *; rename_i h; injection h with h; subst h; repeat' (first | with_reducible assumption | with_reducible apply updSe_mem | split)
theorem execSeConfigWrite_mem : ∀ (n : Nat) (reg : SeReg) (v : Word) (s : State), Memory.wf s.mem = true → ∀ (t : State), execSeConfigWrite n reg v s = Host.Outcome.next t → Memory.wf t.mem = true := by
  intros; unfold execSeConfigWrite at *; rename_i h; injection h with h; subst h; repeat' (first | with_reducible assumption | with_reducible apply updSe_mem | split)
theorem execSeTransferEnd_mem : ∀ (n : Nat) (r : SeEnd) (s : State), Memory.wf s.mem = true → ∀ (t : State), execSeTransferEnd n r s = Host.Outcome.next t → Memory.wf t.mem = true := by
  intros; unfold execSeTransferEnd at *; rename_i h; injection h with h; subst h; repeat' (first | with_reducible assumption | with_reducible apply updSe_mem)
theorem execSeI2cTimeout_mem : ∀ (n : Nat) (s : State), Memory.wf s.mem = true → ∀ (t : State), execSeI2cTimeout n s = Host.Outcome.next t → Memory.wf t.mem = true := by
  intros; unfold execSeI2cTimeout at *; rename_i h; injection h with h; subst h; repeat' (first | with_reducible assumption | with_reducible apply updSe_mem)
theorem execSeUartRxByte_mem : ∀ (n : Nat) (b : Byte) (e : UartErr) (s : State), Memory.wf s.mem = true → ∀ (t : State), execSeUartRxByte n b e s = Host.Outcome.next t → Memory.wf t.mem = true := by
  intros; unfold execSeUartRxByte at *; rename_i h; injection h with h; subst h; repeat' (first | with_reducible assumption | with_reducible apply updSe_mem)
theorem execSeUartTxByte_mem : ∀ (n : Nat) (s : State), Memory.wf s.mem = true → ∀ (t : State), execSeUartTxByte n s = Host.Outcome.next t → Memory.wf t.mem = true := by
  intros; unfold execSeUartTxByte at *; rename_i h; injection h with h; subst h; repeat' (first | with_reducible assumption | with_reducible apply updSe_mem)
theorem execCtsChange_mem : ∀ (n : Nat) (level : Bool) (s : State), Memory.wf s.mem = true → ∀ (t : State), execCtsChange n level s = Host.Outcome.next t → Memory.wf t.mem = true := by
  intros; unfold execCtsChange at *; rename_i h; injection h with h; subst h; repeat' (first | with_reducible assumption | with_reducible apply updSe_mem)
theorem updAdc_mem : ∀ (f : Adc → Adc) (s : State), Memory.wf s.mem = true → Memory.wf (updAdc f s).mem = true := by
  intros; simp_all [updAdc]
theorem adcStart_mem : ∀ (v : Word) (s : State), Memory.wf s.mem = true → Memory.wf (adcStart v s).mem = true := by
  intros; unfold adcStart; repeat' (first | with_reducible assumption | with_reducible apply updAdc_mem | split)
theorem execAdcStart_mem : ∀ (v : Word) (s : State), Memory.wf s.mem = true → ∀ (t : State), execAdcStart v s = Host.Outcome.next t → Memory.wf t.mem = true := by
  intros; unfold execAdcStart at *; rename_i h; injection h with h; subst h; repeat' (first | with_reducible assumption | with_reducible apply adcStart_mem | split)
theorem execAdcSettled_mem : ∀ (s : State), Memory.wf s.mem = true → ∀ (t : State), execAdcSettled s = Host.Outcome.next t → Memory.wf t.mem = true := by
  intros; unfold execAdcSettled at *; rename_i h; injection h with h; subst h; repeat' (first | with_reducible assumption | with_reducible apply updAdc_mem)
theorem execAdcConversionEnd_mem : ∀ (volt vref : Nat) (s : State), Memory.wf s.mem = true → ∀ (t : State), execAdcConversionEnd volt vref s = Host.Outcome.next t → Memory.wf t.mem = true := by
  intros; unfold execAdcConversionEnd at *; rename_i h; injection h with h; subst h; repeat' (first | with_reducible assumption | with_reducible apply updAdc_mem | split)
theorem execAdcDataRead_mem : ∀ (s : State), Memory.wf s.mem = true → ∀ (t : State), execAdcDataRead s = Host.Outcome.next t → Memory.wf t.mem = true := by
  intros; unfold execAdcDataRead at *; rename_i h; injection h with h; subst h; repeat' (first | with_reducible assumption | with_reducible apply updAdc_mem | split)
theorem updTmr_mem : ∀ (n : Nat) (f : Tmr → Tmr) (s : State), Memory.wf s.mem = true → Memory.wf (updTmr n f s).mem = true := by
  intros; simp_all [updTmr]
theorem tmrSync_mem : ∀ (v : Word) (s : State), Memory.wf s.mem = true → Memory.wf (tmrSync v s).mem = true := by
  intros; simp_all [tmrSync]
theorem adcTimer_mem : ∀ (n : Nat) (s : State), Memory.wf s.mem = true → Memory.wf (adcTimer n s).mem = true := by
  intros; unfold adcTimer; repeat' (first | with_reducible assumption | with_reducible apply updAdc_mem | split)
theorem execTmrSync_mem : ∀ (v : Word) (s : State), Memory.wf s.mem = true → ∀ (t : State), execTmrSync v s = Host.Outcome.next t → Memory.wf t.mem = true := by
  intros; unfold execTmrSync at *; rename_i h; injection h with h; subst h; repeat' (first | with_reducible assumption | with_reducible apply tmrSync_mem | split)
theorem execTimerMatch_mem : ∀ (n : Nat) (s : State), Memory.wf s.mem = true → ∀ (t : State), execTimerMatch n s = Host.Outcome.next t → Memory.wf t.mem = true := by
  intros; unfold execTimerMatch at *; rename_i h; injection h with h; subst h; repeat' (first | with_reducible assumption | with_reducible apply adcTimer_mem | with_reducible apply updTmr_mem | with_reducible apply mem_ite)
theorem execTimerWrap_mem : ∀ (n : Nat) (s : State), Memory.wf s.mem = true → ∀ (t : State), execTimerWrap n s = Host.Outcome.next t → Memory.wf t.mem = true := by
  intros; unfold execTimerWrap at *; rename_i h; injection h with h; subst h; repeat' (first | with_reducible assumption | with_reducible apply updTmr_mem | with_reducible apply adcTimer_mem | with_reducible apply mem_ite)
theorem execTimerCapture_mem : ∀ (n : Nat) (rising : Bool) (count : Nat) (s : State), Memory.wf s.mem = true → ∀ (t : State), execTimerCapture n rising count s = Host.Outcome.next t → Memory.wf t.mem = true := by
  intros; unfold execTimerCapture at *; rename_i h; injection h with h; subst h; repeat' (first | with_reducible assumption | with_reducible apply updTmr_mem | split)
theorem updWdg_mem : ∀ (f : Wdg → Wdg) (s : State), Memory.wf s.mem = true → Memory.wf (updWdg f s).mem = true := by
  intros; simp_all [updWdg]
theorem execWdgStart_mem : ∀ (v : Word) (s : State), Memory.wf s.mem = true → ∀ (t : State), execWdgStart v s = Host.Outcome.next t → Memory.wf t.mem = true := by
  intros; unfold execWdgStart at *; rename_i h; injection h with h; subst h; repeat' (first | with_reducible assumption | with_reducible apply updWdg_mem | split)
theorem execWdgFeed_mem : ∀ (v : Word) (s : State), Memory.wf s.mem = true → ∀ (t : State), execWdgFeed v s = Host.Outcome.next t → Memory.wf t.mem = true := by
  intros; unfold execWdgFeed at *; rename_i h; injection h with h; subst h; repeat' (first | with_reducible assumption | with_reducible apply updWdg_mem | split)
theorem execWdgReload_mem : ∀ (s : State), Memory.wf s.mem = true → ∀ (t : State), execWdgReload s = Host.Outcome.next t → Memory.wf t.mem = true := by
  intros; unfold execWdgReload at *; rename_i h; injection h with h; subst h; repeat' (first | with_reducible assumption | with_reducible apply updWdg_mem)
theorem execWdgWarn_mem : ∀ (s : State), Memory.wf s.mem = true → ∀ (t : State), execWdgWarn s = Host.Outcome.next t → Memory.wf t.mem = true := by
  intros; unfold execWdgWarn at *; rename_i h; injection h with h; subst h; repeat' (first | with_reducible assumption | with_reducible apply updWdg_mem | split)
theorem execWdtExpire_mem : ∀ (s : State), Memory.wf s.mem = true → ∀ (t : State), execWdtExpire s = Host.Outcome.next t → Memory.wf t.mem = true := by
  intros; unfold execWdtExpire at *; rename_i h; injection h with h; subst h; repeat' (first | with_reducible assumption | with_reducible apply takeReset_mem | with_reducible apply coreReset_mem | split)
theorem execGpioEdge_mem : ∀ (pin : Nat) (rising held : Bool) (s : State), Memory.wf s.mem = true → ∀ (t : State), execGpioEdge pin rising held s = Host.Outcome.next t → Memory.wf t.mem = true := by
  intros; unfold execGpioEdge at *; rename_i h; injection h with h; subst h; repeat' (first | with_reducible assumption | with_reducible apply latchSet_mem | with_reducible apply mem_ite)
theorem execWakePinEdge_mem : ∀ (s : State), Memory.wf s.mem = true → ∀ (t : State), execWakePinEdge s = Host.Outcome.next t → Memory.wf t.mem = true := by
  intros; unfold execWakePinEdge at *; rename_i h; injection h with h; subst h; repeat' (first | with_reducible assumption | with_reducible apply latchSet_mem | split)
theorem execVioLoss_mem : ∀ (s : State), Memory.wf s.mem = true → ∀ (t : State), execVioLoss s = Host.Outcome.next t → Memory.wf t.mem = true := by
  intros; unfold execVioLoss at *; rename_i h; injection h with h; subst h; repeat' (first | with_reducible assumption | with_reducible apply updBoot_mem)
theorem execVioReturn_mem : ∀ (s : State), Memory.wf s.mem = true → ∀ (t : State), execVioReturn s = Host.Outcome.next t → Memory.wf t.mem = true := by
  intros; unfold execVioReturn at *; rename_i h; injection h with h; subst h; repeat' (first | with_reducible assumption | with_reducible apply updBoot_mem)
theorem rtcEvent_mem : ∀ (alarm : Bool) (code secs : Nat) (s : State), Memory.wf s.mem = true → Memory.wf (rtcEvent alarm code secs s).mem = true := by
  intros; unfold rtcEvent; repeat' (first | with_reducible assumption | with_reducible apply raise_mem | split)
theorem rtcTell_mem : ∀ (alarm : Bool) (code secs : Nat) (s : State), Memory.wf s.mem = true → Memory.wf (rtcTell alarm code secs s).mem = true := by
  intros; unfold rtcTell; repeat' (first | with_reducible assumption | with_reducible apply rtcEvent_mem | with_reducible apply updRtc_mem | split)
theorem rtcTellDue_mem : ∀ (s : State), Memory.wf s.mem = true → Memory.wf (rtcTellDue s).mem = true := by
  intro s h; exact mem_foldl _ (fun a x ha => rtcEvent_mem _ _ _ _ ha) _ _ (updRtc_mem _ _ h)
theorem updateTell_mem : ∀ (status : Nat) (s : State), Memory.wf s.mem = true → Memory.wf (updateTell status s).mem = true := by
  intros; unfold updateTell; repeat' (first | with_reducible assumption | with_reducible apply raise_mem | with_reducible apply updUpd_mem | with_reducible apply mem_ite)
theorem disarmUntrusted_mem : ∀ (s : State), Memory.wf s.mem = true → Memory.wf (disarmUntrusted s).mem = true := by
  intros; unfold disarmUntrusted; repeat' (first | with_reducible assumption | with_reducible apply updateTell_mem | with_reducible apply updUpd_mem | with_reducible apply updRtc_mem | split)
theorem activate_mem : ∀ (s : State), Memory.wf s.mem = true → Memory.wf (activate s).mem = true := by
  intros; unfold activate; repeat' (first | with_reducible assumption | with_reducible apply updRtc_mem | with_reducible apply updPwr_mem | with_reducible apply takeReset_mem | with_reducible apply lastWake_mem | with_reducible apply mem_ite)
theorem setOsf_mem : ∀ (s : State), Memory.wf s.mem = true → Memory.wf (setOsf s).mem = true := by
  intros; unfold setOsf; repeat' (first | with_reducible assumption | with_reducible apply disarmUntrusted_mem | with_reducible apply shotsUntrusted_mem | with_reducible apply updRtc_mem | with_reducible apply rtcTell_mem | split)
theorem alarmMatch_mem : ∀ (s : State) (n : Nat), Memory.wf s.mem = true → Memory.wf (alarmMatch s n).mem = true := by
  intros; unfold alarmMatch; repeat' (first | with_reducible assumption | with_reducible apply updRtc_mem | with_reducible apply rtcTell_mem | with_reducible apply latchSet_mem | with_reducible apply mem_ite)
theorem alarmMatches_mem : ∀ (s : State), Memory.wf s.mem = true → Memory.wf (alarmMatches s).mem = true := by
  intros; simp_all [alarmMatches, alarmMatch_mem]
theorem rolledOver_mem : ∀ (wrapped : Bool) (s : State), Memory.wf s.mem = true → Memory.wf (rolledOver wrapped s).mem = true := by
  intros; unfold rolledOver; repeat' (first | with_reducible assumption | with_reducible apply shotsFall_mem | with_reducible apply alarmMatches_mem | with_reducible apply rtcTell_mem | with_reducible apply updRtc_mem | with_reducible apply activate_mem | split)
theorem committed_mem : ∀ (f : BitVec 8) (old : Nat) (s : State), Memory.wf s.mem = true → Memory.wf (committed f old s).mem = true := by
  intros; unfold committed; repeat' (first | with_reducible assumption | with_reducible apply updRtc_mem | with_reducible apply shotsFall_mem | with_reducible apply alarmMatches_mem | with_reducible apply activate_mem | with_reducible apply disarmUntrusted_mem | with_reducible apply mem_ite | split)
theorem updRtcCore_mem : ∀ (net : Bool) (f : RtcCore → RtcCore) (s : State), Memory.wf s.mem = true → Memory.wf (updRtcCore net f s).mem = true := by
  intros; simp_all [updRtcCore, updRtc_mem]
theorem commitTick_mem : ∀ (s : State), Memory.wf s.mem = true → Memory.wf (commitTick s).mem = true := by
  intros; unfold commitTick; repeat' (first | with_reducible assumption | with_reducible apply updRtc_mem | with_reducible apply updRtcCore_mem | with_reducible apply rtcTell_mem | with_reducible apply committed_mem | with_reducible apply rolledOver_mem | with_reducible apply mem_ite | with_reducible apply mem_ite_fst | with_reducible apply mem_ite_res)
theorem rtcRead_mem : ∀ (net : Bool) (k : Nat) (s : State), Memory.wf s.mem = true → Memory.wf (rtcRead net k s).fst.mem = true := by
  intros; unfold rtcRead; repeat' (first | with_reducible assumption | with_reducible apply updRtcCore_mem | with_reducible apply mem_ite)
theorem rtcStage_mem : ∀ (net : Bool) (k v : Nat) (s : State), Memory.wf s.mem = true → Memory.wf (rtcStage net k v s).mem = true := by
  intros; unfold rtcStage; repeat' (first | with_reducible assumption | with_reducible apply updRtcCore_mem | split)
theorem rtcSet_mem : ∀ (net : Bool) (v : Nat) (s : State), Memory.wf s.mem = true → Memory.wf (rtcSet net v s).mem = true := by
  intros; unfold rtcSet; repeat' (first | with_reducible assumption | with_reducible apply updRtcCore_mem | split)
theorem rtcStatWrite_mem : ∀ (net : Bool) (v : Word) (s : State), Memory.wf s.mem = true → Memory.wf (rtcStatWrite net v s).mem = true := by
  intros; simp_all [rtcStatWrite, updRtcCore_mem, updRtc_mem]
theorem rtcStateGet_mem : ∀ (a : Ctx) (a_1 : List Byte) (a_2 : State), Memory.wf a_2.mem = true → Memory.wf (rtcStateGet a a_1 a_2).s.mem = true := by
  intros; simp_all [rtcStateGet, okR_mem]
theorem rtcTimeGet_mem : ∀ (a : Ctx) (a_1 : List Byte) (a_2 : State), Memory.wf a_2.mem = true → Memory.wf (rtcTimeGet a a_1 a_2).s.mem = true := by
  intros; simp_all [rtcTimeGet, okR_mem]
theorem rtcTimeSet_mem : ∀ (a : Ctx) (a_1 : List Byte) (a_2 : State), Memory.wf a_2.mem = true → Memory.wf (rtcTimeSet a a_1 a_2).s.mem = true := by
  intros; unfold rtcTimeSet; dsimp only; repeat' (first | with_reducible assumption | with_reducible apply guardR_mem | with_reducible apply commitTick_mem | with_reducible apply updRtcCore_mem | with_reducible apply badR_mem | with_reducible apply okR_mem | with_reducible intro _ | split)
theorem rtcAlarmSet_mem : ∀ (a : Ctx) (a_1 : List Byte) (a_2 : State), Memory.wf a_2.mem = true → Memory.wf (rtcAlarmSet a a_1 a_2).s.mem = true := by
  intros; unfold rtcAlarmSet; repeat' (first | with_reducible assumption | with_reducible apply guardR_mem | with_reducible apply updRtc_mem | with_reducible apply okR_mem | with_reducible intro _)
theorem rtcAlarmGet_mem : ∀ (a : Ctx) (a_1 : List Byte) (a_2 : State), Memory.wf a_2.mem = true → Memory.wf (rtcAlarmGet a a_1 a_2).s.mem = true := by
  intros; simp_all [rtcAlarmGet, guardR_mem, okR_mem]
theorem rtcFlagsClear_mem : ∀ (a : Ctx) (a_1 : List Byte) (a_2 : State), Memory.wf a_2.mem = true → Memory.wf (rtcFlagsClear a a_1 a_2).s.mem = true := by
  intros; unfold rtcFlagsClear; repeat' (first | with_reducible assumption | with_reducible apply guardR_mem | with_reducible apply okR_mem | with_reducible apply updRtc_mem | with_reducible intro _)
theorem timeSync_mem : ∀ (a : Ctx) (a_1 : List Byte) (a_2 : State), Memory.wf a_2.mem = true → Memory.wf (timeSync a a_1 a_2).s.mem = true := by
  intros; unfold timeSync; repeat' (first | with_reducible assumption | with_reducible apply errR_mem | with_reducible apply badR_mem | with_reducible apply commitTick_mem | with_reducible apply updRtcCore_mem | with_reducible apply okR_mem | with_reducible apply mem_ite_res)
theorem execTimeSync_mem : ∀ (v : Srv) (s : State), Memory.wf s.mem = true → ∀ (t : State), execTimeSync v s = Host.Outcome.next t → Memory.wf t.mem = true := by
  intros; unfold execTimeSync at *; rename_i h; injection h with h; subst h; repeat' (first | with_reducible assumption | with_reducible apply serve_mem | with_reducible apply timeSync_mem)
theorem execRtcStateGet_mem : ∀ (v : Srv) (s : State), Memory.wf s.mem = true → ∀ (t : State), execRtcStateGet v s = Host.Outcome.next t → Memory.wf t.mem = true := by
  intros; unfold execRtcStateGet at *; rename_i h; injection h with h; subst h; repeat' (first | with_reducible assumption | with_reducible apply serve_mem | with_reducible apply rtcStateGet_mem)
theorem execRtcTimeGet_mem : ∀ (v : Srv) (s : State), Memory.wf s.mem = true → ∀ (t : State), execRtcTimeGet v s = Host.Outcome.next t → Memory.wf t.mem = true := by
  intros; unfold execRtcTimeGet at *; rename_i h; injection h with h; subst h; repeat' (first | with_reducible assumption | with_reducible apply serve_mem | with_reducible apply rtcTimeGet_mem)
theorem execRtcTimeSet_mem : ∀ (v : Srv) (s : State), Memory.wf s.mem = true → ∀ (t : State), execRtcTimeSet v s = Host.Outcome.next t → Memory.wf t.mem = true := by
  intros; unfold execRtcTimeSet at *; rename_i h; injection h with h; subst h; repeat' (first | with_reducible assumption | with_reducible apply serve_mem | with_reducible apply rtcTimeSet_mem)
theorem execRtcAlarmSet_mem : ∀ (v : Srv) (s : State), Memory.wf s.mem = true → ∀ (t : State), execRtcAlarmSet v s = Host.Outcome.next t → Memory.wf t.mem = true := by
  intros; unfold execRtcAlarmSet at *; rename_i h; injection h with h; subst h; repeat' (first | with_reducible assumption | with_reducible apply serve_mem | with_reducible apply rtcAlarmSet_mem)
theorem execRtcAlarmGet_mem : ∀ (v : Srv) (s : State), Memory.wf s.mem = true → ∀ (t : State), execRtcAlarmGet v s = Host.Outcome.next t → Memory.wf t.mem = true := by
  intros; unfold execRtcAlarmGet at *; rename_i h; injection h with h; subst h; repeat' (first | with_reducible assumption | with_reducible apply serve_mem | with_reducible apply rtcAlarmGet_mem)
theorem execRtcFlagsClear_mem : ∀ (v : Srv) (s : State), Memory.wf s.mem = true → ∀ (t : State), execRtcFlagsClear v s = Host.Outcome.next t → Memory.wf t.mem = true := by
  intros; unfold execRtcFlagsClear at *; rename_i h; injection h with h; subst h; repeat' (first | with_reducible assumption | with_reducible apply serve_mem | with_reducible apply rtcFlagsClear_mem)
theorem execRtcTimeRead_mem : ∀ (net : Bool) (k : Nat) (s : State), Memory.wf s.mem = true → ∀ (t : State), execRtcTimeRead net k s = Host.Outcome.next t → Memory.wf t.mem = true := by
  intros; unfold execRtcTimeRead at *; rename_i h; injection h with h; subst h; repeat' (first | with_reducible assumption | with_reducible apply rtcRead_mem | split)
theorem execRtcSet_mem : ∀ (net : Bool) (v : Word) (s : State), Memory.wf s.mem = true → ∀ (t : State), execRtcSet net v s = Host.Outcome.next t → Memory.wf t.mem = true := by
  intros; unfold execRtcSet at *; rename_i h; injection h with h; subst h; repeat' (first | with_reducible assumption | with_reducible apply rtcSet_mem | split)
theorem rtcThaw_mem : ∀ (net : Bool) (v : Word) (s : State), Memory.wf s.mem = true → Memory.wf (rtcThaw net v s).mem = true := by
  intros; unfold rtcThaw; repeat' (first | with_reducible assumption | with_reducible apply updRtcCore_mem | split)
theorem execRtcThaw_mem : ∀ (net : Bool) (v : Word) (s : State), Memory.wf s.mem = true → ∀ (t : State), execRtcThaw net v s = Host.Outcome.next t → Memory.wf t.mem = true := by
  intros; unfold execRtcThaw at *; rename_i h; injection h with h; subst h; repeat' (first | with_reducible assumption | with_reducible apply rtcThaw_mem | split)
theorem execRtcCommit_mem : ∀ (s : State), Memory.wf s.mem = true → ∀ (t : State), execRtcCommit s = Host.Outcome.next t → Memory.wf t.mem = true := by
  intros; unfold execRtcCommit at *; rename_i h; injection h with h; subst h; repeat' (first | with_reducible assumption | with_reducible apply commitTick_mem | split)
theorem execRtcSecondRollover_mem : ∀ (s : State), Memory.wf s.mem = true → ∀ (t : State), execRtcSecondRollover s = Host.Outcome.next t → Memory.wf t.mem = true := by
  intros; unfold execRtcSecondRollover at *; rename_i h; injection h with h; subst h; repeat' (first | with_reducible assumption | with_reducible apply rolledOver_mem | with_reducible apply updRtc_mem | split)
theorem slowStops_mem : ∀ (s : State), Memory.wf s.mem = true → Memory.wf (slowStops s).mem = true := by
  intros; unfold slowStops; repeat' (first | with_reducible assumption | with_reducible apply setOsf_mem | with_reducible apply updClk_mem | with_reducible apply updRtc_mem)
theorem execOscStop_mem : ∀ (s : State), Memory.wf s.mem = true → ∀ (t : State), execOscStop s = Host.Outcome.next t → Memory.wf t.mem = true := by
  intros; unfold execOscStop at *; rename_i h; injection h with h; subst h; repeat' (first | with_reducible assumption | with_reducible apply slowStops_mem | split)
theorem execShadowStale_mem : ∀ (net : Bool) (s : State), Memory.wf s.mem = true → ∀ (t : State), execShadowStale net s = Host.Outcome.next t → Memory.wf t.mem = true := by
  intros; unfold execShadowStale at *; rename_i h; injection h with h; subst h; repeat' (first | with_reducible assumption | with_reducible apply updRtcCore_mem | split)

end Sys2Proof.Machine
end

