-- ==== Sys2Proof/Laws/MemoryLink.lean ====
section
/-! SUPPORT. The canonical form of memory is kept by the scheduler, the timing unit and the link controller: one lemma an operation, cited by name. -/

set_option Elab.async false
set_option linter.all false

namespace Sys2Proof.Machine

theorem putFlow_mem : ∀ (i : Nat) (f : Flow) (s : State), Memory.wf s.mem = true → Memory.wf (putFlow i f s).mem = true := by
  intros; simp_all [putFlow, updSched_mem]
theorem putShaper_mem : ∀ (i : Nat) (h : Shaper) (s : State), Memory.wf s.mem = true → Memory.wf (putShaper i h s).mem = true := by
  intros; simp_all [putShaper, updSched_mem]
theorem schedStat_mem : ∀ (f : SchedStats → SchedStats) (s : State), Memory.wf s.mem = true → Memory.wf (schedStat f s).mem = true := by
  intros; simp_all [schedStat, updSched_mem]
theorem scanFlow_mem : ∀ (s : State) (i : Nat), Memory.wf s.mem = true → Memory.wf (scanFlow s i).mem = true := by
  intros; simp_all [scanFlow, schedStat_mem, putFlow_mem]
theorem schedScan_mem : ∀ (s : State), Memory.wf s.mem = true → Memory.wf (schedScan s).mem = true := by
  intro s h; exact mem_foldl _ (fun a x ha => scanFlow_mem _ _ ha) _ _ h
theorem refuseFlow_mem : ∀ (i : Nat) (b : Option Nat) (t : Nat) (s : State), Memory.wf s.mem = true → Memory.wf (refuseFlow i b t s).mem = true := by
  intros; simp_all [refuseFlow, updSched_mem, putFlow_mem]
theorem clampFlow_mem : ∀ (s : State) (i : Nat), Memory.wf s.mem = true → Memory.wf (clampFlow s i).mem = true := by
  intros; unfold clampFlow; repeat' (first | with_reducible assumption | with_reducible apply schedStat_mem | with_reducible apply putFlow_mem | with_reducible apply mem_ite)
theorem releaseFlow_mem : ∀ (i : Nat) (p : Packet) (s : State), Memory.wf s.mem = true → Memory.wf (releaseFlow i p s).mem = true := by
  intro i p s h; unfold releaseFlow; dsimp only
  refine schedScan_mem _ (mem_foldl _ (fun a x ha => clampFlow_mem _ _ ha) _ _ ?_)
  apply updSched_mem; split
  · exact putShaper_mem _ _ _ (putFlow_mem _ _ _ (updLink_mem _ _ (updQueue_mem _ _ _ h)))
  · exact putFlow_mem _ _ _ (updLink_mem _ _ (updQueue_mem _ _ _ h))
theorem schedDecide_mem : ∀ (a : Nat) (a_1 : State), Memory.wf a_1.mem = true → Memory.wf (schedDecide a a_1).mem = true := by
  intro n; induction n with
  | zero => exact fun s h => h
  | succ n ih =>
    intro s h; unfold schedDecide
    cases schedPick s with
    | none => exact h
    | some i =>
      dsimp only
      cases flowHead s (flowOf s i) with
      | none => exact h
      | some p =>
        dsimp only
        cases packetUs s p with
        | none => exact releaseFlow_mem _ _ _ h
        | some t =>
          dsimp only
          generalize judge s _ t false = j
          obtain ⟨b, x⟩ := j
          cases x with
          | true => exact releaseFlow_mem _ _ _ h
          | false => exact ih _ (schedScan_mem _ (refuseFlow_mem _ _ _ _ h))
theorem schedRefill_mem : ∀ (s : State), Memory.wf s.mem = true → Memory.wf (schedRefill s).mem = true := by
  intros; simp_all [schedRefill, schedScan_mem, updSched_mem]
theorem refillMany_mem : ∀ (n : Nat) (s : State), Memory.wf s.mem = true → Memory.wf (refillMany n s).mem = true := by
  intros; simp_all [refillMany, updSched_mem]
theorem wheelFlow_mem : ∀ (s : State) (i : Nat), Memory.wf s.mem = true → Memory.wf (wheelFlow s i).mem = true := by
  intros; unfold wheelFlow; dsimp only; repeat' (first | with_reducible assumption | with_reducible apply scanFlow_mem | with_reducible apply putFlow_mem | split)
theorem schedRestart_mem : ∀ (s : State), Memory.wf s.mem = true → Memory.wf (schedRestart s).mem = true := by
  intros; simp_all [schedRestart, schedScan_mem, updSched_mem]
theorem putSync_mem : ∀ (i : Nat) (r : SyncRec) (s : State), Memory.wf s.mem = true → Memory.wf (putSync i r s).mem = true := by
  intros; simp_all [putSync, updTiming_mem]
theorem timingStat_mem : ∀ (f : TimingStats → TimingStats) (s : State), Memory.wf s.mem = true → Memory.wf (timingStat f s).mem = true := by
  intros; simp_all [timingStat, updTiming_mem]
theorem ownRewind_mem : ∀ (s : State), Memory.wf s.mem = true → Memory.wf (ownRewind s).mem = true := by
  intros; unfold ownRewind; repeat' (first | with_reducible assumption | with_reducible apply updTiming_mem | split)
theorem applyStep_mem : ∀ (d : Int) (src : Nat) (s : State), Memory.wf s.mem = true → Memory.wf (applyStep d src s).mem = true := by
  intros; unfold applyStep; repeat' (first | with_reducible assumption | with_reducible apply ownRewind_mem | with_reducible apply updClk_mem | with_reducible apply appTimer_mem | with_reducible apply shotsFall_mem | with_reducible apply updTiming_mem | with_reducible apply raise_mem | split)
theorem requestStep_mem : ∀ (d : Int) (src : Nat) (s : State), Memory.wf s.mem = true → Memory.wf (requestStep d src s).mem = true := by
  intros; unfold requestStep; repeat' (first | with_reducible assumption | with_reducible apply updTiming_mem | with_reducible apply applyStep_mem | split)
theorem takeSample_mem : ∀ (i : Nat) (x : Int) (s : State), Memory.wf s.mem = true → Memory.wf (takeSample i x s).mem = true := by
  intros; unfold takeSample; repeat' (first | with_reducible assumption | with_reducible apply putSync_mem | with_reducible apply putNbr_mem | with_reducible apply updTiming_mem | with_reducible apply mem_ite)
theorem syncEvent_mem : ∀ (i : Nat) (o : Int) (s : State), Memory.wf s.mem = true → Memory.wf (syncEvent i o s).mem = true := by
  intros; unfold syncEvent; repeat' (first | with_reducible assumption | with_reducible apply putSync_mem | with_reducible apply putNbr_mem | with_reducible apply takeSample_mem | with_reducible apply requestStep_mem | with_reducible apply mem_ite | split)
theorem calRefresh_mem : ∀ (s : State), Memory.wf s.mem = true → Memory.wf (calRefresh s).mem = true := by
  intros; unfold calRefresh; repeat' (first | with_reducible assumption | with_reducible apply updTiming_mem | split)
theorem ownRestart_mem : ∀ (s : State), Memory.wf s.mem = true → Memory.wf (ownRestart s).mem = true := by
  intros; simp_all [ownRestart, updTiming_mem]
theorem becomeLost_mem : ∀ (i side : Nat) (s : State), Memory.wf s.mem = true → Memory.wf (becomeLost i side s).mem = true := by
  intros; unfold becomeLost; repeat' (first | with_reducible assumption | with_reducible apply raise_mem | with_reducible apply timingStat_mem | with_reducible apply updNbr_mem)
theorem resyncEvent_mem : ∀ (i outcome : Nat) (tcorr : Int) (s : State), Memory.wf s.mem = true → Memory.wf (resyncEvent i outcome tcorr s).mem = true := by
  intros; simp_all [resyncEvent, raise_mem]
theorem putResync_mem : ∀ (r : Resync) (s : State), Memory.wf s.mem = true → Memory.wf (putResync r s).mem = true := by
  intros; simp_all [putResync, updTiming_mem]
theorem dropResync_mem : ∀ (i : Nat) (s : State), Memory.wf s.mem = true → Memory.wf (dropResync i s).mem = true := by
  intros; simp_all [dropResync, updTiming_mem]
theorem resyncComplete_mem : ∀ (i outcome : Nat) (tcorr : Int) (s : State), Memory.wf s.mem = true → Memory.wf (resyncComplete i outcome tcorr s).mem = true := by
  intros; unfold resyncComplete; repeat' (first | with_reducible assumption | with_reducible apply complete_mem | with_reducible apply putResync_mem | split)
theorem resyncStart_mem : ∀ (i : Nat) (slot : Option Nat) (s : State), Memory.wf s.mem = true → Memory.wf (resyncStart i slot s).mem = true := by
  intros; unfold resyncStart; repeat' (first | with_reducible assumption | with_reducible apply timingStat_mem | with_reducible apply updTiming_mem | with_reducible apply updNbr_mem)
theorem resyncPostpone_mem : ∀ (i outcome : Nat) (s : State), Memory.wf s.mem = true → Memory.wf (resyncPostpone i outcome s).mem = true := by
  intros; unfold resyncPostpone; repeat' (first | with_reducible assumption | with_reducible apply resyncComplete_mem | with_reducible apply resyncEvent_mem | with_reducible apply updTiming_mem | split)
theorem resyncSuccess_mem : ∀ (i : Nat) (tcorr : Int) (s : State), Memory.wf s.mem = true → Memory.wf (resyncSuccess i tcorr s).mem = true := by
  intros; unfold resyncSuccess; repeat' (first | with_reducible assumption | with_reducible apply resyncComplete_mem | with_reducible apply putSync_mem | with_reducible apply updNbr_mem | with_reducible apply resyncEvent_mem | with_reducible apply timingStat_mem | with_reducible apply dropResync_mem)
theorem resyncFailed_mem : ∀ (i : Nat) (s : State), Memory.wf s.mem = true → Memory.wf (resyncFailed i s).mem = true := by
  intros; unfold resyncFailed; repeat' (first | with_reducible assumption | with_reducible apply putResync_mem | with_reducible apply resyncComplete_mem | with_reducible apply updNbr_mem | with_reducible apply timingStat_mem | with_reducible apply resyncEvent_mem | with_reducible apply becomeLost_mem | with_reducible apply dropResync_mem | with_reducible apply updTiming_mem | with_reducible apply mem_ite | split)
theorem txDone_mem : ∀ (nbr seq outcome attempts queue : Nat) (s : State), Memory.wf s.mem = true → Memory.wf (txDone nbr seq outcome attempts queue s).mem = true := by
  intros; simp_all [txDone, raise_mem]
theorem unhold_mem : ∀ (id : Nat) (s : State), Memory.wf s.mem = true → Memory.wf (unhold id s).mem = true := by
  intros; unfold unhold; repeat' (first | with_reducible assumption | with_reducible apply tallyRelease_mem | with_reducible apply updRadio_mem | split)
theorem endFlight_mem : ∀ (id outcome : Nat) (tcorr : Int) (s : State), Memory.wf s.mem = true → Memory.wf (endFlight id outcome tcorr s).mem = true := by
  intros; unfold endFlight; repeat' (first | with_reducible assumption | with_reducible apply releaseCells_mem | with_reducible apply dropFlight_mem | with_reducible apply unhold_mem | with_reducible apply updRadio_mem | with_reducible apply linkStat_mem | with_reducible apply updNbr_mem | with_reducible apply txDone_mem | with_reducible apply complete_mem | with_reducible apply mem_ite_fst | with_reducible apply mem_ite_res | with_reducible intro _ | split)
theorem endBeacon_mem : ∀ (id code : Nat) (s : State), Memory.wf s.mem = true → Memory.wf (endBeacon id code s).mem = true := by
  intros; unfold endBeacon; repeat' (first | with_reducible assumption | with_reducible apply releaseCells_mem | with_reducible apply dropFlight_mem | with_reducible apply unhold_mem | with_reducible apply complete_mem | split)
theorem nbrDown_mem : ∀ (i : Nat) (s : State), Memory.wf s.mem = true → Memory.wf (nbrDown i s).mem = true := by
  intro i s h; exact mem_foldl _ (fun a x ha => endFlight_mem _ _ _ _ ha) _ _ h
theorem placeFrom_mem : ∀ (least id : Nat) (s : State), Memory.wf s.mem = true → Memory.wf (placeFrom least id s).mem = true := by
  intros; unfold placeFrom; dsimp only; repeat' (first | with_reducible assumption | with_reducible apply updFlight_mem | split)
theorem placeWindow_mem : ∀ (id : Nat) (s : State), Memory.wf s.mem = true → Memory.wf (placeWindow id s).mem = true := by
  intros; simp_all [placeWindow, placeFrom_mem]
theorem readyFlight_mem : ∀ (id : Nat) (s : State), Memory.wf s.mem = true → Memory.wf (readyFlight id s).mem = true := by
  intros; unfold readyFlight; repeat' (first | with_reducible assumption | with_reducible apply updFlight_mem | with_reducible apply placeWindow_mem | with_reducible apply mem_ite | split)
theorem secureFlight_mem : ∀ (id : Nat) (s : State), Memory.wf s.mem = true → Memory.wf (secureFlight id s).mem = true := by
  intros; grind [secureFlight, updFlight_mem, drawFC_mem, endFlight_mem, readyFlight_mem, cipherStat_mem, maskUse_mem]
theorem replaceWindows_mem : ∀ (i : Nat) (s : State), Memory.wf s.mem = true → Memory.wf (replaceWindows i s).mem = true := by
  intro i s h; exact mem_foldl _ (fun a x ha => placeWindow_mem _ _ ha) _ _ h
theorem backoffFlight_mem : ∀ (id : Nat) (f : Flight) (s : State), Memory.wf s.mem = true → Memory.wf (backoffFlight id f s).mem = true := by
  intros; unfold backoffFlight; repeat' (first | with_reducible assumption | with_reducible apply fresh_mem | with_reducible apply genUse_mem | with_reducible apply updFlight_mem)
theorem missRdv_mem : ∀ (i : Nat) (s : State), Memory.wf s.mem = true → Memory.wf (missRdv i s).mem = true := by
  intros; unfold missRdv; repeat' (first | with_reducible assumption | with_reducible apply timingStat_mem | with_reducible apply updNbr_mem | with_reducible apply resyncStart_mem | with_reducible apply updLink_mem | with_reducible apply mem_ite)
theorem deferRdv_mem : ∀ (id : Nat) (s : State), Memory.wf s.mem = true → Memory.wf (deferRdv id s).mem = true := by
  intros; simp_all [deferRdv, placeFrom_mem, timingStat_mem]
theorem attemptFailed_mem : ∀ (id : Nat) (late : Bool) (s : State), Memory.wf s.mem = true → Memory.wf (attemptFailed id late s).mem = true := by
  intros; unfold attemptFailed; repeat' (first | with_reducible assumption | with_reducible apply updRadio_mem | with_reducible apply linkStat_mem | with_reducible apply resyncPostpone_mem | with_reducible apply endBeacon_mem | with_reducible apply resyncFailed_mem | with_reducible apply endFlight_mem | with_reducible apply nbrDown_mem | with_reducible apply deferRdv_mem | with_reducible apply updFlight_mem | with_reducible apply missRdv_mem | with_reducible apply readyFlight_mem | with_reducible apply backoffFlight_mem | with_reducible apply mem_ite | with_reducible apply mem_ite_fst | with_reducible apply mem_ite_res | with_reducible intro _ | split)
theorem originate_mem : ∀ (kind : FlightKind) (nbr : Option Nat) (head body : List Byte) (keySlot : Option Nat) (seq : Nat) (ar timed : Bool) (profile tune : Nat) (windowed : Bool) (s : State), Memory.wf s.mem = true → ∀ (t : State), originate kind nbr head body keySlot seq ar timed profile tune windowed s = some t → Memory.wf t.mem = true := by
  intros; grind [originate, allocCells_mem, updLink_mem]
theorem beaconTo_mem : ∀ (kind : FlightKind) (nbr : Option Nat) (tune : Nat) (windowed : Bool) (s : State), Memory.wf s.mem = true → ∀ (t : State), beaconTo kind nbr tune windowed s = some t → Memory.wf t.mem = true := by
  intro k nb t w s h u hu
  unfold beaconTo at hu; dsimp only at hu
  split at hu
  all_goals
    simp only [Option.map_eq_some_iff] at hu
    obtain ⟨v, hv, rfl⟩ := hu
    first | exact updNbr_mem _ _ _ (originate_mem _ _ _ _ _ _ _ _ _ _ _ _ h _ hv) | exact updLink_mem _ _ (originate_mem _ _ _ _ _ _ _ _ _ _ _ _ h _ hv)
theorem freeNbr_mem : ∀ (i : Nat) (s : State), Memory.wf s.mem = true → Memory.wf (freeNbr i s).mem = true := by
  intros; unfold freeNbr; repeat' (first | with_reducible assumption | with_reducible apply resyncComplete_mem | with_reducible apply nbrDown_mem | with_reducible apply putSync_mem | with_reducible apply dropResync_mem | with_reducible apply putNbr_mem)
theorem installNbr_mem : ∀ (i mask : Nat) (x : List Byte) (s : State), Memory.wf s.mem = true → Memory.wf (installNbr i mask x s).mem = true := by
  intros; unfold installNbr; repeat' (first | with_reducible assumption | with_reducible apply freeNbr_mem | with_reducible apply putNbr_mem | with_reducible apply putSync_mem | with_reducible apply dropResync_mem | with_reducible apply resyncComplete_mem | with_reducible apply replaceWindows_mem | with_reducible apply mem_ite)
theorem applyLinkSet_mem : ∀ (op : Nat) (p : List Byte) (s : State), Memory.wf s.mem = true → Memory.wf (applyLinkSet op p s).mem = true := by
  intros; unfold applyLinkSet; repeat' (first | with_reducible assumption | with_reducible apply updLink_mem | with_reducible apply installNbr_mem | split)
theorem applyDeferred_mem : ∀ (s : State), Memory.wf s.mem = true → Memory.wf (applyDeferred s).mem = true := by
  intro s h; unfold applyDeferred; split
  · exact h
  · exact mem_foldl _ (fun a x ha => applyLinkSet_mem _ _ _ ha) _ _ (updLink_mem _ _ h)
theorem refusedFlight_mem : ∀ (f : Flight) (band : Option Nat) (us since : Nat) (s : State), Memory.wf s.mem = true → Memory.wf (refusedFlight f band us since s).mem = true := by
  intros; unfold refusedFlight; repeat' (first | with_reducible assumption | with_reducible apply schedStat_mem | with_reducible apply putFlow_mem | with_reducible apply resyncPostpone_mem | with_reducible apply endBeacon_mem | with_reducible apply deferRdv_mem | with_reducible apply updFlight_mem | with_reducible apply mem_ite | split)
theorem submitFlight_mem : ∀ (f : Flight) (timed : Option Nat) (since : Nat) (s : State), Memory.wf s.mem = true → Memory.wf (submitFlight f timed since s).mem = true := by
  intros; grind [submitFlight, endFlight_mem, tallyTake_mem, refusedFlight_mem, radioSubmit_mem, updFlight_mem]
theorem submitWake_mem : ∀ (w : WakeSend) (s : State), Memory.wf s.mem = true → Memory.wf (submitWake w s).mem = true := by
  intros; grind [submitWake, tallyTake_mem, wakeDone_mem, resyncPostpone_mem, radioSubmit_mem, updCanary_mem]
theorem unsubmit_mem : ∀ (s : State), Memory.wf s.mem = true → Memory.wf (unsubmit s).mem = true := by
  intros; unfold unsubmit; repeat' (first | with_reducible assumption | with_reducible apply tallyRelease_mem | with_reducible apply updRadio_mem | with_reducible apply updFlight_mem | with_reducible apply updCanary_mem | split)
theorem takeBack_mem : ∀ (window : Bool) (s : State), Memory.wf s.mem = true → Memory.wf (takeBack window s).mem = true := by
  intros; unfold takeBack; repeat' (first | with_reducible assumption | with_reducible apply unsubmit_mem | split)
theorem linkSubmit_mem : ∀ (a : Nat) (a_1 : State), Memory.wf a_1.mem = true → Memory.wf (linkSubmit a a_1).mem = true := by
  intro n; induction n with
  | zero => exact fun s h => h
  | succ n ih =>
    intro s h; unfold linkSubmit; dsimp only
    have h2 : ∀ w, Memory.wf (takeBack w s).mem = true := fun w => takeBack_mem w s h
    refine mem_ite (h2 _) (mem_ite ?_ ?_)
    · split
      · exact ih _ (mem_ite (deferRdv_mem _ _ (h2 _)) (submitFlight_mem _ _ _ _ (h2 _)))
      · exact h2 _
    · split
      · exact mem_ite (h2 _) (ih _ (submitWake_mem _ _ (h2 _)))
      · exact ih _ (submitFlight_mem _ _ _ _ (h2 _))
      · exact h2 _
theorem takeOrigin_mem : ∀ (s : State) (f : Flight), Memory.wf s.mem = true → Memory.wf (takeOrigin s f).mem = true := by
  intros; unfold takeOrigin; repeat' (first | with_reducible assumption | with_reducible apply endFlight_mem | with_reducible apply secureFlight_mem | with_reducible apply schedStat_mem | with_reducible apply mem_ite)
theorem wakeFlight_mem : ∀ (s : State) (f : Flight), Memory.wf s.mem = true → Memory.wf (wakeFlight s f).mem = true := by
  intros; unfold wakeFlight; repeat' (first | with_reducible assumption | with_reducible apply secureFlight_mem | with_reducible apply readyFlight_mem | split)
theorem resyncWake_mem : ∀ (s : State), Memory.wf s.mem = true → Memory.wf (resyncWake s).mem = true := by
  intros; unfold resyncWake; repeat' (first | with_reducible assumption | with_reducible apply updCanary_mem | split)
theorem linkKick_mem : ∀ (s : State), Memory.wf s.mem = true → Memory.wf (linkKick s).mem = true := by
  intro s h; unfold linkKick
  exact radioKick_mem _ (schedScan_mem _ (calRefresh_mem _ (linkSubmit_mem _ _ (resyncWake_mem _ (mem_foldl _ (fun a x ha => takeOrigin_mem _ _ ha) _ _ (mem_foldl _ (fun a x ha => wakeFlight_mem _ _ ha) _ _ (applyDeferred_mem _ h)))))))
theorem countReceived_mem : ∀ (x : RxFrame) (f : Rxf) (s : State), Memory.wf s.mem = true → Memory.wf (countReceived x f s).mem = true := by
  intros; unfold countReceived; repeat' (first | with_reducible assumption | with_reducible apply updNbr_mem | split)
theorem owedRefresh_mem : ∀ (s : State), Memory.wf s.mem = true → Memory.wf (owedRefresh s).mem = true := by
  intros; simp_all [owedRefresh, updRadio_mem]
theorem updRx_mem : ∀ (id : Nat) (g : RxFrame → RxFrame) (s : State), Memory.wf s.mem = true → Memory.wf (updRx id g s).mem = true := by
  intros; simp_all [updRx, owedRefresh_mem, updLink_mem]
theorem closeRx_mem : ∀ (id : Nat) (s : State), Memory.wf s.mem = true → Memory.wf (closeRx id s).mem = true := by
  intros; unfold closeRx; repeat' (first | with_reducible assumption | with_reducible apply releaseCells_mem | with_reducible apply owedRefresh_mem | with_reducible apply updLink_mem | with_reducible apply updRx_mem | split)
theorem noteDrop_mem : ∀ (g : DropAcc → DropAcc) (f : Rxf) (s : State), Memory.wf s.mem = true → Memory.wf (noteDrop g f s).mem = true := by
  intros; simp_all [noteDrop, updLink_mem]
theorem enqueueFrame_mem : ∀ (x : RxFrame) (q : Nat) (bytes : List Byte) (s : State), Memory.wf s.mem = true → ∀ (t : State), enqueueFrame x q bytes s = some t → Memory.wf t.mem = true := by
  intros; grind [enqueueFrame, releaseCells_mem, updRx_mem, linkPacket_mem]
theorem deliverTo_mem : ∀ (q : Nat) (unrouted : Bool) (x : RxFrame) (f : Rxf) (payload : List Byte) (s : State), Memory.wf s.mem = true → Memory.wf (deliverTo q unrouted x f payload s).mem = true := by
  intros; grind [deliverTo, enqueueFrame_mem, noteDrop_mem, linkStat_mem, countReceived_mem]
theorem forwardFrame_mem : ∀ (x : RxFrame) (f : Rxf) (payload : List Byte) (s : State), Memory.wf s.mem = true → Memory.wf (forwardFrame x f payload s).mem = true := by
  intros; grind [forwardFrame, noteDrop_mem, linkStat_mem, deliverTo_mem, enqueueFrame_mem, countReceived_mem]
theorem joinReported_mem : ∀ (x : RxFrame) (f : Rxf) (payload : List Byte) (s : State), Memory.wf s.mem = true → Memory.wf (joinReported x f payload s).mem = true := by
  intros; unfold joinReported; repeat' (first | with_reducible assumption | with_reducible apply raise_mem | with_reducible apply updLink_mem | with_reducible apply mem_ite)
theorem joinEnd_mem : ∀ (r : List Byte) (s : State), Memory.wf s.mem = true → Memory.wf (joinEnd r s).mem = true := by
  intro r s h; unfold joinEnd; split
  · exact h
  · exact complete_mem _ _ _ _ _ (updLink_mem _ _ (mem_foldl _ (fun a x ha => releaseCells_mem _ _ (dropFlight_mem _ _ ha)) _ _ h))
theorem joinReplied_mem : ∀ (f : Rxf) (p : List Byte) (s : State), Memory.wf s.mem = true → Memory.wf (joinReplied f p s).mem = true := by
  intro f p s h; unfold joinReplied; dsimp only; split
  · exact joinEnd_mem _ _ h
  · exact updLink_mem _ _ (putSync_mem _ _ _ (putNbr_mem _ _ _ (mem_foldl _ (fun a x ha => freeNbr_mem _ _ ha) _ _ (joinEnd_mem _ _ h))))
theorem keepWindow_mem : ∀ (x : RxFrame) (s : State), Memory.wf s.mem = true → Memory.wf (keepWindow x s).mem = true := by
  intros; unfold keepWindow; repeat' (first | with_reducible assumption | with_reducible apply updTiming_mem | split)
theorem beaconSchedule_mem : ∀ (i : Nat) (p : List Byte) (s : State), Memory.wf s.mem = true → Memory.wf (beaconSchedule i p s).mem = true := by
  intros; unfold beaconSchedule; repeat' (first | with_reducible assumption | with_reducible apply putNbr_mem | with_reducible apply replaceWindows_mem | with_reducible apply mem_ite)
theorem timingReceived_mem : ∀ (x : RxFrame) (f : Rxf) (payload : List Byte) (s : State), Memory.wf s.mem = true → Memory.wf (timingReceived x f payload s).mem = true := by
  intros; unfold timingReceived; repeat' (first | with_reducible assumption | with_reducible apply keepWindow_mem | with_reducible apply beaconSchedule_mem | with_reducible apply syncEvent_mem | with_reducible apply updNbr_mem | with_reducible apply updTiming_mem | with_reducible apply mem_ite | split)
theorem holdPend_mem : ∀ (s : State), Memory.wf s.mem = true → Memory.wf (holdPend s).mem = true := by
  intros; simp_all [holdPend, updRadio_mem]
theorem acceptFrame_mem : ∀ (x : RxFrame) (f : Rxf) (payload : List Byte) (s : State), Memory.wf s.mem = true → Memory.wf (acceptFrame x f payload s).mem = true := by
  intro x f p s h
  have h0 : Memory.wf (if f.pend then holdPend s else s).mem = true := by
    split
    · exact holdPend_mem _ h
    · exact h
  unfold acceptFrame; dsimp only
  revert h0; generalize (if f.pend then holdPend s else s) = S; intro h0
  have h1 := timingReceived_mem x f p S h0
  have hc := countReceived_mem x f S h0
  split
  · exact closeRx_mem _ _ (linkStat_mem _ _ h)
  split
  · refine closeRx_mem _ _ ?_; split
    · exact joinReported_mem _ _ _ _ hc
    · exact hc
  split
  · refine closeRx_mem _ _ ?_; split
    · exact joinReplied_mem _ _ _ hc
    · exact hc
  revert h1; generalize timingReceived x f p S = T; intro h1
  repeat' split
  all_goals first | exact closeRx_mem _ _ (countReceived_mem _ _ _ h1) | exact closeRx_mem _ _ (deliverTo_mem _ _ _ _ _ _ h1) | exact closeRx_mem _ _ (linkStat_mem _ _ h1) | exact closeRx_mem _ _ (forwardFrame_mem _ _ _ _ h1)
theorem dropRx_mem : ∀ (id : Nat) (g : LinkStats → LinkStats) (s : State), Memory.wf s.mem = true → Memory.wf (dropRx id g s).mem = true := by
  intros; simp_all [dropRx, closeRx_mem, linkStat_mem]
theorem receiveFrame_mem : ∀ (x : RxFrame) (s : State), Memory.wf s.mem = true → Memory.wf (receiveFrame x s).mem = true := by
  intro x s h; unfold receiveFrame
  cases parseFrame x.psdu with
  | none => exact dropRx_mem _ _ _ h
  | some f =>
    dsimp only
    repeat' (refine mem_ite ?_ ?_)
    all_goals first | exact dropRx_mem _ _ _ h | exact dropRx_mem _ _ _ (cipherStat_mem _ _ h) | exact closeRx_mem _ _ (updRx_mem _ _ _ (keepWindow_mem _ _ (linkStat_mem _ _ h))) | exact updRx_mem _ _ _ (updRx_mem _ _ _ h) | skip
    split
    · exact acceptFrame_mem _ _ _ _ (updRx_mem _ _ _ h)
    · exact updRx_mem _ _ _ h
theorem decideAck_mem : ∀ (x : RxFrame) (f : Rxf) (s : State), Memory.wf s.mem = true → Memory.wf (decideAck x f s).mem = true := by
  intros; grind [decideAck, updRx_mem, closeRx_mem, linkStat_mem, tallyTake_mem, unsubmit_mem, radioSubmit_mem]
theorem ackSent_mem : ∀ (id : Nat) (s : State), Memory.wf s.mem = true → Memory.wf (ackSent id s).mem = true := by
  intros; unfold ackSent; repeat' (first | with_reducible assumption | with_reducible apply updNbr_mem | with_reducible apply updRx_mem | with_reducible apply linkStat_mem | with_reducible apply holdPend_mem | with_reducible apply closeRx_mem | with_reducible apply mem_ite | with_reducible apply mem_ite_fst | with_reducible apply mem_ite_res | split)
theorem ackAbandoned_mem : ∀ (id : Nat) (s : State), Memory.wf s.mem = true → Memory.wf (ackAbandoned id s).mem = true := by
  intros; unfold ackAbandoned; repeat' (first | with_reducible assumption | with_reducible apply updRx_mem | with_reducible apply closeRx_mem | split)
theorem micEnds_mem : ∀ (x : RxFrame) (f : Rxf) (ecc : PopEcc) (s : State), Memory.wf s.mem = true → Memory.wf (micEnds x f ecc s).mem = true := by
  intros; unfold micEnds; repeat' (first | with_reducible assumption | with_reducible apply readEcc_mem | with_reducible apply cipherStat_mem | with_reducible apply maskUse_mem | with_reducible apply updRx_mem | with_reducible apply closeRx_mem | with_reducible apply qmStat_mem | with_reducible apply acceptFrame_mem | with_reducible apply linkStat_mem | with_reducible apply mem_ite)
theorem ackReceived_mem : ∀ (x : RxFrame) (id : Nat) (s : State), Memory.wf s.mem = true → Memory.wf (ackReceived x id s).mem = true := by
  intros; unfold ackReceived; dsimp only; repeat' (first | with_reducible assumption | with_reducible apply owedRefresh_mem | with_reducible apply updLink_mem | with_reducible apply releaseCells_mem | with_reducible apply updRadio_mem | with_reducible apply attemptFailed_mem | with_reducible apply holdPend_mem | with_reducible apply timingStat_mem | with_reducible apply updNbr_mem | with_reducible apply endFlight_mem | with_reducible apply syncEvent_mem | with_reducible apply resyncSuccess_mem | with_reducible apply resyncFailed_mem | with_reducible apply nbrDown_mem | with_reducible apply mem_ite | split)
theorem linkSet_mem : ∀ (c : Ctx) (p : List Byte) (opts : Nat) (reply : State → List Byte) (s : State), Memory.wf s.mem = true → Memory.wf (linkSet c p opts reply s).s.mem = true := by
  intros; unfold linkSet; repeat' (first | with_reducible assumption | with_reducible apply applyLinkSet_mem | with_reducible apply persistR_mem | with_reducible apply okR_mem | with_reducible apply linkKick_mem | with_reducible apply mem_ite_res | split)
theorem linkStateGet_mem : ∀ (a : Ctx) (a_1 : List Byte) (a_2 : State), Memory.wf a_2.mem = true → Memory.wf (linkStateGet a a_1 a_2).s.mem = true := by
  intros; simp_all [linkStateGet, okR_mem]
theorem linkCfgGet_mem : ∀ (a : Ctx) (a_1 : List Byte) (a_2 : State), Memory.wf a_2.mem = true → Memory.wf (linkCfgGet a a_1 a_2).s.mem = true := by
  intros; simp_all [linkCfgGet, okR_mem]
theorem linkCfgSet_mem : ∀ (a : Ctx) (a_1 : List Byte) (a_2 : State), Memory.wf a_2.mem = true → Memory.wf (linkCfgSet a a_1 a_2).s.mem = true := by
  intros; simp_all [linkCfgSet, guardR_mem, linkSet_mem]
theorem nbrSet_mem : ∀ (a : Ctx) (a_1 : List Byte) (a_2 : State), Memory.wf a_2.mem = true → Memory.wf (nbrSet a a_1 a_2).s.mem = true := by
  intros; simp_all [nbrSet, guardR_mem, linkSet_mem]
theorem nbrGet_mem : ∀ (a : Ctx) (a_1 : List Byte) (a_2 : State), Memory.wf a_2.mem = true → Memory.wf (nbrGet a a_1 a_2).s.mem = true := by
  intros; simp_all [nbrGet, guardR_mem, okR_mem]
theorem nbrFind_mem : ∀ (a : Ctx) (a_1 : List Byte) (a_2 : State), Memory.wf a_2.mem = true → Memory.wf (nbrFind a a_1 a_2).s.mem = true := by
  intros; simp_all [nbrFind, guardR_mem, okR_mem]
theorem routeSet_mem : ∀ (a : Ctx) (a_1 : List Byte) (a_2 : State), Memory.wf a_2.mem = true → Memory.wf (routeSet a a_1 a_2).s.mem = true := by
  intros; simp_all [routeSet, guardR_mem, linkSet_mem]
theorem routeGet_mem : ∀ (a : Ctx) (a_1 : List Byte) (a_2 : State), Memory.wf a_2.mem = true → Memory.wf (routeGet a a_1 a_2).s.mem = true := by
  intros; simp_all [routeGet, guardR_mem, okR_mem]
theorem routeLookup_mem : ∀ (a : Ctx) (a_1 : List Byte) (a_2 : State), Memory.wf a_2.mem = true → Memory.wf (routeLookup a a_1 a_2).s.mem = true := by
  intros; simp_all [routeLookup, guardR_mem, okR_mem]
theorem sendJoinReq_mem : ∀ (j : Join) (s : State), Memory.wf s.mem = true → ∀ (t : State), sendJoinReq j s = some t → Memory.wf t.mem = true := by
  intro j s h u hu
  unfold sendJoinReq at hu
  simp only [Option.map_eq_some_iff] at hu
  obtain ⟨v, hv, rfl⟩ := hu
  exact updLink_mem _ _ (originate_mem _ _ _ _ _ _ _ _ _ _ _ _ h _ hv)
theorem linkJoin_mem : ∀ (a : Ctx) (a_1 : List Byte) (a_2 : State), Memory.wf a_2.mem = true → Memory.wf (linkJoin a a_1 a_2).s.mem = true := by
  intros; grind [linkJoin, guardR_mem, modeR_mem, busyR_mem, sendJoinReq_mem, errR_mem, pendR_mem, linkKick_mem, updLink_mem]
theorem linkJoinReply_mem : ∀ (a : Ctx) (a_1 : List Byte) (a_2 : State), Memory.wf a_2.mem = true → Memory.wf (linkJoinReply a a_1 a_2).s.mem = true := by
  intro c p s h; unfold linkJoinReply
  refine guardR_mem _ _ _ h (fun _ => ?_)
  dsimp only
  split
  · exact errR_mem _ _ _ h
  · refine pendR_mem _ _ _ h (fun slot => ?_)
    split
    · rename_i hf
      simp only [Option.map_eq_some_iff] at hf
      obtain ⟨v, hv, hf⟩ := hf
      have hv := originate_mem _ _ _ _ _ _ _ _ _ _ _ _ h _ hv
      rw [← hf]
      refine linkKick_mem _ ?_
      split
      · exact updNbr_mem _ _ _ hv
      · exact updLink_mem _ _ hv
    · exact h
theorem linkStatsGet_mem : ∀ (a : Ctx) (a_1 : List Byte) (a_2 : State), Memory.wf a_2.mem = true → Memory.wf (linkStatsGet a a_1 a_2).s.mem = true := by
  intros; unfold linkStatsGet; repeat' (first | with_reducible assumption | with_reducible apply guardR_mem | with_reducible apply okR_mem | with_reducible apply linkStat_mem | with_reducible intro _ | split)
theorem execLinkStateGet_mem : ∀ (v : Srv) (s : State), Memory.wf s.mem = true → ∀ (t : State), execLinkStateGet v s = Host.Outcome.next t → Memory.wf t.mem = true := by
  intros; unfold execLinkStateGet at *; rename_i h; injection h with h; subst h; repeat' (first | with_reducible assumption | with_reducible apply serve_mem | with_reducible apply linkStateGet_mem)
theorem execLinkCfgSet_mem : ∀ (v : Srv) (s : State), Memory.wf s.mem = true → ∀ (t : State), execLinkCfgSet v s = Host.Outcome.next t → Memory.wf t.mem = true := by
  intros; unfold execLinkCfgSet at *; rename_i h; injection h with h; subst h; repeat' (first | with_reducible assumption | with_reducible apply serve_mem | with_reducible apply linkCfgSet_mem)
theorem execLinkCfgGet_mem : ∀ (v : Srv) (s : State), Memory.wf s.mem = true → ∀ (t : State), execLinkCfgGet v s = Host.Outcome.next t → Memory.wf t.mem = true := by
  intros; unfold execLinkCfgGet at *; rename_i h; injection h with h; subst h; repeat' (first | with_reducible assumption | with_reducible apply serve_mem | with_reducible apply linkCfgGet_mem)
theorem execNbrSet_mem : ∀ (v : Srv) (s : State), Memory.wf s.mem = true → ∀ (t : State), execNbrSet v s = Host.Outcome.next t → Memory.wf t.mem = true := by
  intros; unfold execNbrSet at *; rename_i h; injection h with h; subst h; repeat' (first | with_reducible assumption | with_reducible apply serve_mem | with_reducible apply nbrSet_mem)
theorem execNbrGet_mem : ∀ (v : Srv) (s : State), Memory.wf s.mem = true → ∀ (t : State), execNbrGet v s = Host.Outcome.next t → Memory.wf t.mem = true := by
  intros; unfold execNbrGet at *; rename_i h; injection h with h; subst h; repeat' (first | with_reducible assumption | with_reducible apply serve_mem | with_reducible apply nbrGet_mem)
theorem execNbrFind_mem : ∀ (v : Srv) (s : State), Memory.wf s.mem = true → ∀ (t : State), execNbrFind v s = Host.Outcome.next t → Memory.wf t.mem = true := by
  intros; unfold execNbrFind at *; rename_i h; injection h with h; subst h; repeat' (first | with_reducible assumption | with_reducible apply serve_mem | with_reducible apply nbrFind_mem)
theorem execRouteSet_mem : ∀ (v : Srv) (s : State), Memory.wf s.mem = true → ∀ (t : State), execRouteSet v s = Host.Outcome.next t → Memory.wf t.mem = true := by
  intros; unfold execRouteSet at *; rename_i h; injection h with h; subst h; repeat' (first | with_reducible assumption | with_reducible apply serve_mem | with_reducible apply routeSet_mem)
theorem execRouteGet_mem : ∀ (v : Srv) (s : State), Memory.wf s.mem = true → ∀ (t : State), execRouteGet v s = Host.Outcome.next t → Memory.wf t.mem = true := by
  intros; unfold execRouteGet at *; rename_i h; injection h with h; subst h; repeat' (first | with_reducible assumption | with_reducible apply serve_mem | with_reducible apply routeGet_mem)
theorem execRouteLookup_mem : ∀ (v : Srv) (s : State), Memory.wf s.mem = true → ∀ (t : State), execRouteLookup v s = Host.Outcome.next t → Memory.wf t.mem = true := by
  intros; unfold execRouteLookup at *; rename_i h; injection h with h; subst h; repeat' (first | with_reducible assumption | with_reducible apply serve_mem | with_reducible apply routeLookup_mem)
theorem execLinkJoin_mem : ∀ (v : Srv) (s : State), Memory.wf s.mem = true → ∀ (t : State), execLinkJoin v s = Host.Outcome.next t → Memory.wf t.mem = true := by
  intros; unfold execLinkJoin at *; rename_i h; injection h with h; subst h; repeat' (first | with_reducible assumption | with_reducible apply serve_mem | with_reducible apply linkJoin_mem)
theorem execLinkJoinReply_mem : ∀ (v : Srv) (s : State), Memory.wf s.mem = true → ∀ (t : State), execLinkJoinReply v s = Host.Outcome.next t → Memory.wf t.mem = true := by
  intros; unfold execLinkJoinReply at *; rename_i h; injection h with h; subst h; repeat' (first | with_reducible assumption | with_reducible apply serve_mem | with_reducible apply linkJoinReply_mem)
theorem execLinkStatsGet_mem : ∀ (v : Srv) (s : State), Memory.wf s.mem = true → ∀ (t : State), execLinkStatsGet v s = Host.Outcome.next t → Memory.wf t.mem = true := by
  intros; unfold execLinkStatsGet at *; rename_i h; injection h with h; subst h; repeat' (first | with_reducible assumption | with_reducible apply serve_mem | with_reducible apply linkStatsGet_mem)
theorem execJoinReqInterval_mem : ∀ (s : State), Memory.wf s.mem = true → ∀ (t : State), execJoinReqInterval s = Host.Outcome.next t → Memory.wf t.mem = true := by
  intro s h t ht
  injection ht with ht; subst ht
  split
  · exact h
  split
  · exact h
  · refine linkKick_mem _ (updLink_mem _ _ ?_)
    rename_i j _ _
    cases hf : sendJoinReq j s with
    | none => exact h
    | some r => exact sendJoinReq_mem _ _ h _ hf
theorem execJoinTimeout_mem : ∀ (s : State), Memory.wf s.mem = true → ∀ (t : State), execJoinTimeout s = Host.Outcome.next t → Memory.wf t.mem = true := by
  intros; unfold execJoinTimeout at *; rename_i h; injection h with h; subst h; repeat' (first | with_reducible assumption | with_reducible apply linkKick_mem | with_reducible apply joinEnd_mem | split)
theorem execFrameReceive_mem : ∀ (rx : Nat) (s : State), Memory.wf s.mem = true → ∀ (t : State), execFrameReceive rx s = Host.Outcome.next t → Memory.wf t.mem = true := by
  intros; unfold execFrameReceive at *; rename_i h; injection h with h; subst h; repeat' (first | with_reducible assumption | with_reducible apply linkKick_mem | with_reducible apply closeRx_mem | with_reducible apply receiveFrame_mem | with_reducible apply mem_ite | split)
theorem execAckDecision_mem : ∀ (rx : Nat) (s : State), Memory.wf s.mem = true → ∀ (t : State), execAckDecision rx s = Host.Outcome.next t → Memory.wf t.mem = true := by
  intros; unfold execAckDecision at *; rename_i h; injection h with h; subst h; repeat' (first | with_reducible assumption | with_reducible apply linkKick_mem | with_reducible apply decideAck_mem | split)
theorem execMicResult_mem : ∀ (rx : Nat) (ecc : PopEcc) (s : State), Memory.wf s.mem = true → ∀ (t : State), execMicResult rx ecc s = Host.Outcome.next t → Memory.wf t.mem = true := by
  intros; unfold execMicResult at *; rename_i h; injection h with h; subst h; repeat' (first | with_reducible assumption | with_reducible apply linkKick_mem | with_reducible apply micEnds_mem | split)
theorem execPendHoldEnd_mem : ∀ (s : State), Memory.wf s.mem = true → ∀ (t : State), execPendHoldEnd s = Host.Outcome.next t → Memory.wf t.mem = true := by
  intros; unfold execPendHoldEnd at *; rename_i h; injection h with h; subst h; repeat' (first | with_reducible assumption | with_reducible apply radioKick_mem | with_reducible apply updRadio_mem | split)
theorem endTaken_mem : ∀ (r : Released) (outcome : Nat) (s : State), Memory.wf s.mem = true → Memory.wf (endTaken r outcome s).mem = true := by
  intros; unfold endTaken; repeat' (first | with_reducible assumption | with_reducible apply linkStat_mem | with_reducible apply releaseCells_mem | with_reducible apply fresh_mem | with_reducible apply txDone_mem | split)
theorem execLinkTakeFrame_mem : ∀ (flow : Nat) (ecc : PopEcc) (s : State), Memory.wf s.mem = true → ∀ (t : State), execLinkTakeFrame flow ecc s = Host.Outcome.next t → Memory.wf t.mem = true := by
  intros; unfold execLinkTakeFrame at *; rename_i h; injection h with h; subst h; dsimp only; repeat' (first | with_reducible assumption | with_reducible apply updLink_mem | with_reducible apply readEcc_mem | with_reducible apply linkKick_mem | with_reducible apply releaseCells_mem | with_reducible apply qmStat_mem | with_reducible apply endTaken_mem | with_reducible apply updNbr_mem | with_reducible apply secureFlight_mem | with_reducible apply mem_ite | split)
theorem execAckReceive_mem : ∀ (rx : Nat) (s : State), Memory.wf s.mem = true → ∀ (t : State), execAckReceive rx s = Host.Outcome.next t → Memory.wf t.mem = true := by
  intros; unfold execAckReceive at *; rename_i h; injection h with h; subst h; repeat' (first | with_reducible assumption | with_reducible apply linkKick_mem | with_reducible apply ackReceived_mem | split)
theorem execAckWaitExpiry_mem : ∀ (s : State), Memory.wf s.mem = true → ∀ (t : State), execAckWaitExpiry s = Host.Outcome.next t → Memory.wf t.mem = true := by
  intros; unfold execAckWaitExpiry at *; rename_i h; injection h with h; subst h; repeat' (first | with_reducible assumption | with_reducible apply linkKick_mem | with_reducible apply attemptFailed_mem | with_reducible apply updRadio_mem | split)
theorem execRetryBackoffEnd_mem : ∀ (flight : Nat) (s : State), Memory.wf s.mem = true → ∀ (t : State), execRetryBackoffEnd flight s = Host.Outcome.next t → Memory.wf t.mem = true := by
  intros; unfold execRetryBackoffEnd at *; rename_i h; injection h with h; subst h; repeat' (first | with_reducible assumption | with_reducible apply linkKick_mem | with_reducible apply updFlight_mem | split)
theorem execLinkDrop_mem : ∀ (s : State), Memory.wf s.mem = true → ∀ (t : State), execLinkDrop s = Host.Outcome.next t → Memory.wf t.mem = true := by
  intros; unfold execLinkDrop at *; rename_i h; injection h with h; subst h; repeat' (first | with_reducible assumption | with_reducible apply raise_mem | with_reducible apply updLink_mem | with_reducible apply mem_ite)
theorem execFcReserveWrite_mem : ∀ (slot : Nat) (fail : Option Nat) (s : State), Memory.wf s.mem = true → ∀ (t : State), execFcReserveWrite slot fail s = Host.Outcome.next t → Memory.wf t.mem = true := by
  intros; unfold execFcReserveWrite at *; rename_i h; injection h with h; subst h; repeat' (first | with_reducible assumption | with_reducible apply linkKick_mem | with_reducible apply reserveWritten_mem | split)
theorem execFcReserveRetry_mem : ∀ (s : State), Memory.wf s.mem = true → ∀ (t : State), execFcReserveRetry s = Host.Outcome.next t → Memory.wf t.mem = true := by
  intros; unfold execFcReserveRetry at *; rename_i h; injection h with h; subst h; repeat' (first | with_reducible assumption | with_reducible apply reserveRetry_mem | split)
theorem execDrbgReseed_mem : ∀ (mask : Bool) (s : State), Memory.wf s.mem = true → ∀ (t : State), execDrbgReseed mask s = Host.Outcome.next t → Memory.wf t.mem = true := by
  intros; unfold execDrbgReseed at *; rename_i h; injection h with h; subst h; repeat' (first | with_reducible assumption | with_reducible apply linkKick_mem | with_reducible apply reseed_mem | with_reducible apply mem_ite | with_reducible apply mem_ite_res | with_reducible intro _ | split)
theorem execBucketRoll_mem : ∀ (s : State), Memory.wf s.mem = true → ∀ (t : State), execBucketRoll s = Host.Outcome.next t → Memory.wf t.mem = true := by
  intros; unfold execBucketRoll at *; rename_i h; injection h with h; subst h; repeat' (first | with_reducible assumption | with_reducible apply linkKick_mem | with_reducible apply updTally_mem | split)

end Sys2Proof.Machine
end

