-- ==== Sys2Proof/Laws/MemoryPower.lean ====
section
/-! SUPPORT. The canonical form of memory is kept by the timed rows, power, clocks, updates and start-up: one lemma an operation, cited by name. -/

set_option Elab.async false
set_option linter.all false

namespace Sys2Proof.Machine

theorem beginFlight_mem : ∀ (id start : Nat) (s : State), Memory.wf s.mem = true → Memory.wf (beginFlight id start s).mem = true := by
  intros; unfold beginFlight; repeat' (first | with_reducible assumption | with_reducible apply updFlight_mem | with_reducible apply linkStat_mem | with_reducible apply updNbr_mem | with_reducible apply mem_ite | split)
theorem beginSender_mem : ∀ (q : TxReq) (start : Nat) (s : State), Memory.wf s.mem = true → Memory.wf (beginSender q start s).mem = true := by
  intros; unfold beginSender; repeat' (first | with_reducible assumption | with_reducible apply beginFlight_mem | with_reducible apply updCanary_mem | with_reducible apply updRadio_mem | split)
theorem radiate_mem : ∀ (s : State), Memory.wf s.mem = true → Memory.wf (radiate s).mem = true := by
  intro s h
  unfold radiate
  cases s.radio.onAir with
  | none => exact h
  | some q => dsimp only; cases airOf s q <;> exact h
theorem execTxStart_mem : ∀ (vbat : Nat) (temp : Int) (s : State), Memory.wf s.mem = true → ∀ (t : State), execTxStart vbat temp s = Host.Outcome.next t → Memory.wf t.mem = true := by
  intros; unfold execTxStart at *; rename_i h; injection h with h; subst h; repeat' (first | with_reducible assumption | with_reducible apply linkKick_mem | with_reducible apply radiate_mem | with_reducible apply beginSender_mem | with_reducible apply radioStart_mem | with_reducible apply canaryBlank_mem | split)
theorem execTxEnd_mem : ∀ (s : State), Memory.wf s.mem = true → ∀ (t : State), execTxEnd s = Host.Outcome.next t → Memory.wf t.mem = true := by
  intros; unfold execTxEnd at *; rename_i h; injection h with h; subst h; repeat' (first | with_reducible assumption | with_reducible apply tallyEnd_mem | with_reducible apply updRadio_mem | with_reducible apply linkKick_mem | with_reducible apply updFlight_mem | with_reducible apply endFlight_mem | with_reducible apply ackSent_mem | with_reducible apply mem_ite | split)
theorem txAbandoned_mem : ∀ (q : TxReq) (s : State), Memory.wf s.mem = true → Memory.wf (txAbandoned q s).mem = true := by
  intros; unfold txAbandoned; repeat' (first | with_reducible assumption | with_reducible apply attemptFailed_mem | with_reducible apply ackAbandoned_mem | with_reducible apply wakeDone_mem | with_reducible apply resyncPostpone_mem | with_reducible apply complete_mem | with_reducible apply updRadio_mem | split)
theorem abandonTold_mem : ∀ (s : State), Memory.wf s.mem = true → Memory.wf (abandonTold s).mem = true := by
  intros; unfold abandonTold; repeat' (first | with_reducible assumption | with_reducible apply txAbandoned_mem | with_reducible apply abandonHeld_mem | split)
theorem execTxLate_mem : ∀ (s : State), Memory.wf s.mem = true → ∀ (t : State), execTxLate s = Host.Outcome.next t → Memory.wf t.mem = true := by
  intros; unfold execTxLate at *; rename_i h; injection h with h; subst h; repeat' (first | with_reducible assumption | with_reducible apply linkKick_mem | with_reducible apply abandonTold_mem | split)
theorem execLbtListenEnd_mem : ∀ (rssiA rssiB : Int) (s : State), Memory.wf s.mem = true → ∀ (t : State), execLbtListenEnd rssiA rssiB s = Host.Outcome.next t → Memory.wf t.mem = true := by
  intros; unfold execLbtListenEnd at *; rename_i h; injection h with h; subst h; repeat' (first | with_reducible assumption | with_reducible apply linkKick_mem | with_reducible apply updRadio_mem | with_reducible apply updBand_mem | with_reducible apply abandonTold_mem | with_reducible apply fresh_mem | with_reducible apply genUse_mem | with_reducible apply mem_ite | split)
theorem execLbtBackoffEnd_mem : ∀ (s : State), Memory.wf s.mem = true → ∀ (t : State), execLbtBackoffEnd s = Host.Outcome.next t → Memory.wf t.mem = true := by
  intros; unfold execLbtBackoffEnd at *; rename_i h; injection h with h; subst h; repeat' (first | with_reducible assumption | with_reducible apply radioKick_mem | with_reducible apply updRadio_mem | split)
theorem testDone_mem : ∀ (t : TestTx) (us : Nat) (s : State), Memory.wf s.mem = true → Memory.wf (testDone t us s).mem = true := by
  intros; unfold testDone; repeat' (first | with_reducible assumption | with_reducible apply linkKick_mem | with_reducible apply complete_mem | with_reducible apply updRadio_mem)
theorem radioTestStop_mem : ∀ (a : Ctx) (a_1 : List Byte) (a_2 : State), Memory.wf a_2.mem = true → Memory.wf (radioTestStop a a_1 a_2).s.mem = true := by
  intros; unfold radioTestStop; repeat' (first | with_reducible assumption | with_reducible apply badR_mem | with_reducible apply okR_mem | with_reducible apply testDone_mem | with_reducible apply tallyCut_mem | with_reducible apply updRadio_mem | with_reducible apply tallyRelease_mem | split)
theorem execRadioTestStop_mem : ∀ (v : Srv) (s : State), Memory.wf s.mem = true → ∀ (t : State), execRadioTestStop v s = Host.Outcome.next t → Memory.wf t.mem = true := by
  intros; unfold execRadioTestStop at *; rename_i h; injection h with h; subst h; repeat' (first | with_reducible assumption | with_reducible apply serve_mem | with_reducible apply radioTestStop_mem)
theorem execTestTxEnd_mem : ∀ (s : State), Memory.wf s.mem = true → ∀ (t : State), execTestTxEnd s = Host.Outcome.next t → Memory.wf t.mem = true := by
  intros; unfold execTestTxEnd at *; rename_i h; injection h with h; subst h; repeat' (first | with_reducible assumption | with_reducible apply testDone_mem | with_reducible apply tallyEnd_mem | with_reducible apply updRadio_mem | split)
theorem execLockTimeout_mem : ∀ (s : State), Memory.wf s.mem = true → ∀ (t : State), execLockTimeout s = Host.Outcome.next t → Memory.wf t.mem = true := by
  intros; unfold execLockTimeout at *; rename_i h; injection h with h; subst h; repeat' (first | with_reducible assumption | with_reducible apply lanesBlank_mem | with_reducible apply updRadio_mem | with_reducible apply abandonTold_mem | with_reducible apply raise_mem | with_reducible apply mem_ite)
theorem deliverLane_mem : ∀ (lane : Nat) (f : LaneFrame) (r : LaneRes) (s : State), Memory.wf s.mem = true → Memory.wf (deliverLane lane f r s).mem = true := by
  intros; unfold deliverLane; repeat' (first | with_reducible assumption | with_reducible apply laneStat_mem | with_reducible apply allocCells_mem | with_reducible apply updLink_mem | with_reducible apply updLane_mem | with_reducible apply updLanes_mem | with_reducible apply mem_ite)
theorem execLaneFcsResult_mem : ∀ (lane : Nat) (r : LaneRes) (s : State), Memory.wf s.mem = true → ∀ (t : State), execLaneFcsResult lane r s = Host.Outcome.next t → Memory.wf t.mem = true := by
  intros; unfold execLaneFcsResult at *; rename_i h; injection h with h; subst h; repeat' (first | with_reducible assumption | with_reducible apply linkKick_mem | with_reducible apply updLane_mem | with_reducible apply laneStat_mem | with_reducible apply attemptFailed_mem | with_reducible apply updRadio_mem | with_reducible apply deliverLane_mem | with_reducible apply mem_ite | split)
theorem canarySend_mem : ∀ (a : Ctx) (a_1 : List Byte) (a_2 : State), Memory.wf a_2.mem = true → Memory.wf (canarySend a a_1 a_2).s.mem = true := by
  intros; unfold canarySend; repeat' (first | with_reducible assumption | with_reducible apply guardR_mem | with_reducible apply modeR_mem | with_reducible apply busyR_mem | with_reducible apply pendR_mem | with_reducible apply linkKick_mem | with_reducible apply updCanary_mem | with_reducible apply mem_ite_res | with_reducible intro _)
theorem execCanarySend_mem : ∀ (v : Srv) (s : State), Memory.wf s.mem = true → ∀ (t : State), execCanarySend v s = Host.Outcome.next t → Memory.wf t.mem = true := by
  intros; unfold execCanarySend at *; rename_i h; injection h with h; subst h; repeat' (first | with_reducible assumption | with_reducible apply serve_mem | with_reducible apply canarySend_mem)
theorem execCanarySendEnd_mem : ∀ (s : State), Memory.wf s.mem = true → ∀ (t : State), execCanarySendEnd s = Host.Outcome.next t → Memory.wf t.mem = true := by
  intros; unfold execCanarySendEnd at *; rename_i h; injection h with h; subst h; repeat' (first | with_reducible assumption | with_reducible apply wakeDone_mem | with_reducible apply tallyEnd_mem | with_reducible apply updRadio_mem | with_reducible apply linkKick_mem | with_reducible apply putResync_mem | split)
theorem timingStateGet_mem : ∀ (a : Ctx) (a_1 : List Byte) (a_2 : State), Memory.wf a_2.mem = true → Memory.wf (timingStateGet a a_1 a_2).s.mem = true := by
  intros; simp_all [timingStateGet, okR_mem]
theorem timingCfgGet_mem : ∀ (a : Ctx) (a_1 : List Byte) (a_2 : State), Memory.wf a_2.mem = true → Memory.wf (timingCfgGet a a_1 a_2).s.mem = true := by
  intros; simp_all [timingCfgGet, okR_mem]
theorem timingCfgSet_mem : ∀ (a : Ctx) (a_1 : List Byte) (a_2 : State), Memory.wf a_2.mem = true → Memory.wf (timingCfgSet a a_1 a_2).s.mem = true := by
  intros; unfold timingCfgSet; repeat' (first | with_reducible assumption | with_reducible apply guardR_mem | with_reducible apply updTiming_mem | with_reducible apply calRefresh_mem | with_reducible apply ownRestart_mem | with_reducible apply persistR_mem | with_reducible apply okR_mem | with_reducible intro _ | split)
theorem retuneWindows_mem : ∀ (q : Nat) (s : State), Memory.wf s.mem = true → Memory.wf (retuneWindows q s).mem = true := by
  intros; simp_all [retuneWindows, updLink_mem]
theorem timingChseqSet_mem : ∀ (a : Ctx) (a_1 : List Byte) (a_2 : State), Memory.wf a_2.mem = true → Memory.wf (timingChseqSet a a_1 a_2).s.mem = true := by
  intros; unfold timingChseqSet; repeat' (first | with_reducible assumption | with_reducible apply guardR_mem | with_reducible apply updTiming_mem | with_reducible apply retuneWindows_mem | with_reducible apply persistR_mem | with_reducible apply okR_mem | with_reducible intro _)
theorem timingChseqGet_mem : ∀ (a : Ctx) (a_1 : List Byte) (a_2 : State), Memory.wf a_2.mem = true → Memory.wf (timingChseqGet a a_1 a_2).s.mem = true := by
  intros; simp_all [timingChseqGet, guardR_mem, okR_mem]
theorem timingNbrGet_mem : ∀ (a : Ctx) (a_1 : List Byte) (a_2 : State), Memory.wf a_2.mem = true → Memory.wf (timingNbrGet a a_1 a_2).s.mem = true := by
  intros; simp_all [timingNbrGet, guardR_mem, okR_mem]
theorem timingMtimeSet_mem : ∀ (a : Ctx) (a_1 : List Byte) (a_2 : State), Memory.wf a_2.mem = true → Memory.wf (timingMtimeSet a a_1 a_2).s.mem = true := by
  intros; unfold timingMtimeSet; repeat' (first | with_reducible assumption | with_reducible apply guardR_mem | with_reducible apply errR_mem | with_reducible apply okR_mem | with_reducible apply linkKick_mem | with_reducible apply requestStep_mem | with_reducible intro _ | split)
theorem timingBeacon_mem : ∀ (a : Ctx) (a_1 : List Byte) (a_2 : State), Memory.wf a_2.mem = true → Memory.wf (timingBeacon a a_1 a_2).s.mem = true := by
  intro c p s h; unfold timingBeacon
  refine guardR_mem _ _ _ h (fun _ => ?_)
  dsimp only; split
  · exact modeR_mem _ h
  split
  · exact errR_mem _ _ _ h
  · refine pendR_mem _ _ _ h (fun slot => ?_)
    split
    · rename_i hf; exact linkKick_mem _ (beaconTo_mem _ _ _ _ _ h _ hf)
    · exact h
theorem timingResync_mem : ∀ (a : Ctx) (a_1 : List Byte) (a_2 : State), Memory.wf a_2.mem = true → Memory.wf (timingResync a a_1 a_2).s.mem = true := by
  intros; unfold timingResync; repeat' (first | with_reducible assumption | with_reducible apply guardR_mem | with_reducible apply modeR_mem | with_reducible apply pendR_mem | with_reducible apply linkKick_mem | with_reducible apply resyncStart_mem | with_reducible intro _ | split)
theorem timingStatsGet_mem : ∀ (a : Ctx) (a_1 : List Byte) (a_2 : State), Memory.wf a_2.mem = true → Memory.wf (timingStatsGet a a_1 a_2).s.mem = true := by
  intros; unfold timingStatsGet; repeat' (first | with_reducible assumption | with_reducible apply guardR_mem | with_reducible apply okR_mem | with_reducible apply timingStat_mem | with_reducible intro _ | split)
theorem execTimingStateGet_mem : ∀ (v : Srv) (s : State), Memory.wf s.mem = true → ∀ (t : State), execTimingStateGet v s = Host.Outcome.next t → Memory.wf t.mem = true := by
  intros; unfold execTimingStateGet at *; rename_i h; injection h with h; subst h; repeat' (first | with_reducible assumption | with_reducible apply serve_mem | with_reducible apply timingStateGet_mem)
theorem execTimingCfgSet_mem : ∀ (v : Srv) (s : State), Memory.wf s.mem = true → ∀ (t : State), execTimingCfgSet v s = Host.Outcome.next t → Memory.wf t.mem = true := by
  intros; unfold execTimingCfgSet at *; rename_i h; injection h with h; subst h; repeat' (first | with_reducible assumption | with_reducible apply serve_mem | with_reducible apply timingCfgSet_mem)
theorem execTimingCfgGet_mem : ∀ (v : Srv) (s : State), Memory.wf s.mem = true → ∀ (t : State), execTimingCfgGet v s = Host.Outcome.next t → Memory.wf t.mem = true := by
  intros; unfold execTimingCfgGet at *; rename_i h; injection h with h; subst h; repeat' (first | with_reducible assumption | with_reducible apply serve_mem | with_reducible apply timingCfgGet_mem)
theorem execTimingChseqSet_mem : ∀ (v : Srv) (s : State), Memory.wf s.mem = true → ∀ (t : State), execTimingChseqSet v s = Host.Outcome.next t → Memory.wf t.mem = true := by
  intros; unfold execTimingChseqSet at *; rename_i h; injection h with h; subst h; repeat' (first | with_reducible assumption | with_reducible apply serve_mem | with_reducible apply timingChseqSet_mem)
theorem execTimingChseqGet_mem : ∀ (v : Srv) (s : State), Memory.wf s.mem = true → ∀ (t : State), execTimingChseqGet v s = Host.Outcome.next t → Memory.wf t.mem = true := by
  intros; unfold execTimingChseqGet at *; rename_i h; injection h with h; subst h; repeat' (first | with_reducible assumption | with_reducible apply serve_mem | with_reducible apply timingChseqGet_mem)
theorem execTimingNbrGet_mem : ∀ (v : Srv) (s : State), Memory.wf s.mem = true → ∀ (t : State), execTimingNbrGet v s = Host.Outcome.next t → Memory.wf t.mem = true := by
  intros; unfold execTimingNbrGet at *; rename_i h; injection h with h; subst h; repeat' (first | with_reducible assumption | with_reducible apply serve_mem | with_reducible apply timingNbrGet_mem)
theorem execTimingMtimeSet_mem : ∀ (v : Srv) (s : State), Memory.wf s.mem = true → ∀ (t : State), execTimingMtimeSet v s = Host.Outcome.next t → Memory.wf t.mem = true := by
  intros; unfold execTimingMtimeSet at *; rename_i h; injection h with h; subst h; repeat' (first | with_reducible assumption | with_reducible apply serve_mem | with_reducible apply timingMtimeSet_mem)
theorem execTimingBeacon_mem : ∀ (v : Srv) (s : State), Memory.wf s.mem = true → ∀ (t : State), execTimingBeacon v s = Host.Outcome.next t → Memory.wf t.mem = true := by
  intros; unfold execTimingBeacon at *; rename_i h; injection h with h; subst h; repeat' (first | with_reducible assumption | with_reducible apply serve_mem | with_reducible apply timingBeacon_mem)
theorem execTimingResync_mem : ∀ (v : Srv) (s : State), Memory.wf s.mem = true → ∀ (t : State), execTimingResync v s = Host.Outcome.next t → Memory.wf t.mem = true := by
  intros; unfold execTimingResync at *; rename_i h; injection h with h; subst h; repeat' (first | with_reducible assumption | with_reducible apply serve_mem | with_reducible apply timingResync_mem)
theorem execTimingStatsGet_mem : ∀ (v : Srv) (s : State), Memory.wf s.mem = true → ∀ (t : State), execTimingStatsGet v s = Host.Outcome.next t → Memory.wf t.mem = true := by
  intros; unfold execTimingStatsGet at *; rename_i h; injection h with h; subst h; repeat' (first | with_reducible assumption | with_reducible apply serve_mem | with_reducible apply timingStatsGet_mem)
theorem execMtimeStep_mem : ∀ (s : State), Memory.wf s.mem = true → ∀ (t : State), execMtimeStep s = Host.Outcome.next t → Memory.wf t.mem = true := by
  intro s h t ht
  injection ht with ht; subst ht
  split
  · exact h
  · exact linkKick_mem _ (mem_foldl _ (fun a x ha => applyStep_mem _ _ _ ha) _ _ (updTiming_mem _ _ h))
theorem execCalendarOverflowMove_mem : ∀ (s : State), Memory.wf s.mem = true → ∀ (t : State), execCalendarOverflowMove s = Host.Outcome.next t → Memory.wf t.mem = true := by
  intros; unfold execCalendarOverflowMove at *; rename_i h; injection h with h; subst h; repeat' (first | with_reducible assumption | with_reducible apply calRefresh_mem)
theorem execOwnWindowOpen_mem : ∀ (s : State), Memory.wf s.mem = true → ∀ (t : State), execOwnWindowOpen s = Host.Outcome.next t → Memory.wf t.mem = true := by
  intros; unfold execOwnWindowOpen at *; rename_i h; injection h with h; subst h; repeat' (first | with_reducible assumption | with_reducible apply updTiming_mem | with_reducible apply timingStat_mem | with_reducible apply linkKick_mem | with_reducible apply mem_ite | split)
theorem countWindow_mem : ∀ (w : OwnWindow) (s : State), Memory.wf s.mem = true → Memory.wf (countWindow w s).mem = true := by
  intros; unfold countWindow; dsimp only; repeat' (first | with_reducible assumption | with_reducible apply timingStat_mem | with_reducible apply updNbr_mem | with_reducible apply nbrDown_mem | with_reducible apply becomeLost_mem | with_reducible apply mem_ite | split)
theorem execOwnWindowClose_mem : ∀ (s : State), Memory.wf s.mem = true → ∀ (t : State), execOwnWindowClose s = Host.Outcome.next t → Memory.wf t.mem = true := by
  intros; unfold execOwnWindowClose at *; rename_i h; injection h with h; subst h; repeat' (first | with_reducible assumption | with_reducible apply linkKick_mem | with_reducible apply countWindow_mem | with_reducible apply updTiming_mem | split)
theorem execKeepaliveBeacon_mem : ∀ (nbr : Nat) (s : State), Memory.wf s.mem = true → ∀ (t : State), execKeepaliveBeacon nbr s = Host.Outcome.next t → Memory.wf t.mem = true := by
  intro n s h t ht
  unfold execKeepaliveBeacon at ht
  injection ht with ht
  subst ht
  dsimp only
  split
  · exact h
  split
  · exact h
  cases hb : beaconTo .keepalive (some n) s.radio.home true s with
  | none => exact h
  | some t => exact linkKick_mem _ (beaconTo_mem _ _ _ _ _ h _ hb)
theorem execResyncBeacon_mem : ∀ (nbr : Nat) (s : State), Memory.wf s.mem = true → ∀ (t : State), execResyncBeacon nbr s = Host.Outcome.next t → Memory.wf t.mem = true := by
  intro n s h t ht
  unfold execResyncBeacon at ht
  injection ht with ht
  subst ht
  split
  · exact h
  dsimp only
  split
  · exact h
  split
  · rename_i hb; exact linkKick_mem _ (beaconTo_mem _ _ _ _ _ (putResync_mem _ _ h) _ hb)
  · exact resyncPostpone_mem _ _ _ h
theorem execResyncInterval_mem : ∀ (nbr : Nat) (s : State), Memory.wf s.mem = true → ∀ (t : State), execResyncInterval nbr s = Host.Outcome.next t → Memory.wf t.mem = true := by
  intros; unfold execResyncInterval at *; rename_i h; injection h with h; subst h; repeat' (first | with_reducible assumption | with_reducible apply linkKick_mem | with_reducible apply resyncStart_mem | split)
theorem execResyncListenEnd_mem : ∀ (s : State), Memory.wf s.mem = true → ∀ (t : State), execResyncListenEnd s = Host.Outcome.next t → Memory.wf t.mem = true := by
  intros; unfold execResyncListenEnd at *; rename_i h; injection h with h; subst h; repeat' (first | with_reducible assumption | with_reducible apply linkKick_mem | with_reducible apply updTiming_mem | split)
theorem qmStateGet_mem : ∀ (a : Ctx) (a_1 : List Byte) (a_2 : State), Memory.wf a_2.mem = true → Memory.wf (qmStateGet a a_1 a_2).s.mem = true := by
  intros; simp_all [qmStateGet, okR_mem]
theorem turnTx_mem : ∀ (q : Nat) (s : State), Memory.wf s.mem = true → Memory.wf (turnTx q s).mem = true := by
  intros; unfold turnTx; repeat' (first | with_reducible assumption | with_reducible apply endStallsEmpty_mem | with_reducible apply updQueue_mem | split)
theorem queueSet_mem : ∀ (a : Ctx) (a_1 : List Byte) (a_2 : State), Memory.wf a_2.mem = true → Memory.wf (queueSet a a_1 a_2).s.mem = true := by
  intros; unfold queueSet; repeat' (first | with_reducible assumption | with_reducible apply guardR_mem | with_reducible apply updQueue_mem | with_reducible apply turnTx_mem | with_reducible apply serveStalls_mem | with_reducible apply linkKick_mem | with_reducible apply persistR_mem | with_reducible apply okR_mem | with_reducible apply mem_ite | with_reducible intro _)
theorem queueGet_mem : ∀ (a : Ctx) (a_1 : List Byte) (a_2 : State), Memory.wf a_2.mem = true → Memory.wf (queueGet a a_1 a_2).s.mem = true := by
  intros; simp_all [queueGet, guardR_mem, okR_mem]
theorem queueStatusGet_mem : ∀ (a : Ctx) (a_1 : List Byte) (a_2 : State), Memory.wf a_2.mem = true → Memory.wf (queueStatusGet a a_1 a_2).s.mem = true := by
  intros; simp_all [queueStatusGet, guardR_mem, okR_mem]
theorem qmCfgSet_mem : ∀ (a : Ctx) (a_1 : List Byte) (a_2 : State), Memory.wf a_2.mem = true → Memory.wf (qmCfgSet a a_1 a_2).s.mem = true := by
  intros; unfold qmCfgSet; repeat' (first | with_reducible assumption | with_reducible apply guardR_mem | with_reducible apply updQm_mem | with_reducible apply persistR_mem | with_reducible apply okR_mem | with_reducible intro _)
theorem qmCfgGet_mem : ∀ (a : Ctx) (a_1 : List Byte) (a_2 : State), Memory.wf a_2.mem = true → Memory.wf (qmCfgGet a a_1 a_2).s.mem = true := by
  intros; simp_all [qmCfgGet, okR_mem]
theorem flushQueue_mem : ∀ (q : Nat) (s : State), Memory.wf s.mem = true → Memory.wf (flushQueue q s).mem = true := by
  intros; unfold flushQueue; repeat' (first | with_reducible assumption | with_reducible apply releaseCells_mem | with_reducible apply updQueue_mem | with_reducible apply qmStat_mem)
theorem queueFlush_mem : ∀ (a : Ctx) (a_1 : List Byte) (a_2 : State), Memory.wf a_2.mem = true → Memory.wf (queueFlush a a_1 a_2).s.mem = true := by
  intros; unfold queueFlush; repeat' (first | with_reducible assumption | with_reducible apply guardR_mem | with_reducible apply okR_mem | with_reducible apply linkKick_mem | with_reducible apply flushQueue_mem | with_reducible intro _)
theorem qmClear_mem : ∀ (s : State), Memory.wf s.mem = true → Memory.wf (qmClear s).mem = true := by
  intros; simp_all [qmClear, updQm_mem]
theorem qmStatsGet_mem : ∀ (a : Ctx) (a_1 : List Byte) (a_2 : State), Memory.wf a_2.mem = true → Memory.wf (qmStatsGet a a_1 a_2).s.mem = true := by
  intros; unfold qmStatsGet; repeat' (first | with_reducible assumption | with_reducible apply guardR_mem | with_reducible apply okR_mem | with_reducible apply qmClear_mem | with_reducible intro _ | split)
theorem execQmStateGet_mem : ∀ (v : Srv) (s : State), Memory.wf s.mem = true → ∀ (t : State), execQmStateGet v s = Host.Outcome.next t → Memory.wf t.mem = true := by
  intros; unfold execQmStateGet at *; rename_i h; injection h with h; subst h; repeat' (first | with_reducible assumption | with_reducible apply serve_mem | with_reducible apply qmStateGet_mem)
theorem execQueueSet_mem : ∀ (v : Srv) (s : State), Memory.wf s.mem = true → ∀ (t : State), execQueueSet v s = Host.Outcome.next t → Memory.wf t.mem = true := by
  intros; unfold execQueueSet at *; rename_i h; injection h with h; subst h; repeat' (first | with_reducible assumption | with_reducible apply serve_mem | with_reducible apply queueSet_mem)
theorem execQueueGet_mem : ∀ (v : Srv) (s : State), Memory.wf s.mem = true → ∀ (t : State), execQueueGet v s = Host.Outcome.next t → Memory.wf t.mem = true := by
  intros; unfold execQueueGet at *; rename_i h; injection h with h; subst h; repeat' (first | with_reducible assumption | with_reducible apply serve_mem | with_reducible apply queueGet_mem)
theorem execQueueStatusGet_mem : ∀ (v : Srv) (s : State), Memory.wf s.mem = true → ∀ (t : State), execQueueStatusGet v s = Host.Outcome.next t → Memory.wf t.mem = true := by
  intros; unfold execQueueStatusGet at *; rename_i h; injection h with h; subst h; repeat' (first | with_reducible assumption | with_reducible apply serve_mem | with_reducible apply queueStatusGet_mem)
theorem execQmCfgSet_mem : ∀ (v : Srv) (s : State), Memory.wf s.mem = true → ∀ (t : State), execQmCfgSet v s = Host.Outcome.next t → Memory.wf t.mem = true := by
  intros; unfold execQmCfgSet at *; rename_i h; injection h with h; subst h; repeat' (first | with_reducible assumption | with_reducible apply serve_mem | with_reducible apply qmCfgSet_mem)
theorem execQmCfgGet_mem : ∀ (v : Srv) (s : State), Memory.wf s.mem = true → ∀ (t : State), execQmCfgGet v s = Host.Outcome.next t → Memory.wf t.mem = true := by
  intros; unfold execQmCfgGet at *; rename_i h; injection h with h; subst h; repeat' (first | with_reducible assumption | with_reducible apply serve_mem | with_reducible apply qmCfgGet_mem)
theorem execQueueFlush_mem : ∀ (v : Srv) (s : State), Memory.wf s.mem = true → ∀ (t : State), execQueueFlush v s = Host.Outcome.next t → Memory.wf t.mem = true := by
  intros; unfold execQueueFlush at *; rename_i h; injection h with h; subst h; repeat' (first | with_reducible assumption | with_reducible apply serve_mem | with_reducible apply queueFlush_mem)
theorem execQmStatsGet_mem : ∀ (v : Srv) (s : State), Memory.wf s.mem = true → ∀ (t : State), execQmStatsGet v s = Host.Outcome.next t → Memory.wf t.mem = true := by
  intros; unfold execQmStatsGet at *; rename_i h; injection h with h; subst h; repeat' (first | with_reducible assumption | with_reducible apply serve_mem | with_reducible apply qmStatsGet_mem)
theorem portPush_mem : ∀ (q : Nat) (v : Word) (s : State), Memory.wf s.mem = true → Memory.wf (portPush q v s).mem = true := by
  intros; unfold portPush; repeat' (first | with_reducible assumption | with_reducible apply linkKick_mem | with_reducible apply pushWrite_mem | split)
theorem portPop_mem : ∀ (m : Master) (q : Nat) (e : PopEcc) (rd : Option Nat) (s : State), Memory.wf s.mem = true → Memory.wf (portPop m q e rd s).fst.mem = true := by
  intros; grind [portPop, popRead_mem, linkKick_mem, setResult_mem, updCore_mem]
theorem portLand_mem : ∀ (m : Master) (q : Nat) (v : Word) (s : State), Memory.wf s.mem = true → Memory.wf (portLand m q v s).mem = true := by
  intros; unfold portLand; repeat' (first | with_reducible assumption | with_reducible apply landWrite_mem | split)
theorem execQmPush_mem : ∀ (who : Who) (q : Nat) (v : Word) (s : State), Memory.wf s.mem = true → ∀ (t : State), execQmPush who q v s = Host.Outcome.next t → Memory.wf t.mem = true := by
  intros; unfold execQmPush at *; rename_i h; injection h with h; subst h; repeat' (first | with_reducible assumption | with_reducible apply portPush_mem | split)
theorem execQmPop_mem : ∀ (who : Who) (q : Nat) (ecc : PopEcc) (s : State), Memory.wf s.mem = true → ∀ (t : State), execQmPop who q ecc s = Host.Outcome.next t → Memory.wf t.mem = true := by
  intros; unfold execQmPop at *; rename_i h; injection h with h; subst h; repeat' (first | with_reducible assumption | with_reducible apply portPop_mem | split)
theorem execQmLandingWrite_mem : ∀ (who : Who) (q : Nat) (v : Word) (s : State), Memory.wf s.mem = true → ∀ (t : State), execQmLandingWrite who q v s = Host.Outcome.next t → Memory.wf t.mem = true := by
  intros; unfold execQmLandingWrite at *; rename_i h; injection h with h; subst h; repeat' (first | with_reducible assumption | with_reducible apply portLand_mem | split)
theorem execPopStallExpired_mem : ∀ (who : Who) (s : State), Memory.wf s.mem = true → ∀ (t : State), execPopStallExpired who s = Host.Outcome.next t → Memory.wf t.mem = true := by
  intros; unfold execPopStallExpired at *; rename_i h; injection h with h; subst h; repeat' (first | with_reducible assumption | with_reducible apply endStall_mem | with_reducible apply countEmpty_mem | with_reducible apply updQueue_mem | split)
theorem schedStateGet_mem : ∀ (a : Ctx) (a_1 : List Byte) (a_2 : State), Memory.wf a_2.mem = true → Memory.wf (schedStateGet a a_1 a_2).s.mem = true := by
  intros; simp_all [schedStateGet, okR_mem]
theorem flowSet_mem : ∀ (a : Ctx) (a_1 : List Byte) (a_2 : State), Memory.wf a_2.mem = true → Memory.wf (flowSet a a_1 a_2).s.mem = true := by
  intros; unfold flowSet; repeat' (first | with_reducible assumption | with_reducible apply guardR_mem | with_reducible apply putFlow_mem | with_reducible apply linkKick_mem | with_reducible apply persistR_mem | with_reducible apply okR_mem | with_reducible apply mem_ite | with_reducible intro _)
theorem flowGet_mem : ∀ (a : Ctx) (a_1 : List Byte) (a_2 : State), Memory.wf a_2.mem = true → Memory.wf (flowGet a a_1 a_2).s.mem = true := by
  intros; simp_all [flowGet, guardR_mem, okR_mem]
theorem flowStateGet_mem : ∀ (a : Ctx) (a_1 : List Byte) (a_2 : State), Memory.wf a_2.mem = true → Memory.wf (flowStateGet a a_1 a_2).s.mem = true := by
  intros; simp_all [flowStateGet, guardR_mem, okR_mem]
theorem shaperSet_mem : ∀ (a : Ctx) (a_1 : List Byte) (a_2 : State), Memory.wf a_2.mem = true → Memory.wf (shaperSet a a_1 a_2).s.mem = true := by
  intros; unfold shaperSet; repeat' (first | with_reducible assumption | with_reducible apply guardR_mem | with_reducible apply putShaper_mem | with_reducible apply persistR_mem | with_reducible apply okR_mem | with_reducible intro _)
theorem shaperGet_mem : ∀ (a : Ctx) (a_1 : List Byte) (a_2 : State), Memory.wf a_2.mem = true → Memory.wf (shaperGet a a_1 a_2).s.mem = true := by
  intros; simp_all [shaperGet, guardR_mem, okR_mem]
theorem schedStatsGet_mem : ∀ (a : Ctx) (a_1 : List Byte) (a_2 : State), Memory.wf a_2.mem = true → Memory.wf (schedStatsGet a a_1 a_2).s.mem = true := by
  intros; unfold schedStatsGet; repeat' (first | with_reducible assumption | with_reducible apply guardR_mem | with_reducible apply okR_mem | with_reducible apply schedStat_mem | with_reducible intro _ | split)
theorem execSchedStateGet_mem : ∀ (v : Srv) (s : State), Memory.wf s.mem = true → ∀ (t : State), execSchedStateGet v s = Host.Outcome.next t → Memory.wf t.mem = true := by
  intros; unfold execSchedStateGet at *; rename_i h; injection h with h; subst h; repeat' (first | with_reducible assumption | with_reducible apply serve_mem | with_reducible apply schedStateGet_mem)
theorem execFlowSet_mem : ∀ (v : Srv) (s : State), Memory.wf s.mem = true → ∀ (t : State), execFlowSet v s = Host.Outcome.next t → Memory.wf t.mem = true := by
  intros; unfold execFlowSet at *; rename_i h; injection h with h; subst h; repeat' (first | with_reducible assumption | with_reducible apply serve_mem | with_reducible apply flowSet_mem)
theorem execFlowGet_mem : ∀ (v : Srv) (s : State), Memory.wf s.mem = true → ∀ (t : State), execFlowGet v s = Host.Outcome.next t → Memory.wf t.mem = true := by
  intros; unfold execFlowGet at *; rename_i h; injection h with h; subst h; repeat' (first | with_reducible assumption | with_reducible apply serve_mem | with_reducible apply flowGet_mem)
theorem execFlowStateGet_mem : ∀ (v : Srv) (s : State), Memory.wf s.mem = true → ∀ (t : State), execFlowStateGet v s = Host.Outcome.next t → Memory.wf t.mem = true := by
  intros; unfold execFlowStateGet at *; rename_i h; injection h with h; subst h; repeat' (first | with_reducible assumption | with_reducible apply serve_mem | with_reducible apply flowStateGet_mem)
theorem execShaperSet_mem : ∀ (v : Srv) (s : State), Memory.wf s.mem = true → ∀ (t : State), execShaperSet v s = Host.Outcome.next t → Memory.wf t.mem = true := by
  intros; unfold execShaperSet at *; rename_i h; injection h with h; subst h; repeat' (first | with_reducible assumption | with_reducible apply serve_mem | with_reducible apply shaperSet_mem)
theorem execShaperGet_mem : ∀ (v : Srv) (s : State), Memory.wf s.mem = true → ∀ (t : State), execShaperGet v s = Host.Outcome.next t → Memory.wf t.mem = true := by
  intros; unfold execShaperGet at *; rename_i h; injection h with h; subst h; repeat' (first | with_reducible assumption | with_reducible apply serve_mem | with_reducible apply shaperGet_mem)
theorem execSchedStatsGet_mem : ∀ (v : Srv) (s : State), Memory.wf s.mem = true → ∀ (t : State), execSchedStatsGet v s = Host.Outcome.next t → Memory.wf t.mem = true := by
  intros; unfold execSchedStatsGet at *; rename_i h; injection h with h; subst h; repeat' (first | with_reducible assumption | with_reducible apply serve_mem | with_reducible apply schedStatsGet_mem)
theorem execSchedRelease_mem : ∀ (s : State), Memory.wf s.mem = true → ∀ (t : State), execSchedRelease s = Host.Outcome.next t → Memory.wf t.mem = true := by
  intros; unfold execSchedRelease at *; rename_i h; injection h with h; subst h; repeat' (first | with_reducible assumption | with_reducible apply linkKick_mem | with_reducible apply schedDecide_mem | with_reducible apply schedScan_mem | split)
theorem execShaperRefill_mem : ∀ (s : State), Memory.wf s.mem = true → ∀ (t : State), execShaperRefill s = Host.Outcome.next t → Memory.wf t.mem = true := by
  intros; unfold execShaperRefill at *; rename_i h; injection h with h; subst h; repeat' (first | with_reducible assumption | with_reducible apply linkKick_mem | with_reducible apply schedRefill_mem | split)
theorem execWheelEligible_mem : ∀ (flow : Nat) (s : State), Memory.wf s.mem = true → ∀ (t : State), execWheelEligible flow s = Host.Outcome.next t → Memory.wf t.mem = true := by
  intros; unfold execWheelEligible at *; rename_i h; injection h with h; subst h; repeat' (first | with_reducible assumption | with_reducible apply linkKick_mem | with_reducible apply wheelFlow_mem | with_reducible apply mem_ite | with_reducible apply mem_ite_fst | with_reducible apply mem_ite_res | with_reducible intro _ | split)
theorem execSchedBlocked_mem : ∀ (s : State), Memory.wf s.mem = true → ∀ (t : State), execSchedBlocked s = Host.Outcome.next t → Memory.wf t.mem = true := by
  intros; unfold execSchedBlocked at *; rename_i h; injection h with h; subst h; repeat' (first | with_reducible assumption | with_reducible apply raise_mem | with_reducible apply updSched_mem | with_reducible apply mem_ite)
theorem enterMode_mem : ∀ (m : Mode) (s : State), Memory.wf s.mem = true → Memory.wf (enterMode m s).mem = true := by
  intros; unfold enterMode; repeat' (first | with_reducible assumption | with_reducible apply canarySettle_mem | with_reducible apply lanesStop_mem | with_reducible apply updPwr_mem | with_reducible apply updTiming_mem | with_reducible apply updRadio_mem | with_reducible apply linkKick_mem | with_reducible apply ownRestart_mem | with_reducible apply mem_ite)
theorem intoService_mem : ∀ (s : State), Memory.wf s.mem = true → Memory.wf (intoService s).mem = true := by
  intros; unfold intoService; repeat' (first | with_reducible assumption | with_reducible apply updBoot_mem | with_reducible apply updPwr_mem | with_reducible apply enterMode_mem)
theorem outOfService_mem : ∀ (m : Mode) (s : State), Memory.wf s.mem = true → Memory.wf (outOfService m s).mem = true := by
  intros; simp_all [outOfService, updBoot_mem, updPwr_mem]
theorem modeSet_mem : ∀ (a : Ctx) (a_1 : List Byte) (a_2 : State), Memory.wf a_2.mem = true → Memory.wf (modeSet a a_1 a_2).s.mem = true := by
  intros; unfold modeSet; repeat' (first | with_reducible assumption | with_reducible apply guardR_mem | with_reducible apply errR_mem | with_reducible apply busyR_mem | with_reducible apply okR_mem | with_reducible apply enterMode_mem | with_reducible apply pendR_mem | with_reducible apply updTiming_mem | with_reducible apply updPwr_mem | with_reducible apply intoService_mem | with_reducible apply outOfService_mem | with_reducible apply mem_ite_res | with_reducible intro _)
theorem modeGet_mem : ∀ (a : Ctx) (a_1 : List Byte) (a_2 : State), Memory.wf a_2.mem = true → Memory.wf (modeGet a a_1 a_2).s.mem = true := by
  intros; simp_all [modeGet, okR_mem]
theorem execModeSet_mem : ∀ (v : Srv) (s : State), Memory.wf s.mem = true → ∀ (t : State), execModeSet v s = Host.Outcome.next t → Memory.wf t.mem = true := by
  intros; unfold execModeSet at *; rename_i h; injection h with h; subst h; repeat' (first | with_reducible assumption | with_reducible apply serve_mem | with_reducible apply modeSet_mem)
theorem execModeGet_mem : ∀ (v : Srv) (s : State), Memory.wf s.mem = true → ∀ (t : State), execModeGet v s = Host.Outcome.next t → Memory.wf t.mem = true := by
  intros; unfold execModeGet at *; rename_i h; injection h with h; subst h; repeat' (first | with_reducible assumption | with_reducible apply serve_mem | with_reducible apply modeGet_mem)
theorem execModeDrainEnd_mem : ∀ (s : State), Memory.wf s.mem = true → ∀ (t : State), execModeDrainEnd s = Host.Outcome.next t → Memory.wf t.mem = true := by
  intros; unfold execModeDrainEnd at *; rename_i h; injection h with h; subst h; repeat' (first | with_reducible assumption | with_reducible apply complete_mem | with_reducible apply intoService_mem | with_reducible apply enterMode_mem | split)
theorem execModeDrainTimeout_mem : ∀ (s : State), Memory.wf s.mem = true → ∀ (t : State), execModeDrainTimeout s = Host.Outcome.next t → Memory.wf t.mem = true := by
  intros; unfold execModeDrainTimeout at *; rename_i h; injection h with h; subst h; repeat' (first | with_reducible assumption | with_reducible apply complete_mem | with_reducible apply linkKick_mem | with_reducible apply updPwr_mem | split)
theorem countEntry_mem : ∀ (id : Nat) (aborted : Bool) (d : Depth) (who : SleepWho) (s : State), Memory.wf s.mem = true → Memory.wf (countEntry id aborted d who s).mem = true := by
  intros; unfold countEntry; repeat' (first | with_reducible assumption | with_reducible apply updPwr_mem | with_reducible apply mem_ite)
theorem requestEnds_mem : ∀ (who : SleepWho) (result : Nat) (s : State), Memory.wf s.mem = true → Memory.wf (requestEnds who result s).mem = true := by
  intros; unfold requestEnds; repeat' (first | with_reducible assumption | with_reducible apply endAppSleep_mem | with_reducible apply updPwr_mem | split)
theorem abortStalls_mem : ∀ (s : State), Memory.wf s.mem = true → Memory.wf (abortStalls s).mem = true := by
  intro s h; exact mem_foldl _ (fun a x ha => endStall_mem _ _ _ (countEmpty_mem _ (updQueue_mem _ _ _ ha))) _ _ h
theorem sleepBegin_mem : ∀ (d : Depth) (who : SleepWho) (s : State), Memory.wf s.mem = true → Memory.wf (sleepBegin d who s).mem = true := by
  intros; unfold sleepBegin; repeat' (first | with_reducible assumption | with_reducible apply requestEnds_mem | with_reducible apply countEntry_mem | with_reducible apply updPwr_mem | with_reducible apply abortStalls_mem | split)
theorem sleepTry_mem : ∀ (who : SleepWho) (s : State), Memory.wf s.mem = true → Memory.wf (sleepTry who s).mem = true := by
  intros; unfold sleepTry; repeat' (first | with_reducible assumption | with_reducible apply sleepBegin_mem | with_reducible apply mem_ite)
theorem sleepWrite_mem : ∀ (v : Word) (s : State), Memory.wf s.mem = true → Memory.wf (sleepWrite v s).mem = true := by
  intros; unfold sleepWrite; repeat' (first | with_reducible assumption | with_reducible apply updPwr_mem | with_reducible apply sleepTry_mem | with_reducible apply updCore_mem | with_reducible apply mem_ite)
theorem execPwrSleepWrite_mem : ∀ (v : Word) (s : State), Memory.wf s.mem = true → ∀ (t : State), execPwrSleepWrite v s = Host.Outcome.next t → Memory.wf t.mem = true := by
  intros; unfold execPwrSleepWrite at *; rename_i h; injection h with h; subst h; repeat' (first | with_reducible assumption | with_reducible apply sleepWrite_mem | split)
theorem hostSleeps_mem : ∀ (ch : Nat) (s : State), Memory.wf s.mem = true → Memory.wf (hostSleeps ch s).mem = true := by
  intros; unfold hostSleeps; repeat' (first | with_reducible assumption | with_reducible apply sleepTry_mem | with_reducible apply updPwr_mem | with_reducible apply mem_ite | split)
theorem execNetworkScheduledSleep_mem : ∀ (d : Depth) (s : State), Memory.wf s.mem = true → ∀ (t : State), execNetworkScheduledSleep d s = Host.Outcome.next t → Memory.wf t.mem = true := by
  intros; unfold execNetworkScheduledSleep at *; rename_i h; injection h with h; subst h; repeat' (first | with_reducible assumption | with_reducible apply sleepBegin_mem | with_reducible apply mem_ite)
theorem shelfDisable_mem : ∀ (s : State), Memory.wf s.mem = true → Memory.wf (shelfDisable s).mem = true := by
  intros; unfold shelfDisable; repeat' (first | with_reducible assumption | with_reducible apply updPwr_mem | split)
theorem shelfRestore_mem : ∀ (s : State), Memory.wf s.mem = true → Memory.wf (shelfRestore s).mem = true := by
  intros; simp_all [shelfRestore, updPwr_mem]
theorem sleepAbort_mem : ∀ (s : State), Memory.wf s.mem = true → Memory.wf (sleepAbort s).mem = true := by
  intros; unfold sleepAbort; repeat' (first | with_reducible assumption | with_reducible apply shelfRestore_mem | with_reducible apply countEntry_mem | with_reducible apply updPwr_mem | with_reducible apply deliverWake_mem | with_reducible apply requestEnds_mem | with_reducible apply linkKick_mem)
theorem hibernateCommit_mem : ∀ (s : State), Memory.wf s.mem = true → Memory.wf (hibernateCommit s).mem = true := by
  intros; unfold hibernateCommit; repeat' (first | with_reducible assumption | with_reducible apply updClk_mem | with_reducible apply slowStops_mem | with_reducible apply mem_ite)
theorem execSleepCommit_mem : ∀ (s : State), Memory.wf s.mem = true → ∀ (t : State), execSleepCommit s = Host.Outcome.next t → Memory.wf t.mem = true := by
  intros; unfold execSleepCommit at *; rename_i h; injection h with h; subst h; repeat' (first | with_reducible assumption | with_reducible apply shelfDisable_mem | with_reducible apply sleepAbort_mem | with_reducible apply radioOff_mem | with_reducible apply updPwr_mem | with_reducible apply hibernateCommit_mem | with_reducible apply mem_ite)
theorem reached_mem : ∀ (d : Depth) (s : State), Memory.wf s.mem = true → Memory.wf (reached d s).mem = true := by
  intros; simp_all [reached, updPwr_mem]
theorem execNapReached_mem : ∀ (s : State), Memory.wf s.mem = true → ∀ (t : State), execNapReached s = Host.Outcome.next t → Memory.wf t.mem = true := by
  intros; unfold execNapReached at *; rename_i h; injection h with h; subst h; repeat' (first | with_reducible assumption | with_reducible apply reached_mem | with_reducible apply updClk_mem | split)
theorem execHibernateReached_mem : ∀ (s : State), Memory.wf s.mem = true → ∀ (t : State), execHibernateReached s = Host.Outcome.next t → Memory.wf t.mem = true := by
  intros; unfold execHibernateReached at *; rename_i h; injection h with h; subst h; repeat' (first | with_reducible assumption | with_reducible apply reached_mem | with_reducible apply updClk_mem | split)
theorem schedCatchUp_mem : ∀ (s : State), Memory.wf s.mem = true → Memory.wf (schedCatchUp s).mem = true := by
  intro s h; unfold schedCatchUp; dsimp only
  exact mem_foldl _ (fun a x ha => wheelFlow_mem _ _ ha) _ _ (refillMany_mem _ _ (updSched_mem _ _ h))
theorem execNapWake_mem : ∀ (s : State), Memory.wf s.mem = true → ∀ (t : State), execNapWake s = Host.Outcome.next t → Memory.wf t.mem = true := by
  intros; unfold execNapWake at *; rename_i h; injection h with h; subst h; repeat' (first | with_reducible assumption | with_reducible apply updPwr_mem | with_reducible apply lastWake_mem | with_reducible apply deliverWake_mem | with_reducible apply updClk_mem | with_reducible apply linkKick_mem | with_reducible apply schedCatchUp_mem | with_reducible apply shotsFall_mem | with_reducible apply rtcTellDue_mem | with_reducible apply mem_ite)
theorem execNettimer_mem : ∀ (s : State), Memory.wf s.mem = true → ∀ (t : State), execNettimer s = Host.Outcome.next t → Memory.wf t.mem = true := by
  intros; unfold execNettimer at *; rename_i h; injection h with h; subst h; repeat' (first | with_reducible assumption | with_reducible apply updPwr_mem | with_reducible apply latchSet_mem | split)
theorem wakeAtWrite_mem : ∀ (v : Word) (s : State), Memory.wf s.mem = true → Memory.wf (wakeAtWrite v s).mem = true := by
  intros; simp_all [wakeAtWrite, appTimer_mem, updPwr_mem]
theorem execApptimerArm_mem : ∀ (v : Word) (s : State), Memory.wf s.mem = true → ∀ (t : State), execApptimerArm v s = Host.Outcome.next t → Memory.wf t.mem = true := by
  intros; unfold execApptimerArm at *; rename_i h; injection h with h; subst h; repeat' (first | with_reducible assumption | with_reducible apply wakeAtWrite_mem | split)
theorem execApptimer_mem : ∀ (s : State), Memory.wf s.mem = true → ∀ (t : State), execApptimer s = Host.Outcome.next t → Memory.wf t.mem = true := by
  intros; unfold execApptimer at *; rename_i h; injection h with h; subst h; repeat' (first | with_reducible assumption | with_reducible apply appTimer_mem)
theorem wakeEnWrite_mem : ∀ (v : Word) (s : State), Memory.wf s.mem = true → Memory.wf (wakeEnWrite v s).mem = true := by
  intros; unfold wakeEnWrite; repeat' (first | with_reducible assumption | with_reducible apply updPwr_mem | with_reducible apply appTimer_mem)
theorem execPwrWakeenWrite_mem : ∀ (v : Word) (s : State), Memory.wf s.mem = true → ∀ (t : State), execPwrWakeenWrite v s = Host.Outcome.next t → Memory.wf t.mem = true := by
  intros; unfold execPwrWakeenWrite at *; rename_i h; injection h with h; subst h; repeat' (first | with_reducible assumption | with_reducible apply wakeEnWrite_mem | split)
theorem acctClear_mem : ∀ (s : State), Memory.wf s.mem = true → Memory.wf (acctClear s).mem = true := by
  intros; simp_all [acctClear, updPwr_mem]
theorem execPwrClr_mem : ∀ (v : Word) (s : State), Memory.wf s.mem = true → ∀ (t : State), execPwrClr v s = Host.Outcome.next t → Memory.wf t.mem = true := by
  intros; unfold execPwrClr at *; rename_i h; injection h with h; subst h; repeat' (first | with_reducible assumption | with_reducible apply acctClear_mem | split)
theorem updPads_mem : ∀ (f : PadRegs → PadRegs) (s : State), Memory.wf s.mem = true → Memory.wf (updPads f s).mem = true := by
  intros; simp_all [updPads]
theorem outSet_mem : ∀ (v : Word) (s : State), Memory.wf s.mem = true → Memory.wf (outSet v s).mem = true := by
  intros; simp_all [outSet, updPads_mem]
theorem outClr_mem : ∀ (v : Word) (s : State), Memory.wf s.mem = true → Memory.wf (outClr v s).mem = true := by
  intros; simp_all [outClr, updPads_mem]
theorem padsRelease_mem : ∀ (v : Word) (s : State), Memory.wf s.mem = true → Memory.wf (padsRelease v s).mem = true := by
  intros; unfold padsRelease; repeat' (first | with_reducible assumption | split)
theorem execPadsRelease_mem : ∀ (v : Word) (s : State), Memory.wf s.mem = true → ∀ (t : State), execPadsRelease v s = Host.Outcome.next t → Memory.wf t.mem = true := by
  intros; unfold execPadsRelease at *; rename_i h; injection h with h; subst h; repeat' (first | with_reducible assumption | with_reducible apply padsRelease_mem | split)
theorem execPadsOutset_mem : ∀ (v : Word) (s : State), Memory.wf s.mem = true → ∀ (t : State), execPadsOutset v s = Host.Outcome.next t → Memory.wf t.mem = true := by
  intros; unfold execPadsOutset at *; rename_i h; injection h with h; subst h; repeat' (first | with_reducible assumption | with_reducible apply outSet_mem | split)
theorem execPadsOutclr_mem : ∀ (v : Word) (s : State), Memory.wf s.mem = true → ∀ (t : State), execPadsOutclr v s = Host.Outcome.next t → Memory.wf t.mem = true := by
  intros; unfold execPadsOutclr at *; rename_i h; injection h with h; subst h; repeat' (first | with_reducible assumption | with_reducible apply outClr_mem | split)
theorem pwrStateGet_mem : ∀ (a : Ctx) (a_1 : List Byte) (a_2 : State), Memory.wf a_2.mem = true → Memory.wf (pwrStateGet a a_1 a_2).s.mem = true := by
  intros; unfold pwrStateGet; repeat' (first | with_reducible assumption | with_reducible apply guardR_mem | with_reducible apply okR_mem | with_reducible apply acctClear_mem | with_reducible intro _ | split)
theorem pwrCfgGet_mem : ∀ (a : Ctx) (a_1 : List Byte) (a_2 : State), Memory.wf a_2.mem = true → Memory.wf (pwrCfgGet a a_1 a_2).s.mem = true := by
  intros; simp_all [pwrCfgGet, okR_mem]
theorem pwrCfgSet_mem : ∀ (a : Ctx) (a_1 : List Byte) (a_2 : State), Memory.wf a_2.mem = true → Memory.wf (pwrCfgSet a a_1 a_2).s.mem = true := by
  intros; unfold pwrCfgSet; repeat' (first | with_reducible assumption | with_reducible apply guardR_mem | with_reducible apply updPwr_mem | with_reducible apply persistR_mem | with_reducible apply okR_mem | with_reducible intro _)
theorem pwrSleep_mem : ∀ (a : Ctx) (a_1 : List Byte) (a_2 : State), Memory.wf a_2.mem = true → Memory.wf (pwrSleep a a_1 a_2).s.mem = true := by
  intros; unfold pwrSleep; repeat' (first | with_reducible assumption | with_reducible apply guardR_mem | with_reducible apply okR_mem | with_reducible apply updPwr_mem | with_reducible intro _)
theorem execPwrStateGet_mem : ∀ (v : Srv) (s : State), Memory.wf s.mem = true → ∀ (t : State), execPwrStateGet v s = Host.Outcome.next t → Memory.wf t.mem = true := by
  intros; unfold execPwrStateGet at *; rename_i h; injection h with h; subst h; repeat' (first | with_reducible assumption | with_reducible apply serve_mem | with_reducible apply pwrStateGet_mem)
theorem execPwrCfgSet_mem : ∀ (v : Srv) (s : State), Memory.wf s.mem = true → ∀ (t : State), execPwrCfgSet v s = Host.Outcome.next t → Memory.wf t.mem = true := by
  intros; unfold execPwrCfgSet at *; rename_i h; injection h with h; subst h; repeat' (first | with_reducible assumption | with_reducible apply serve_mem | with_reducible apply pwrCfgSet_mem)
theorem execPwrCfgGet_mem : ∀ (v : Srv) (s : State), Memory.wf s.mem = true → ∀ (t : State), execPwrCfgGet v s = Host.Outcome.next t → Memory.wf t.mem = true := by
  intros; unfold execPwrCfgGet at *; rename_i h; injection h with h; subst h; repeat' (first | with_reducible assumption | with_reducible apply serve_mem | with_reducible apply pwrCfgGet_mem)
theorem execPwrSleep_mem : ∀ (v : Srv) (s : State), Memory.wf s.mem = true → ∀ (t : State), execPwrSleep v s = Host.Outcome.next t → Memory.wf t.mem = true := by
  intros; unfold execPwrSleep at *; rename_i h; injection h with h; subst h; repeat' (first | with_reducible assumption | with_reducible apply serve_mem | with_reducible apply pwrSleep_mem)
theorem resyncListen_mem : ∀ (s : State), Memory.wf s.mem = true → Memory.wf (resyncListen s).mem = true := by
  intros; unfold resyncListen; repeat' (first | with_reducible assumption | with_reducible apply updTiming_mem | split)
theorem matchToLeaf_mem : ∀ (s : State), Memory.wf s.mem = true → Memory.wf (matchToLeaf s).mem = true := by
  intros; unfold matchToLeaf; repeat' (first | with_reducible assumption | with_reducible apply enterMode_mem | split)
theorem canaryServed_mem : ∀ (s : State), Memory.wf s.mem = true → Memory.wf (canaryServed s).mem = true := by
  intros; unfold canaryServed; repeat' (first | with_reducible assumption | with_reducible apply updPwr_mem | with_reducible apply updCanary_mem | with_reducible apply raiseAt_mem | with_reducible apply linkKick_mem | with_reducible apply resyncListen_mem | with_reducible apply matchToLeaf_mem | with_reducible apply mem_ite)
theorem execCanaryMatch_mem : ∀ (s : State), Memory.wf s.mem = true → ∀ (t : State), execCanaryMatch s = Host.Outcome.next t → Memory.wf t.mem = true := by
  intros; unfold execCanaryMatch at *; rename_i h; injection h with h; subst h; repeat' (first | with_reducible assumption | with_reducible apply canaryServed_mem | split)
theorem airLost_mem : ∀ (s : State), Memory.wf s.mem = true → Memory.wf (airLost s).mem = true := by
  intros; unfold airLost; repeat' (first | with_reducible assumption | with_reducible apply tallyCut_mem | with_reducible apply updRadio_mem | with_reducible apply attemptFailed_mem | with_reducible apply ackAbandoned_mem | with_reducible apply txAbandoned_mem | split)
theorem exchangeLost_mem : ∀ (s : State), Memory.wf s.mem = true → Memory.wf (exchangeLost s).mem = true := by
  intros; unfold exchangeLost; dsimp only; repeat' (first | with_reducible assumption | with_reducible apply attemptFailed_mem | with_reducible apply ackAbandoned_mem | split)
theorem refFails_mem : ∀ (s : State), Memory.wf s.mem = true → Memory.wf (refFails s).mem = true := by
  intros; unfold refFails; repeat' (first | with_reducible assumption | with_reducible apply exchangeLost_mem | with_reducible apply abandonTold_mem | with_reducible apply airLost_mem | with_reducible apply radioOff_mem | with_reducible apply updRadio_mem | with_reducible apply linkKick_mem | with_reducible apply updClk_mem | with_reducible apply refLost_mem)
theorem execRefFail_mem : ∀ (s : State), Memory.wf s.mem = true → ∀ (t : State), execRefFail s = Host.Outcome.next t → Memory.wf t.mem = true := by
  intros; unfold execRefFail at *; rename_i h; injection h with h; subst h; repeat' (first | with_reducible assumption | with_reducible apply refFails_mem | split)
theorem execRefRetry_mem : ∀ (s : State), Memory.wf s.mem = true → ∀ (t : State), execRefRetry s = Host.Outcome.next t → Memory.wf t.mem = true := by
  intros; unfold execRefRetry at *; rename_i h; injection h with h; subst h; repeat' (first | with_reducible assumption | with_reducible apply updClk_mem | split)
theorem refReady_mem : ∀ (s : State), Memory.wf s.mem = true → Memory.wf (refReady s).mem = true := by
  intros; simp_all [refReady, updClk_mem]
theorem execXordy_mem : ∀ (s : State), Memory.wf s.mem = true → ∀ (t : State), execXordy s = Host.Outcome.next t → Memory.wf t.mem = true := by
  intros; unfold execXordy at *; rename_i h; injection h with h; subst h; repeat' (first | with_reducible assumption | with_reducible apply updBoot_mem | with_reducible apply refReady_mem | with_reducible apply mem_ite)
theorem execLfxrdy_mem : ∀ (s : State), Memory.wf s.mem = true → ∀ (t : State), execLfxrdy s = Host.Outcome.next t → Memory.wf t.mem = true := by
  intros; unfold execLfxrdy at *; rename_i h; injection h with h; subst h; repeat' (first | with_reducible assumption | with_reducible apply updRtc_mem | with_reducible apply updClk_mem | with_reducible apply mem_ite)
theorem execScalWindowEnd_mem : ∀ (count : Nat) (s : State), Memory.wf s.mem = true → ∀ (t : State), execScalWindowEnd count s = Host.Outcome.next t → Memory.wf t.mem = true := by
  intros; unfold execScalWindowEnd at *; rename_i h; injection h with h; subst h; repeat' (first | with_reducible assumption | with_reducible apply updClk_mem | split)
theorem rateHandover_mem : ∀ (s : State), Memory.wf s.mem = true → Memory.wf (rateHandover s).mem = true := by
  intros; unfold rateHandover; repeat' (first | with_reducible assumption | with_reducible apply updClk_mem | with_reducible apply mem_ite)
theorem execMtimeRateHandover_mem : ∀ (s : State), Memory.wf s.mem = true → ∀ (t : State), execMtimeRateHandover s = Host.Outcome.next t → Memory.wf t.mem = true := by
  intros; unfold execMtimeRateHandover at *; rename_i h; injection h with h; subst h; repeat' (first | with_reducible assumption | with_reducible apply rateHandover_mem)
theorem mtimeLoRead_mem : ∀ (s : State), Memory.wf s.mem = true → Memory.wf (mtimeLoRead s).fst.mem = true := by
  intros; simp_all [mtimeLoRead, updClk_mem]
theorem execMtimeLoRead_mem : ∀ (s : State), Memory.wf s.mem = true → ∀ (t : State), execMtimeLoRead s = Host.Outcome.next t → Memory.wf t.mem = true := by
  intros; unfold execMtimeLoRead at *; rename_i h; injection h with h; subst h; repeat' (first | with_reducible assumption | with_reducible apply mtimeLoRead_mem | split)
theorem mtimeAdvance_mem : ∀ (n : Nat) (s : State), Memory.wf s.mem = true → Memory.wf (mtimeAdvance n s).mem = true := by
  intros; simp_all [mtimeAdvance, updClk_mem]
theorem tick_mem : ∀ (s : State), Memory.wf s.mem = true → Memory.wf (tick s).mem = true := by
  intros; unfold tick; repeat' (first | with_reducible assumption | with_reducible apply mtimeAdvance_mem | with_reducible apply updRtc_mem | with_reducible apply updTally_mem | with_reducible apply updWdg_mem | with_reducible apply updMbx_mem | with_reducible apply mem_ite | split)
theorem idle_mem : ∀ (s : State), Memory.wf s.mem = true → Memory.wf (idle s).mem = true := by
  intros; unfold idle; repeat' (first | with_reducible assumption | with_reducible apply linkKick_mem | with_reducible apply tick_mem | split)
theorem seeCard_mem : ∀ (c : SdCard) (s : State), Memory.wf s.mem = true → Memory.wf (seeCard c s).mem = true := by
  intros; unfold seeCard; repeat' (first | with_reducible assumption | with_reducible apply updUpd_mem | split)
theorem writeBlock_mem : ∀ (base : Nat) (img : List Byte) (s : State) (i : Nat), Memory.wf s.mem = true → Memory.wf (writeBlock base img s i).mem = true := by
  intros; unfold writeBlock; repeat' (first | with_reducible assumption | with_reducible apply eraseWhole_mem | with_reducible apply setWritten_mem | with_reducible apply flashStore_mem)
theorem stageEmpty_mem : ∀ (s : State), Memory.wf s.mem = true → Memory.wf (stageEmpty s).mem = true := by
  intros; simp_all [stageEmpty, updUpd_mem]
theorem installStops_mem : ∀ (type result status : Nat) (s : State), Memory.wf s.mem = true → Memory.wf (installStops type result status s).mem = true := by
  intros; simp_all [installStops, updateTell_mem, updUpd_mem]
theorem putBlock_mem : ∀ (resume : Bool) (first : Nat) (img : List Byte) (a : State) (i : Nat), Memory.wf a.mem = true → Memory.wf (putBlock resume first img a i).mem = true := by
  intro res first img a i h; exact mem_ite h (writeBlock_mem _ _ _ _ h)
theorem clearBlock_mem : ∀ (a : State) (b : Nat), Memory.wf a.mem = true → Memory.wf (clearBlock a b).mem = true := by
  intro a b h; exact mem_ite h (eraseWhole_mem _ _ _ h)
theorem install_mem : ∀ (bad : Option Nat) (resume card : Bool) (f : List Byte) (s : State), Memory.wf s.mem = true → Memory.wf (install bad resume card f s).mem = true := by
  intro bad res card f s h
  have hf : ∀ (r : Nat) (img : List Byte) (l : List Nat) (t : State), Memory.wf t.mem = true → Memory.wf (l.foldl (putBlock res r img) t).mem = true :=
    fun r img l t ht => mem_foldl _ (fun a i ha => putBlock_mem res r img a i ha) l t ht
  have h2 : ∀ (l : List Nat) (t : State), Memory.wf t.mem = true → Memory.wf (l.foldl clearBlock t).mem = true :=
    fun l t ht => mem_foldl _ (fun a x ha => clearBlock_mem a x ha) l t ht
  unfold install; dsimp only
  split
  · exact installStops_mem _ _ _ _ (spoilBlock_mem _ _ (writeBlock_mem _ _ _ _ (writeBlock_mem _ _ _ _ (hf _ _ _ _ (updUpd_mem _ _ h)))))
  · refine stageEmpty_mem _ (updateTell_mem _ _ (mem_ite ?_ ?_))
    · exact updUpd_mem id _ (h2 _ _ (hf _ _ _ _ (updUpd_mem _ _ h)))
    · exact updUpd_mem id _ (h2 _ _ (hf _ _ _ _ (updUpd_mem _ _ h)))
theorem cardInstall_mem : ∀ (env : BootEnv) (type : Nat) (s : State), Memory.wf s.mem = true → Memory.wf (cardInstall env type s).mem = true := by
  intros; unfold cardInstall; repeat' (first | with_reducible assumption | with_reducible apply install_mem | split)
theorem installStaged_mem : ∀ (env : BootEnv) (s : State), Memory.wf s.mem = true → Memory.wf (installStaged env s).mem = true := by
  intros; unfold installStaged; repeat' (first | with_reducible assumption | with_reducible apply install_mem | with_reducible apply updateTell_mem | with_reducible apply updUpd_mem | with_reducible apply stageEmpty_mem | with_reducible apply mem_ite)
theorem pendingUpdate_mem : ∀ (env : BootEnv) (act : Bool) (s : State), Memory.wf s.mem = true → Memory.wf (pendingUpdate env act s).mem = true := by
  intros; unfold pendingUpdate; repeat' (first | with_reducible assumption | with_reducible apply install_mem | with_reducible apply installStops_mem | with_reducible apply installStaged_mem | split)
theorem portStore_mem : ∀ (b : Nat) (l : List Byte) (s : State), Memory.wf s.mem = true → Memory.wf (portStore b l s).mem = true := by
  intros; simp_all [portStore, updPort_mem]
theorem portWritten_mem : ∀ (s : State), Memory.wf s.mem = true → Memory.wf (portWritten s).mem = true := by
  intros; simp_all [portWritten, updPort_mem]
theorem portWrite_mem : ∀ (b : Nat) (l : List Byte) (ok : Bool) (s : State), Memory.wf s.mem = true → Memory.wf (portWrite b l ok s).mem = true := by
  intros; unfold portWrite; repeat' (first | with_reducible assumption | with_reducible apply portWritten_mem | with_reducible apply portStore_mem | with_reducible apply freshBytes_mem | with_reducible apply updPort_mem | split)
theorem portPowerUp_mem : ∀ (s : State), Memory.wf s.mem = true → Memory.wf (portPowerUp s).mem = true := by
  intros; unfold portPowerUp; repeat' (first | with_reducible assumption | with_reducible apply updPort_mem | with_reducible apply portStore_mem | split)
theorem credMark_mem : ∀ (v : Byte) (s : State), Memory.wf s.mem = true → Memory.wf (credMark v s).mem = true := by
  intros; simp_all [credMark, portWrite_mem]
theorem credTake_mem : ∀ (s : State), Memory.wf s.mem = true → Memory.wf (credTake s).mem = true := by
  intros; unfold credTake; repeat' (first | with_reducible assumption | with_reducible apply credMark_mem | with_reducible apply raise_mem | with_reducible apply mem_ite)
theorem identityWrite_mem : ∀ (s : State), Memory.wf s.mem = true → Memory.wf (identityWrite s).mem = true := by
  intros; unfold identityWrite; repeat' (first | with_reducible assumption | with_reducible apply portWritten_mem | with_reducible apply updPort_mem | split)
theorem lockedEvent_mem : ∀ (slot : Nat) (s : State), Memory.wf s.mem = true → Memory.wf (lockedEvent slot s).mem = true := by
  intros; simp_all [lockedEvent, raise_mem]
theorem lockedTell_mem : ∀ (slot : Nat) (s : State), Memory.wf s.mem = true → Memory.wf (lockedTell slot s).mem = true := by
  intros; unfold lockedTell; repeat' (first | with_reducible assumption | with_reducible apply lockedEvent_mem | with_reducible apply updPort_mem | split)
theorem lockedTellDue_mem : ∀ (s : State), Memory.wf s.mem = true → Memory.wf (lockedTellDue s).mem = true := by
  intro s h; exact mem_foldl _ (fun a x ha => lockedEvent_mem _ _ ha) _ _ (updPort_mem _ _ h)
theorem repairCopy_mem : ∀ (second fails : Bool) (s : State), Memory.wf s.mem = true → Memory.wf (repairCopy second fails s).mem = true := by
  intros; unfold repairCopy; repeat' (first | with_reducible assumption | with_reducible apply updBoot_mem | with_reducible apply mem_ite)
theorem optionRepair_mem : ∀ (env : BootEnv) (s : State), Memory.wf s.mem = true → Memory.wf (optionRepair env s).mem = true := by
  intros; unfold optionRepair; repeat' (first | with_reducible assumption | with_reducible apply repairCopy_mem | split)
theorem loaderWaits_mem : ∀ (s : State), Memory.wf s.mem = true → Memory.wf (loaderWaits s).mem = true := by
  intros; simp_all [loaderWaits, loadKeys_mem, releaseCore_mem]
theorem applyBank0_mem : ∀ (b : Settings) (s : State), Memory.wf s.mem = true → Memory.wf (applyBank0 b s).mem = true := by
  intros; simp_all [applyBank0]
theorem applyAon_mem : ∀ (b : Settings) (s : State), Memory.wf s.mem = true → Memory.wf (applyAon b s).mem = true := by
  intros; simp_all [applyAon]
theorem applyNbrs_mem : ∀ (lost : Nat → Bool) (b : Settings) (s : State), Memory.wf s.mem = true → Memory.wf (applyNbrs lost b s).mem = true := by
  intros; simp_all [applyNbrs, updLink_mem]
theorem rebuild_mem : ∀ (s : State), Memory.wf s.mem = true → Memory.wf (rebuild s).mem = true := by
  intros; unfold rebuild; repeat' (first | with_reducible assumption | with_reducible apply applyNbrs_mem | with_reducible apply applyAon_mem | with_reducible apply applyBank0_mem | with_reducible apply updPwr_mem | split)
theorem rebuildLost_mem : ∀ (s : State), Memory.wf s.mem = true → Memory.wf (rebuildLost s).mem = true := by
  intros; unfold rebuildLost; repeat' (first | with_reducible assumption | with_reducible apply applyBank0_mem | with_reducible apply applyNbrs_mem | split)
theorem settingsTell_mem : ∀ (s : State), Memory.wf s.mem = true → Memory.wf (settingsTell s).mem = true := by
  intros; unfold settingsTell; repeat' (first | with_reducible assumption | with_reducible apply raise_mem | with_reducible apply updBoot_mem | split)
theorem migrate_mem : ∀ (fails : Bool) (s : State), Memory.wf s.mem = true → Memory.wf (migrate fails s).mem = true := by
  intros; unfold migrate; repeat' (first | with_reducible assumption | with_reducible apply updBoot_mem | with_reducible apply updateTell_mem | with_reducible apply updUpd_mem | with_reducible apply mem_ite | split)
theorem sysReady_mem : ∀ (s : State), Memory.wf s.mem = true → Memory.wf (sysReady s).mem = true := by
  intros; simp_all [sysReady, updMbx_mem]
theorem updateTellDue_mem : ∀ (s : State), Memory.wf s.mem = true → Memory.wf (updateTellDue s).mem = true := by
  intro s h; exact mem_foldl _ (fun a x ha => raise_mem _ _ _ ha) _ _ (updUpd_mem _ _ h)
theorem startCore_mem : ∀ (shelf : Bool) (s : State), Memory.wf s.mem = true → Memory.wf (startCore shelf s).mem = true := by
  intros; unfold startCore; repeat' (first | with_reducible assumption | with_reducible apply deliverWake_mem | with_reducible apply releaseCore_mem | with_reducible apply mem_ite)
theorem firmwareStart_mem : ∀ (setFails : Bool) (s : State), Memory.wf s.mem = true → Memory.wf (firmwareStart setFails s).mem = true := by
  intros; unfold firmwareStart; repeat' (first | with_reducible assumption | with_reducible apply loadKeys_mem | with_reducible apply rebuildLost_mem | with_reducible apply migrate_mem | with_reducible apply settingsTell_mem | with_reducible apply rebuild_mem | with_reducible apply updPwr_mem | with_reducible apply updBoot_mem | with_reducible apply canarySettle_mem | with_reducible apply enterMode_mem | with_reducible apply identityWrite_mem | with_reducible apply schedRestart_mem | with_reducible apply matchToLeaf_mem | with_reducible apply credTake_mem | with_reducible apply lockedTellDue_mem | with_reducible apply updateTellDue_mem | with_reducible apply rtcTellDue_mem | with_reducible apply sysReady_mem | with_reducible apply canaryServed_mem | with_reducible apply startCore_mem | with_reducible apply linkKick_mem | with_reducible apply mem_ite | with_reducible apply mem_ite_fst | with_reducible intro _ | split)
theorem loaderRuns_mem : ∀ (env : BootEnv) (s : State), Memory.wf s.mem = true → Memory.wf (loaderRuns env s).mem = true := by
  intros; unfold loaderRuns; repeat' (first | with_reducible assumption | with_reducible apply seeCard_mem | with_reducible apply optionRepair_mem | with_reducible apply journalStart_mem | with_reducible apply updBoot_mem | with_reducible apply pendingUpdate_mem | with_reducible apply updRtc_mem | with_reducible apply takeReset_mem | with_reducible apply updPwr_mem | with_reducible apply cardInstall_mem | with_reducible apply install_mem | with_reducible apply firmwareStart_mem | with_reducible apply loaderWaits_mem | with_reducible apply mem_ite | with_reducible apply mem_ite_fst | with_reducible apply mem_ite_res | with_reducible intro _ | split)
theorem pllLocks_mem : ∀ (env : BootEnv) (s : State), Memory.wf s.mem = true → Memory.wf (pllLocks env s).mem = true := by
  intros; unfold pllLocks; repeat' (first | with_reducible assumption | with_reducible apply updClk_mem | with_reducible apply firmwareStart_mem | with_reducible apply journalStart_mem | with_reducible apply loaderRuns_mem | with_reducible apply linkKick_mem | with_reducible apply mem_ite)
theorem execPllLock_mem : ∀ (env : BootEnv) (s : State), Memory.wf s.mem = true → ∀ (t : State), execPllLock env s = Host.Outcome.next t → Memory.wf t.mem = true := by
  intros; unfold execPllLock at *; rename_i h; injection h with h; subst h; repeat' (first | with_reducible assumption | with_reducible apply pllLocks_mem)
theorem updateStateGet_mem : ∀ (a : Ctx) (a_1 : List Byte) (a_2 : State), Memory.wf a_2.mem = true → Memory.wf (updateStateGet a a_1 a_2).s.mem = true := by
  intros; simp_all [updateStateGet, okR_mem]
theorem updateStageBegin_mem : ∀ (a : Ctx) (a_1 : List Byte) (a_2 : State), Memory.wf a_2.mem = true → Memory.wf (updateStageBegin a a_1 a_2).s.mem = true := by
  intros; unfold updateStageBegin; repeat' (first | with_reducible assumption | with_reducible apply guardR_mem | with_reducible apply pendR_mem | with_reducible apply updUpd_mem | with_reducible apply busyR_mem | with_reducible intro _ | split)
theorem execUpdateStageBeginDone_mem : ∀ (fail : Option Nat) (s : State), Memory.wf s.mem = true → ∀ (t : State), execUpdateStageBeginDone fail s = Host.Outcome.next t → Memory.wf t.mem = true := by
  intro fail s h t ht
  injection ht with ht; subst ht
  split
  · dsimp only
    have h2 : Memory.wf ((stageBlocks s).foldl (fun a b => if blockState a b = 0 then a else eraseWhole .net a b) s).mem = true :=
      mem_foldl _ (fun a x ha => mem_ite ha (eraseWhole_mem _ _ _ ha)) _ s h
    cases fail with
    | none => exact complete_mem _ _ _ _ _ (updUpd_mem _ _ h2)
    | some b => exact complete_mem _ _ _ _ _ (updUpd_mem _ _ h2)
  · exact h
theorem stageUnits_mem : ∀ (u n : Nat) (s : State), Memory.wf s.mem = true → Memory.wf (stageUnits u n s).mem = true := by
  intros; simp_all [stageUnits, updUpd_mem]
theorem updateStageWrite_mem : ∀ (a : Ctx) (a_1 : List Byte) (a_2 : State), Memory.wf a_2.mem = true → Memory.wf (updateStageWrite a a_1 a_2).s.mem = true := by
  intro c p s h; unfold updateStageWrite; dsimp only
  refine guardR_mem _ _ _ h (fun _ => mem_ite_res (busyR_mem _ _ h) (mem_ite_res (badR_mem _ _ h) (mem_ite_res (okR_mem _ _ h) (mem_ite_res (badR_mem _ _ h) ?_))))
  cases c.failAt 0 with
  | some b => exact errR_mem _ _ _ (mem_foldl _ (fun a x ha => spoilUnit_mem _ _ ha) _ _ (stageUnits_mem _ _ _ (updUpd_mem _ _ h)))
  | none => exact okR_mem _ _ (setWritten_mem _ _ _ (flashStore_mem _ _ _ (stageUnits_mem _ _ _ (updUpd_mem _ _ h))))
theorem updateStageCheck_mem : ∀ (a : Ctx) (a_1 : List Byte) (a_2 : State), Memory.wf a_2.mem = true → Memory.wf (updateStageCheck a a_1 a_2).s.mem = true := by
  intros; unfold updateStageCheck; repeat' (first | with_reducible assumption | with_reducible apply busyR_mem | with_reducible apply pendR_mem | with_reducible apply updUpd_mem | with_reducible intro _ | split)
theorem execUpdateStageCheckDone_mem : ∀ (s : State), Memory.wf s.mem = true → ∀ (t : State), execUpdateStageCheckDone s = Host.Outcome.next t → Memory.wf t.mem = true := by
  intro s h t ht
  injection ht with ht; subst ht
  split
  · refine complete_mem _ _ _ _ _ (updUpd_mem _ _ ?_)
    cases hf : flashRead (stageBase s) (stagedFile s).length true s with
    | none => exact h
    | some r => exact flashRead_mem _ _ _ _ h _ hf
  · exact h
theorem storeState_mem : ∀ (c : Ctx) (s : State) (go : Unit → Res), Memory.wf s.mem = true → (∀ (a : Unit), Memory.wf (go a).s.mem = true) → Memory.wf (storeState c s go).s.mem = true := by
  intros; unfold storeState at *; (repeat' split) <;> simp_all [errR_mem]
theorem endWait_mem : ∀ (bad : Option Nat) (s : State), Memory.wf s.mem = true → Memory.wf (endWait bad s).mem = true := by
  intros; unfold endWait; repeat' (first | with_reducible assumption | with_reducible apply installStaged_mem | with_reducible apply firmwareStart_mem | with_reducible apply releaseCore_mem | with_reducible apply mem_ite)
theorem updateCommit_mem : ∀ (a : Ctx) (a_1 : List Byte) (a_2 : State), Memory.wf a_2.mem = true → Memory.wf (updateCommit a a_1 a_2).s.mem = true := by
  intros; unfold updateCommit; repeat' (first | with_reducible assumption | with_reducible apply guardR_mem | with_reducible apply busyR_mem | with_reducible apply badR_mem | with_reducible apply storeState_mem | with_reducible apply updUpd_mem | with_reducible apply updBoot_mem | with_reducible apply endWait_mem | with_reducible apply okR_mem | with_reducible apply mem_ite | with_reducible apply mem_ite_res | with_reducible intro _)
theorem updateSchedule_mem : ∀ (a : Ctx) (a_1 : List Byte) (a_2 : State), Memory.wf a_2.mem = true → Memory.wf (updateSchedule a a_1 a_2).s.mem = true := by
  intros; unfold updateSchedule; repeat' (first | with_reducible assumption | with_reducible apply guardR_mem | with_reducible apply busyR_mem | with_reducible apply errR_mem | with_reducible apply badR_mem | with_reducible apply storeState_mem | with_reducible apply updRtc_mem | with_reducible apply updUpd_mem | with_reducible apply okR_mem | with_reducible apply mem_ite_res | with_reducible intro _)
theorem updateCancel_mem : ∀ (a : Ctx) (a_1 : List Byte) (a_2 : State), Memory.wf a_2.mem = true → Memory.wf (updateCancel a a_1 a_2).s.mem = true := by
  intros; unfold updateCancel; repeat' (first | with_reducible assumption | with_reducible apply guardR_mem | with_reducible apply busyR_mem | with_reducible apply storeState_mem | with_reducible apply updRtc_mem | with_reducible apply stageEmpty_mem | with_reducible apply updUpd_mem | with_reducible apply okR_mem | with_reducible apply mem_ite_res | with_reducible intro _ | split)
theorem execUpdateStateGet_mem : ∀ (v : Srv) (s : State), Memory.wf s.mem = true → ∀ (t : State), execUpdateStateGet v s = Host.Outcome.next t → Memory.wf t.mem = true := by
  intros; unfold execUpdateStateGet at *; rename_i h; injection h with h; subst h; repeat' (first | with_reducible assumption | with_reducible apply serve_mem | with_reducible apply updateStateGet_mem)
theorem execUpdateStageBegin_mem : ∀ (v : Srv) (s : State), Memory.wf s.mem = true → ∀ (t : State), execUpdateStageBegin v s = Host.Outcome.next t → Memory.wf t.mem = true := by
  intros; unfold execUpdateStageBegin at *; rename_i h; injection h with h; subst h; repeat' (first | with_reducible assumption | with_reducible apply serve_mem | with_reducible apply updateStageBegin_mem)
theorem execUpdateStageWrite_mem : ∀ (v : Srv) (s : State), Memory.wf s.mem = true → ∀ (t : State), execUpdateStageWrite v s = Host.Outcome.next t → Memory.wf t.mem = true := by
  intros; unfold execUpdateStageWrite at *; rename_i h; injection h with h; subst h; repeat' (first | with_reducible assumption | with_reducible apply serve_mem | with_reducible apply updateStageWrite_mem)
theorem execUpdateStageCheck_mem : ∀ (v : Srv) (s : State), Memory.wf s.mem = true → ∀ (t : State), execUpdateStageCheck v s = Host.Outcome.next t → Memory.wf t.mem = true := by
  intros; unfold execUpdateStageCheck at *; rename_i h; injection h with h; subst h; repeat' (first | with_reducible assumption | with_reducible apply serve_mem | with_reducible apply updateStageCheck_mem)
theorem execUpdateCommit_mem : ∀ (v : Srv) (s : State), Memory.wf s.mem = true → ∀ (t : State), execUpdateCommit v s = Host.Outcome.next t → Memory.wf t.mem = true := by
  intros; unfold execUpdateCommit at *; rename_i h; injection h with h; subst h; repeat' (first | with_reducible assumption | with_reducible apply serve_mem | with_reducible apply updateCommit_mem)
theorem execUpdateSchedule_mem : ∀ (v : Srv) (s : State), Memory.wf s.mem = true → ∀ (t : State), execUpdateSchedule v s = Host.Outcome.next t → Memory.wf t.mem = true := by
  intros; unfold execUpdateSchedule at *; rename_i h; injection h with h; subst h; repeat' (first | with_reducible assumption | with_reducible apply serve_mem | with_reducible apply updateSchedule_mem)
theorem execUpdateCancel_mem : ∀ (v : Srv) (s : State), Memory.wf s.mem = true → ∀ (t : State), execUpdateCancel v s = Host.Outcome.next t → Memory.wf t.mem = true := by
  intros; unfold execUpdateCancel at *; rename_i h; injection h with h; subst h; repeat' (first | with_reducible assumption | with_reducible apply serve_mem | with_reducible apply updateCancel_mem)
theorem execSdCardSearch_mem : ∀ (env : BootEnv) (s : State), Memory.wf s.mem = true → ∀ (t : State), execSdCardSearch env s = Host.Outcome.next t → Memory.wf t.mem = true := by
  intros; unfold execSdCardSearch at *; rename_i h; injection h with h; subst h; dsimp only; repeat' (first | with_reducible assumption | with_reducible apply seeCard_mem | with_reducible apply install_mem | with_reducible apply firmwareStart_mem | with_reducible apply releaseCore_mem | with_reducible apply mem_ite | split)
theorem hashRun_mem : ∀ (a : Ctx) (a_1 : List Byte) (a_2 : State), Memory.wf a_2.mem = true → Memory.wf (hashRun a a_1 a_2).s.mem = true := by
  intros; unfold hashRun; repeat' (first | with_reducible assumption | with_reducible apply guardR_mem | with_reducible apply pendR_mem | with_reducible apply updCipher_mem | with_reducible intro _)
theorem execHashRunDone_mem : ∀ (s : State), Memory.wf s.mem = true → ∀ (t : State), execHashRunDone s = Host.Outcome.next t → Memory.wf t.mem = true := by
  intros; unfold execHashRunDone at *; rename_i h; injection h with h; subst h; repeat' (first | with_reducible assumption | with_reducible apply readAcross_mem | with_reducible apply updCipher_mem | with_reducible apply complete_mem | with_reducible apply mem_ite | split)
theorem execHashRun_mem : ∀ (v : Srv) (s : State), Memory.wf s.mem = true → ∀ (t : State), execHashRun v s = Host.Outcome.next t → Memory.wf t.mem = true := by
  intros; unfold execHashRun at *; rename_i h; injection h with h; subst h; repeat' (first | with_reducible assumption | with_reducible apply serve_mem | with_reducible apply hashRun_mem)
theorem portVbatLost_mem : ∀ (s : State), Memory.wf s.mem = true → Memory.wf (portVbatLost s).mem = true := by
  intros; unfold portVbatLost; repeat' (first | with_reducible assumption | with_reducible apply updPort_mem | split)
theorem portVbatBack_mem : ∀ (s : State), Memory.wf s.mem = true → Memory.wf (portVbatBack s).mem = true := by
  intros; unfold portVbatBack; repeat' (first | with_reducible assumption | with_reducible apply portPowerUp_mem | split)
theorem aonLoss_mem : ∀ (s : State), Memory.wf s.mem = true → Memory.wf (aonLoss s).mem = true := by
  intros; simp_all [aonLoss]
theorem porState_mem : ∀ (s : State), Memory.wf s.mem = true → Memory.wf (porState s).mem = true := by
  intros; simp_all [porState, State.reset_mem]
theorem porUntrusted_mem : ∀ (s : State), Memory.wf s.mem = true → Memory.wf (porUntrusted s).mem = true := by
  intros; unfold porUntrusted; repeat' (first | with_reducible assumption | with_reducible apply updateTell_mem | with_reducible apply updUpd_mem | split)
theorem execPor_mem : ∀ (s : State), Memory.wf s.mem = true → ∀ (t : State), execPor s = Host.Outcome.next t → Memory.wf t.mem = true := by
  intros; unfold execPor at *; rename_i h; injection h with h; subst h; repeat' (first | with_reducible assumption | with_reducible apply porUntrusted_mem | with_reducible apply porState_mem | split)
theorem execBor_mem : ∀ (s : State), Memory.wf s.mem = true → ∀ (t : State), execBor s = Host.Outcome.next t → Memory.wf t.mem = true := by
  intros; unfold execBor at *; rename_i h; injection h with h; subst h; repeat' (first | with_reducible assumption | with_reducible apply portVbatLost_mem | with_reducible apply takeReset_mem | with_reducible apply updBoot_mem | split)
theorem heldEnds_mem : ∀ (s : State), Memory.wf s.mem = true → Memory.wf (heldEnds s).mem = true := by
  intros; unfold heldEnds; repeat' (first | with_reducible assumption | with_reducible apply beginStart_mem | split)
theorem execBorRelease_mem : ∀ (s : State), Memory.wf s.mem = true → ∀ (t : State), execBorRelease s = Host.Outcome.next t → Memory.wf t.mem = true := by
  intros; unfold execBorRelease at *; rename_i h; injection h with h; subst h; repeat' (first | with_reducible assumption | with_reducible apply heldEnds_mem | with_reducible apply portVbatBack_mem | with_reducible apply updBoot_mem | split)
theorem execBackupRetention_mem : ∀ (s : State), Memory.wf s.mem = true → ∀ (t : State), execBackupRetention s = Host.Outcome.next t → Memory.wf t.mem = true := by
  intros; unfold execBackupRetention at *; rename_i h; injection h with h; subst h; repeat' (first | with_reducible assumption | with_reducible apply updRtc_mem | with_reducible apply mem_ite)
theorem execBackupReturn_mem : ∀ (s : State), Memory.wf s.mem = true → ∀ (t : State), execBackupReturn s = Host.Outcome.next t → Memory.wf t.mem = true := by
  intros; unfold execBackupReturn at *; rename_i h; injection h with h; subst h; repeat' (first | with_reducible assumption | with_reducible apply updBoot_mem | split)
theorem execAonLoss_mem : ∀ (s : State), Memory.wf s.mem = true → ∀ (t : State), execAonLoss s = Host.Outcome.next t → Memory.wf t.mem = true := by
  intros; unfold execAonLoss at *; rename_i h; injection h with h; subst h; repeat' (first | with_reducible assumption | with_reducible apply aonLoss_mem | split)
theorem execVbkupLoss_mem : ∀ (s : State), Memory.wf s.mem = true → ∀ (t : State), execVbkupLoss s = Host.Outcome.next t → Memory.wf t.mem = true := by
  intros; unfold execVbkupLoss at *; rename_i h; injection h with h; subst h; repeat' (first | with_reducible assumption | with_reducible apply aonLoss_mem | split)
theorem execNrstAssert_mem : ∀ (s : State), Memory.wf s.mem = true → ∀ (t : State), execNrstAssert s = Host.Outcome.next t → Memory.wf t.mem = true := by
  intros; unfold execNrstAssert at *; rename_i h; injection h with h; subst h; repeat' (first | with_reducible assumption | with_reducible apply updBoot_mem | with_reducible apply takeReset_mem | with_reducible apply mem_ite)
theorem execNrstRelease_mem : ∀ (s : State), Memory.wf s.mem = true → ∀ (t : State), execNrstRelease s = Host.Outcome.next t → Memory.wf t.mem = true := by
  intros; unfold execNrstRelease at *; rename_i h; injection h with h; subst h; repeat' (first | with_reducible assumption | with_reducible apply heldEnds_mem | with_reducible apply updBoot_mem | with_reducible apply mem_ite)
theorem execNwdtExpire_mem : ∀ (s : State), Memory.wf s.mem = true → ∀ (t : State), execNwdtExpire s = Host.Outcome.next t → Memory.wf t.mem = true := by
  intros; unfold execNwdtExpire at *; rename_i h; injection h with h; subst h; repeat' (first | with_reducible assumption | with_reducible apply takeReset_mem | split)
theorem corerstWrite_mem : ∀ (v : Word) (s : State), Memory.wf s.mem = true → Memory.wf (corerstWrite v s).mem = true := by
  intros; unfold corerstWrite; repeat' (first | with_reducible assumption | with_reducible apply coreReset_mem | split)
theorem execSysctlCorerst_mem : ∀ (v : Word) (s : State), Memory.wf s.mem = true → ∀ (t : State), execSysctlCorerst v s = Host.Outcome.next t → Memory.wf t.mem = true := by
  intros; unfold execSysctlCorerst at *; rename_i h; injection h with h; subst h; repeat' (first | with_reducible assumption | with_reducible apply corerstWrite_mem | with_reducible apply mem_ite)
theorem execCoreRestart_mem : ∀ (s : State), Memory.wf s.mem = true → ∀ (t : State), execCoreRestart s = Host.Outcome.next t → Memory.wf t.mem = true := by
  intros; unfold execCoreRestart at *; rename_i h; injection h with h; subst h; repeat' (first | with_reducible assumption | with_reducible apply releaseCore_mem | split)
theorem execResetDelayExpiry_mem : ∀ (s : State), Memory.wf s.mem = true → ∀ (t : State), execResetDelayExpiry s = Host.Outcome.next t → Memory.wf t.mem = true := by
  intros; unfold execResetDelayExpiry at *; rename_i h; injection h with h; subst h; repeat' (first | with_reducible assumption | with_reducible apply takeReset_mem | split)
theorem wakeReset_mem : ∀ (s : State), Memory.wf s.mem = true → Memory.wf (wakeReset s).mem = true := by
  intros; unfold wakeReset; repeat' (first | with_reducible assumption | with_reducible apply lastWake_mem | with_reducible apply updPwr_mem | with_reducible apply enterHist_mem | with_reducible apply wakeLoss_mem | with_reducible apply shelfRestore_mem | with_reducible apply updClk_mem | with_reducible apply updBoot_mem | split)
theorem execWakeReset_mem : ∀ (s : State), Memory.wf s.mem = true → ∀ (t : State), execWakeReset s = Host.Outcome.next t → Memory.wf t.mem = true := by
  intros; unfold execWakeReset at *; rename_i h; injection h with h; subst h; repeat' (first | with_reducible assumption | with_reducible apply wakeReset_mem | split)
theorem handOver_mem : ∀ (s : State), Memory.wf s.mem = true → Memory.wf (handOver s).mem = true := by
  intros; simp_all [handOver, updCore_mem]
theorem execBootHandover_mem : ∀ (s : State), Memory.wf s.mem = true → ∀ (t : State), execBootHandover s = Host.Outcome.next t → Memory.wf t.mem = true := by
  intro s h t ht
  injection ht with ht; subst ht
  split
  · exact h
  split
  · exact h
  · rename_i hf
    have := flashRead_mem _ _ _ _ h _ hf
    split
    · exact handOver_mem _ this
    · exact sleepWrite_mem _ _ this

end Sys2Proof.Machine
end

