-- ==== Sys2Proof/Laws/MemoryPort.lean ====
section
/-! SUPPORT. The canonical form of memory is kept by the ports, the bus, the system commands and the shots: one lemma an operation, cited by name. -/

set_option Elab.async false
set_option linter.all false

namespace Sys2Proof.Machine

theorem frameError_mem : ∀ (s : State), Memory.wf s.mem = true → Memory.wf (frameError s).mem = true := by
  intros; simp_all [frameError, updPort_mem]
theorem execPortFrameError_mem : ∀ (s : State), Memory.wf s.mem = true → ∀ (t : State), execPortFrameError s = Host.Outcome.next t → Memory.wf t.mem = true := by
  intros; unfold execPortFrameError at *; rename_i h; injection h with h; subst h; repeat' (first | with_reducible assumption | with_reducible apply frameError_mem)
theorem atqa_mem : ∀ (fromHalt : Bool) (s : State), Memory.wf s.mem = true → Memory.wf (atqa fromHalt s).mem = true := by
  intros; simp_all [atqa, updPort_mem]
theorem execReqa_mem : ∀ (s : State), Memory.wf s.mem = true → ∀ (t : State), execReqa s = Host.Outcome.next t → Memory.wf t.mem = true := by
  intros; unfold execReqa at *; rename_i h; injection h with h; subst h; repeat' (first | with_reducible assumption | with_reducible apply atqa_mem | with_reducible apply frameError_mem | with_reducible apply updPort_mem | split)
theorem execWupa_mem : ∀ (s : State), Memory.wf s.mem = true → ∀ (t : State), execWupa s = Host.Outcome.next t → Memory.wf t.mem = true := by
  intros; unfold execWupa at *; rename_i h; injection h with h; subst h; repeat' (first | with_reducible assumption | with_reducible apply atqa_mem | with_reducible apply frameError_mem | with_reducible apply updPort_mem | split)
theorem execAnticollision_mem : ∀ (f : List Byte) (s : State), Memory.wf s.mem = true → ∀ (t : State), execAnticollision f s = Host.Outcome.next t → Memory.wf t.mem = true := by
  intros; unfold execAnticollision at *; rename_i h; injection h with h; subst h; repeat' (first | with_reducible assumption | with_reducible apply frameError_mem | with_reducible apply updPort_mem | with_reducible apply mem_ite | split)
theorem execCascadeSelect_mem : ∀ (f : List Byte) (s : State), Memory.wf s.mem = true → ∀ (t : State), execCascadeSelect f s = Host.Outcome.next t → Memory.wf t.mem = true := by
  intros; unfold execCascadeSelect at *; rename_i h; injection h with h; subst h; repeat' (first | with_reducible assumption | with_reducible apply frameError_mem | with_reducible apply updPort_mem | with_reducible apply mem_ite | split)
theorem execHlta_mem : ∀ (s : State), Memory.wf s.mem = true → ∀ (t : State), execHlta s = Host.Outcome.next t → Memory.wf t.mem = true := by
  intros; unfold execHlta at *; rename_i h; injection h with h; subst h; repeat' (first | with_reducible assumption | with_reducible apply updPort_mem | with_reducible apply frameError_mem | split)
theorem execRats_mem : ∀ (param : Byte) (s : State), Memory.wf s.mem = true → ∀ (t : State), execRats param s = Host.Outcome.next t → Memory.wf t.mem = true := by
  intros; unfold execRats at *; rename_i h; injection h with h; subst h; repeat' (first | with_reducible assumption | with_reducible apply frameError_mem | with_reducible apply updPort_mem | split)
theorem execPps_mem : ∀ (pps : List Byte) (s : State), Memory.wf s.mem = true → ∀ (t : State), execPps pps s = Host.Outcome.next t → Memory.wf t.mem = true := by
  intros; unfold execPps at *; rename_i h; injection h with h; subst h; repeat' (first | with_reducible assumption | with_reducible apply updPort_mem | with_reducible apply mem_ite | split)
theorem execFieldOn_mem : ∀ (s : State), Memory.wf s.mem = true → ∀ (t : State), execFieldOn s = Host.Outcome.next t → Memory.wf t.mem = true := by
  intros; unfold execFieldOn at *; rename_i h; injection h with h; subst h; repeat' (first | with_reducible assumption | with_reducible apply portPowerUp_mem | with_reducible apply updPort_mem | with_reducible apply latchSet_mem | with_reducible apply mem_ite)
theorem execFieldLoss_mem : ∀ (s : State), Memory.wf s.mem = true → ∀ (t : State), execFieldLoss s = Host.Outcome.next t → Memory.wf t.mem = true := by
  intros; unfold execFieldLoss at *; rename_i h; injection h with h; subst h; repeat' (first | with_reducible assumption | with_reducible apply updPort_mem | with_reducible apply mem_ite)
theorem execSDeselect_mem : ∀ (s : State), Memory.wf s.mem = true → ∀ (t : State), execSDeselect s = Host.Outcome.next t → Memory.wf t.mem = true := by
  intros; unfold execSDeselect at *; rename_i h; injection h with h; subst h; repeat' (first | with_reducible assumption | with_reducible apply updPort_mem | with_reducible apply frameError_mem | split)
theorem updPw_mem : ∀ (n : Nat) (f : PwSlot → PwSlot) (s : State), Memory.wf s.mem = true → Memory.wf (updPw n f s).mem = true := by
  intros; simp_all [updPw, updPort_mem]
theorem apduSelect_mem : ∀ (a : Apdu) (s : State), Memory.wf s.mem = true → Memory.wf (apduSelect a s).fst.mem = true := by
  intros; unfold apduSelect; repeat' (first | with_reducible assumption | with_reducible apply updPort_mem | with_reducible apply mem_ite_fst | split)
theorem apduRead_mem : ∀ (a : Apdu) (s : State), Memory.wf s.mem = true → Memory.wf (apduRead a s).fst.mem = true := by
  intros; unfold apduRead; repeat' (first | with_reducible assumption | with_reducible apply freshBytes_mem | with_reducible apply mem_ite_fst | split)
theorem verifyPw_mem : ∀ (slot : Nat) (pw : List Byte) (w : Option Nat) (s : State), Memory.wf s.mem = true → Memory.wf (verifyPw slot pw w s).fst.mem = true := by
  intros; unfold verifyPw; repeat' (first | with_reducible assumption | with_reducible apply portWritten_mem | with_reducible apply updPw_mem | with_reducible apply updPort_mem | with_reducible apply lockedTell_mem | with_reducible apply mem_ite_fst | split)
theorem portWrites_mem : ∀ (w : Option Nat) (a : Nat) (a_1 : List (Nat × List Byte)) (a_2 : State), Memory.wf a_2.mem = true → Memory.wf (portWrites w a a_1 a_2).fst.mem = true := by
  intro w k l; induction l generalizing k with
  | nil => exact fun s h => h
  | cons a l ih =>
    intro s h; unfold portWrites; split
    · exact portWrite_mem _ _ _ _ h
    · exact ih _ _ (portWrite_mem _ _ _ _ h)
theorem stageCred_mem : ∀ (d : List Byte) (w : Option Nat) (s : State), Memory.wf s.mem = true → Memory.wf (stageCred d w s).fst.mem = true := by
  intros; simp_all [stageCred, portWrites_mem]
theorem commRun_mem : ∀ (a : Apdu) (w : Option Nat) (s : State), Memory.wf s.mem = true → Memory.wf (commRun a w s).fst.mem = true := by
  intro a w s h; unfold commRun; dsimp only
  split
  · exact apduSelect_mem _ _ h
  · exact h
  · exact verifyPw_mem _ _ _ _ h
  · exact h
  · exact portWrites_mem _ _ _ _ h
  · exact stageCred_mem _ _ _ h
  · exact updPort_mem _ _ h
theorem commApdu_mem : ∀ (a : Apdu) (w : Option Nat) (s : State), Memory.wf s.mem = true → Memory.wf (commApdu a w s).fst.mem = true := by
  intro a w s h; unfold commApdu
  split
  · exact h
  · exact commRun_mem _ _ _ h
theorem ndefApdu_mem : ∀ (a : Apdu) (s : State), Memory.wf s.mem = true → Memory.wf (ndefApdu a s).fst.mem = true := by
  intros; unfold ndefApdu; repeat' (first | with_reducible assumption | with_reducible apply apduSelect_mem | with_reducible apply apduRead_mem | with_reducible apply mem_ite_fst | split)
theorem apduRun_mem : ∀ (cmd : List Byte) (w : Option Nat) (s : State), Memory.wf s.mem = true → Memory.wf (apduRun cmd w s).fst.mem = true := by
  intros; unfold apduRun; repeat' (first | with_reducible assumption | with_reducible apply commApdu_mem | with_reducible apply ndefApdu_mem | split)
theorem fieldAnswer_mem : ∀ (r : List Byte) (s : State), Memory.wf s.mem = true → Memory.wf (fieldAnswer r s).mem = true := by
  intros; simp_all [fieldAnswer, updPort_mem]
theorem sendWtx_mem : ∀ (cmd : List Byte) (n : Nat) (s : State), Memory.wf s.mem = true → Memory.wf (sendWtx cmd n s).mem = true := by
  intros; simp_all [sendWtx, updPort_mem]
theorem fieldServe_mem : ∀ (cmd : List Byte) (n : Nat) (w : Option Nat) (s : State), Memory.wf s.mem = true → Memory.wf (fieldServe cmd n w s).mem = true := by
  intros; unfold fieldServe; dsimp only; repeat' (first | with_reducible assumption | with_reducible apply apduRun_mem | with_reducible apply updPort_mem | with_reducible apply fieldAnswer_mem | split)
theorem fieldProceeds_mem : ∀ (s : State), Memory.wf s.mem = true → Memory.wf (fieldProceeds s).mem = true := by
  intros; unfold fieldProceeds; repeat' (first | with_reducible assumption | with_reducible apply fieldServe_mem | split)
theorem apduArrives_mem : ∀ (ins : Nat) (inf : List Byte) (w : Option Nat) (s : State), Memory.wf s.mem = true → Memory.wf (apduArrives ins inf w s).mem = true := by
  intros; unfold apduArrives; repeat' (first | with_reducible assumption | with_reducible apply updPort_mem | with_reducible apply fieldServe_mem | with_reducible apply sendWtx_mem | with_reducible apply mem_ite)
theorem execSelect_mem : ∀ (apdu : List Byte) (s : State), Memory.wf s.mem = true → ∀ (t : State), execSelect apdu s = Host.Outcome.next t → Memory.wf t.mem = true := by
  intros; unfold execSelect at *; rename_i h; injection h with h; subst h; repeat' (first | with_reducible assumption | with_reducible apply apduArrives_mem)
theorem execReadBinary_mem : ∀ (apdu : List Byte) (s : State), Memory.wf s.mem = true → ∀ (t : State), execReadBinary apdu s = Host.Outcome.next t → Memory.wf t.mem = true := by
  intros; unfold execReadBinary at *; rename_i h; injection h with h; subst h; repeat' (first | with_reducible assumption | with_reducible apply apduArrives_mem | split)
theorem execGetInfo_mem : ∀ (apdu : List Byte) (s : State), Memory.wf s.mem = true → ∀ (t : State), execGetInfo apdu s = Host.Outcome.next t → Memory.wf t.mem = true := by
  intros; unfold execGetInfo at *; rename_i h; injection h with h; subst h; repeat' (first | with_reducible assumption | with_reducible apply apduArrives_mem)
theorem execVerify_mem : ∀ (apdu : List Byte) (w : Option Nat) (s : State), Memory.wf s.mem = true → ∀ (t : State), execVerify apdu w s = Host.Outcome.next t → Memory.wf t.mem = true := by
  intros; unfold execVerify at *; rename_i h; injection h with h; subst h; repeat' (first | with_reducible assumption | with_reducible apply apduArrives_mem)
theorem execReadBlock_mem : ∀ (apdu : List Byte) (s : State), Memory.wf s.mem = true → ∀ (t : State), execReadBlock apdu s = Host.Outcome.next t → Memory.wf t.mem = true := by
  intros; unfold execReadBlock at *; rename_i h; injection h with h; subst h; repeat' (first | with_reducible assumption | with_reducible apply apduArrives_mem | split)
theorem execWriteBlock_mem : ∀ (apdu : List Byte) (w : Option Nat) (s : State), Memory.wf s.mem = true → ∀ (t : State), execWriteBlock apdu w s = Host.Outcome.next t → Memory.wf t.mem = true := by
  intros; unfold execWriteBlock at *; rename_i h; injection h with h; subst h; repeat' (first | with_reducible assumption | with_reducible apply apduArrives_mem)
theorem execStageCred_mem : ∀ (apdu : List Byte) (w : Option Nat) (s : State), Memory.wf s.mem = true → ∀ (t : State), execStageCred apdu w s = Host.Outcome.next t → Memory.wf t.mem = true := by
  intros; unfold execStageCred at *; rename_i h; injection h with h; subst h; repeat' (first | with_reducible assumption | with_reducible apply apduArrives_mem)
theorem execChainedBlock_mem : ∀ (pcb : Byte) (f : List Byte) (s : State), Memory.wf s.mem = true → ∀ (t : State), execChainedBlock pcb f s = Host.Outcome.next t → Memory.wf t.mem = true := by
  intros; unfold execChainedBlock at *; rename_i h; injection h with h; subst h; repeat' (first | with_reducible assumption | with_reducible apply updPort_mem | with_reducible apply mem_ite)
theorem portwLock_mem : ∀ (v : Word) (s : State), Memory.wf s.mem = true → Memory.wf (portwLock v s).mem = true := by
  intros; unfold portwLock; repeat' (first | with_reducible assumption | with_reducible apply fieldProceeds_mem | with_reducible apply updPort_mem | with_reducible apply mem_ite | split)
theorem portwRefuse_mem : ∀ (e : Nat) (s : State), Memory.wf s.mem = true → Memory.wf (portwRefuse e s).mem = true := by
  intros; simp_all [portwRefuse, updPort_mem]
theorem portwCmd_mem : ∀ (wr : Bool) (s : State), Memory.wf s.mem = true → Memory.wf (portwCmd wr s).mem = true := by
  intros; unfold portwCmd; repeat' (first | with_reducible assumption | with_reducible apply portwRefuse_mem | with_reducible apply updPort_mem | with_reducible apply mem_ite)
theorem portwCmdWrite_mem : ∀ (v : Word) (s : State), Memory.wf s.mem = true → Memory.wf (portwCmdWrite v s).mem = true := by
  intros; unfold portwCmdWrite; repeat' (first | with_reducible assumption | with_reducible apply portwCmd_mem | split)
theorem execPortwTake_mem : ∀ (s : State), Memory.wf s.mem = true → ∀ (t : State), execPortwTake s = Host.Outcome.next t → Memory.wf t.mem = true := by
  intros; unfold execPortwTake at *; rename_i h; injection h with h; subst h; repeat' (first | with_reducible assumption | with_reducible apply portwLock_mem | split)
theorem execPortwPrio_mem : ∀ (s : State), Memory.wf s.mem = true → ∀ (t : State), execPortwPrio s = Host.Outcome.next t → Memory.wf t.mem = true := by
  intros; unfold execPortwPrio at *; rename_i h; injection h with h; subst h; repeat' (first | with_reducible assumption | with_reducible apply portwLock_mem | split)
theorem execPortwRelease_mem : ∀ (s : State), Memory.wf s.mem = true → ∀ (t : State), execPortwRelease s = Host.Outcome.next t → Memory.wf t.mem = true := by
  intros; unfold execPortwRelease at *; rename_i h; injection h with h; subst h; repeat' (first | with_reducible assumption | with_reducible apply portwLock_mem | split)
theorem execPortwRead_mem : ∀ (s : State), Memory.wf s.mem = true → ∀ (t : State), execPortwRead s = Host.Outcome.next t → Memory.wf t.mem = true := by
  intros; unfold execPortwRead at *; rename_i h; injection h with h; subst h; repeat' (first | with_reducible assumption | with_reducible apply portwCmd_mem | split)
theorem execPortwWrite_mem : ∀ (s : State), Memory.wf s.mem = true → ∀ (t : State), execPortwWrite s = Host.Outcome.next t → Memory.wf t.mem = true := by
  intros; unfold execPortwWrite at *; rename_i h; injection h with h; subst h; repeat' (first | with_reducible assumption | with_reducible apply portwCmd_mem | split)
theorem execPortwCmdDone_mem : ∀ (ok : Bool) (s : State), Memory.wf s.mem = true → ∀ (t : State), execPortwCmdDone ok s = Host.Outcome.next t → Memory.wf t.mem = true := by
  intros; unfold execPortwCmdDone at *; rename_i h; injection h with h; subst h; repeat' (first | with_reducible assumption | with_reducible apply updPort_mem | with_reducible apply portwRefuse_mem | with_reducible apply portWrite_mem | with_reducible apply mem_ite | split)
theorem systemArea_mem : ∀ (c : Ctx) (s : State) (checks : List (Bool × Nat)) (go : Unit → Res), Memory.wf s.mem = true → (∀ (a : Unit), Memory.wf (go a).s.mem = true) → Memory.wf (systemArea c s checks go).s.mem = true := by
  intros; unfold systemArea at *; (repeat' split) <;> simp_all [guardR_mem, busyR_mem]
theorem wireSide_mem : ∀ (c : Ctx) (s : State) (checks : List (Bool × Nat)) (go : Unit → Res), Memory.wf s.mem = true → (∀ (a : Unit), Memory.wf (go a).s.mem = true) → Memory.wf (wireSide c s checks go).s.mem = true := by
  intros; unfold wireSide at *; (repeat' split) <;> simp_all [guardR_mem, busyR_mem]
theorem portStateGet_mem : ∀ (a : Ctx) (a_1 : List Byte) (a_2 : State), Memory.wf a_2.mem = true → Memory.wf (portStateGet a a_1 a_2).s.mem = true := by
  intros; unfold portStateGet; repeat' (first | with_reducible assumption | with_reducible apply guardR_mem | with_reducible apply okR_mem | with_reducible apply updPort_mem | with_reducible intro _ | split)
theorem systemWrite_mem : ∀ (c : Ctx) (r : Res), Memory.wf r.s.mem = true → Memory.wf (systemWrite c r).s.mem = true := by
  intros; unfold systemWrite; repeat' (first | with_reducible assumption | with_reducible apply portWritten_mem | with_reducible apply errR_mem | split)
theorem moveGrant_mem : ∀ (g : Nat) (s : State), Memory.wf s.mem = true → Memory.wf (moveGrant g s).mem = true := by
  intros; unfold moveGrant; repeat' (first | with_reducible assumption | with_reducible apply updPort_mem | with_reducible apply fieldProceeds_mem | with_reducible apply mem_ite)
theorem portCfgSet_mem : ∀ (a : Ctx) (a_1 : List Byte) (a_2 : State), Memory.wf a_2.mem = true → Memory.wf (portCfgSet a a_1 a_2).s.mem = true := by
  intros; unfold portCfgSet; repeat' (first | with_reducible assumption | with_reducible apply systemArea_mem | with_reducible apply moveGrant_mem | with_reducible apply updPort_mem | with_reducible apply systemWrite_mem | with_reducible apply okR_mem | with_reducible intro _)
theorem portCfgGet_mem : ∀ (a : Ctx) (a_1 : List Byte) (a_2 : State), Memory.wf a_2.mem = true → Memory.wf (portCfgGet a a_1 a_2).s.mem = true := by
  intros; simp_all [portCfgGet, systemArea_mem, okR_mem]
theorem portMemRead_mem : ∀ (a : Ctx) (a_1 : List Byte) (a_2 : State), Memory.wf a_2.mem = true → Memory.wf (portMemRead a a_1 a_2).s.mem = true := by
  intros; unfold portMemRead; repeat' (first | with_reducible assumption | with_reducible apply badR_mem | with_reducible apply wireSide_mem | with_reducible apply okR_mem | with_reducible intro _ | split)
theorem portMemWrite_mem : ∀ (a : Ctx) (a_1 : List Byte) (a_2 : State), Memory.wf a_2.mem = true → Memory.wf (portMemWrite a a_1 a_2).s.mem = true := by
  intros; unfold portMemWrite; repeat' (first | with_reducible assumption | with_reducible apply badR_mem | with_reducible apply guardR_mem | with_reducible apply busyR_mem | with_reducible apply pendR_mem | with_reducible apply updPort_mem | with_reducible apply mem_ite_res | with_reducible intro _)
theorem memJobEnds_mem : ∀ (j : PortJob) (st det : Nat) (s : State), Memory.wf s.mem = true → Memory.wf (memJobEnds j st det s).mem = true := by
  intros; unfold memJobEnds; repeat' (first | with_reducible assumption | with_reducible apply complete_mem | with_reducible apply fieldProceeds_mem | with_reducible apply updPort_mem)
theorem execPortBlockWrite_mem : ∀ (ok : Bool) (s : State), Memory.wf s.mem = true → ∀ (t : State), execPortBlockWrite ok s = Host.Outcome.next t → Memory.wf t.mem = true := by
  intros; unfold execPortBlockWrite at *; rename_i h; injection h with h; subst h; repeat' (first | with_reducible assumption | with_reducible apply memJobEnds_mem | with_reducible apply portWrite_mem | with_reducible apply updPort_mem | with_reducible apply mem_ite | split)
theorem portPwSet_mem : ∀ (a : Ctx) (a_1 : List Byte) (a_2 : State), Memory.wf a_2.mem = true → Memory.wf (portPwSet a a_1 a_2).s.mem = true := by
  intros; unfold portPwSet; repeat' (first | with_reducible assumption | with_reducible apply systemArea_mem | with_reducible apply updPort_mem | with_reducible apply updPw_mem | with_reducible apply systemWrite_mem | with_reducible apply okR_mem | with_reducible intro _)
theorem portPwUnlock_mem : ∀ (a : Ctx) (a_1 : List Byte) (a_2 : State), Memory.wf a_2.mem = true → Memory.wf (portPwUnlock a a_1 a_2).s.mem = true := by
  intros; unfold portPwUnlock; repeat' (first | with_reducible assumption | with_reducible apply systemArea_mem | with_reducible apply updPw_mem | with_reducible apply systemWrite_mem | with_reducible apply okR_mem | with_reducible intro _)
theorem portPwGet_mem : ∀ (a : Ctx) (a_1 : List Byte) (a_2 : State), Memory.wf a_2.mem = true → Memory.wf (portPwGet a a_1 a_2).s.mem = true := by
  intros; simp_all [portPwGet, systemArea_mem, okR_mem]
theorem portCredGet_mem : ∀ (a : Ctx) (a_1 : List Byte) (a_2 : State), Memory.wf a_2.mem = true → Memory.wf (portCredGet a a_1 a_2).s.mem = true := by
  intros; simp_all [portCredGet, wireSide_mem, okR_mem]
theorem portCredClear_mem : ∀ (a : Ctx) (a_1 : List Byte) (a_2 : State), Memory.wf a_2.mem = true → Memory.wf (portCredClear a a_1 a_2).s.mem = true := by
  intros; unfold portCredClear; repeat' (first | with_reducible assumption | with_reducible apply wireSide_mem | with_reducible apply portWrites_mem | with_reducible apply okR_mem | with_reducible apply errR_mem | with_reducible apply mem_ite_res | with_reducible intro _)
theorem execPortStateGet_mem : ∀ (v : Srv) (s : State), Memory.wf s.mem = true → ∀ (t : State), execPortStateGet v s = Host.Outcome.next t → Memory.wf t.mem = true := by
  intros; unfold execPortStateGet at *; rename_i h; injection h with h; subst h; repeat' (first | with_reducible assumption | with_reducible apply serve_mem | with_reducible apply portStateGet_mem)
theorem execPortCfgSet_mem : ∀ (v : Srv) (s : State), Memory.wf s.mem = true → ∀ (t : State), execPortCfgSet v s = Host.Outcome.next t → Memory.wf t.mem = true := by
  intros; unfold execPortCfgSet at *; rename_i h; injection h with h; subst h; repeat' (first | with_reducible assumption | with_reducible apply serve_mem | with_reducible apply portCfgSet_mem)
theorem execPortCfgGet_mem : ∀ (v : Srv) (s : State), Memory.wf s.mem = true → ∀ (t : State), execPortCfgGet v s = Host.Outcome.next t → Memory.wf t.mem = true := by
  intros; unfold execPortCfgGet at *; rename_i h; injection h with h; subst h; repeat' (first | with_reducible assumption | with_reducible apply serve_mem | with_reducible apply portCfgGet_mem)
theorem execPortMemRead_mem : ∀ (v : Srv) (s : State), Memory.wf s.mem = true → ∀ (t : State), execPortMemRead v s = Host.Outcome.next t → Memory.wf t.mem = true := by
  intros; unfold execPortMemRead at *; rename_i h; injection h with h; subst h; repeat' (first | with_reducible assumption | with_reducible apply serve_mem | with_reducible apply portMemRead_mem)
theorem execPortMemWrite_mem : ∀ (v : Srv) (s : State), Memory.wf s.mem = true → ∀ (t : State), execPortMemWrite v s = Host.Outcome.next t → Memory.wf t.mem = true := by
  intros; unfold execPortMemWrite at *; rename_i h; injection h with h; subst h; repeat' (first | with_reducible assumption | with_reducible apply serve_mem | with_reducible apply portMemWrite_mem)
theorem execPortPwSet_mem : ∀ (v : Srv) (s : State), Memory.wf s.mem = true → ∀ (t : State), execPortPwSet v s = Host.Outcome.next t → Memory.wf t.mem = true := by
  intros; unfold execPortPwSet at *; rename_i h; injection h with h; subst h; repeat' (first | with_reducible assumption | with_reducible apply serve_mem | with_reducible apply portPwSet_mem)
theorem execPortPwUnlock_mem : ∀ (v : Srv) (s : State), Memory.wf s.mem = true → ∀ (t : State), execPortPwUnlock v s = Host.Outcome.next t → Memory.wf t.mem = true := by
  intros; unfold execPortPwUnlock at *; rename_i h; injection h with h; subst h; repeat' (first | with_reducible assumption | with_reducible apply serve_mem | with_reducible apply portPwUnlock_mem)
theorem execPortPwGet_mem : ∀ (v : Srv) (s : State), Memory.wf s.mem = true → ∀ (t : State), execPortPwGet v s = Host.Outcome.next t → Memory.wf t.mem = true := by
  intros; unfold execPortPwGet at *; rename_i h; injection h with h; subst h; repeat' (first | with_reducible assumption | with_reducible apply serve_mem | with_reducible apply portPwGet_mem)
theorem execPortCredGet_mem : ∀ (v : Srv) (s : State), Memory.wf s.mem = true → ∀ (t : State), execPortCredGet v s = Host.Outcome.next t → Memory.wf t.mem = true := by
  intros; unfold execPortCredGet at *; rename_i h; injection h with h; subst h; repeat' (first | with_reducible assumption | with_reducible apply serve_mem | with_reducible apply portCredGet_mem)
theorem execPortCredClear_mem : ∀ (v : Srv) (s : State), Memory.wf s.mem = true → ∀ (t : State), execPortCredClear v s = Host.Outcome.next t → Memory.wf t.mem = true := by
  intros; unfold execPortCredClear at *; rename_i h; injection h with h; subst h; repeat' (first | with_reducible assumption | with_reducible apply serve_mem | with_reducible apply portCredClear_mem)
theorem ring_mem : ∀ (who : Who) (s : State) (n : Nat), Memory.wf s.mem = true → Memory.wf (ring who s n).mem = true := by
  intros; unfold ring; repeat' (first | with_reducible assumption | with_reducible apply updMbx_mem | with_reducible apply latchSet_mem | with_reducible apply updPwr_mem | with_reducible apply mem_ite | split)
theorem doorbells_mem : ∀ (who : Who) (v : Word) (s : State), Memory.wf s.mem = true → Memory.wf (doorbells who v s).mem = true := by
  intro w v s h; exact mem_foldl _ (fun a x ha => ring_mem _ _ _ ha) _ _ h
theorem ackOne_mem : ∀ (who : Who) (s : State) (n : Nat), Memory.wf s.mem = true → Memory.wf (ackOne who s n).mem = true := by
  intros; unfold ackOne; repeat' (first | with_reducible assumption | with_reducible apply updMbx_mem | with_reducible apply hostSleeps_mem | split)
theorem acks_mem : ∀ (who : Who) (v : Word) (s : State), Memory.wf s.mem = true → Memory.wf (acks who v s).mem = true := by
  intro w v s h; exact mem_foldl _ (fun a x ha => ackOne_mem _ _ _ ha) _ _ h
theorem mbxWrite_mem : ∀ (who : Who) (off : Nat) (v : Word) (s : State), Memory.wf s.mem = true → Memory.wf (mbxWrite who off v s).mem = true := by
  intros; unfold mbxWrite; repeat' (first | with_reducible assumption | with_reducible apply doorbells_mem | with_reducible apply acks_mem | with_reducible apply updMbx_mem | split)
theorem ramWrite_mem : ∀ (a : Nat) (l : List Byte) (s : State), Memory.wf s.mem = true → Memory.wf (ramWrite a l s).mem = true := by
  intros; unfold ramWrite; repeat' (first | with_reducible assumption | with_reducible apply updMbx_mem | with_reducible apply wrBytes_mem | split)
theorem qmRead_mem : ∀ (m : Master) (q off : Nat) (rd : Option Nat) (s : State), Memory.wf s.mem = true → Memory.wf (qmRead m q off rd s).fst.mem = true := by
  intros; unfold qmRead; repeat' (first | with_reducible assumption | with_reducible apply portPop_mem | split)
theorem qmWrite_mem : ∀ (m : Master) (q off : Nat) (v : Word) (s : State), Memory.wf s.mem = true → Memory.wf (qmWrite m q off v s).mem = true := by
  intros; unfold qmWrite; repeat' (first | with_reducible assumption | with_reducible apply portPush_mem | with_reducible apply portLand_mem | with_reducible apply clearStatus_mem | split)
theorem sysctlRead_mem : ∀ (off : Nat) (s : State), Memory.wf s.mem = true → Memory.wf (sysctlRead off s).fst.mem = true := by
  intros; unfold sysctlRead; repeat' (first | with_reducible assumption | with_reducible apply mtimeLoRead_mem | split)
theorem sysctlWrite_mem : ∀ (off : Nat) (v : Word) (s : State), Memory.wf s.mem = true → Memory.wf (sysctlWrite off v s).mem = true := by
  intros; unfold sysctlWrite; repeat' (first | with_reducible assumption | with_reducible apply updClk_mem | with_reducible apply updBoot_mem | with_reducible apply corerstWrite_mem | split)
theorem pwrWrite_mem : ∀ (off : Nat) (v : Word) (s : State), Memory.wf s.mem = true → Memory.wf (pwrWrite off v s).mem = true := by
  intros; unfold pwrWrite; repeat' (first | with_reducible assumption | with_reducible apply sleepWrite_mem | with_reducible apply wakeEnWrite_mem | with_reducible apply updPwr_mem | with_reducible apply wakeAtWrite_mem | with_reducible apply acctClear_mem | split)
theorem rtcRegRead_mem : ∀ (off : Nat) (s : State), Memory.wf s.mem = true → Memory.wf (rtcRegRead off s).fst.mem = true := by
  intros; unfold rtcRegRead; repeat' (first | with_reducible assumption | with_reducible apply rtcRead_mem | split)
theorem rtcRegWrite_mem : ∀ (off : Nat) (v : Word) (s : State), Memory.wf s.mem = true → Memory.wf (rtcRegWrite off v s).mem = true := by
  intros; unfold rtcRegWrite; repeat' (first | with_reducible assumption | with_reducible apply rtcStage_mem | with_reducible apply rtcSet_mem | with_reducible apply rtcThaw_mem | with_reducible apply rtcStatWrite_mem | with_reducible apply updRtc_mem | with_reducible apply mem_ite | split)
theorem inputLevel_mem : ∀ (s : State) (pin : Nat), Memory.wf s.mem = true → Memory.wf (inputLevel s pin).fst.mem = true := by
  intros; unfold inputLevel; repeat' (first | with_reducible assumption | with_reducible apply fresh_mem | split)
theorem pinLevel_mem : ∀ (s : State) (pin : Nat), Memory.wf s.mem = true → Memory.wf (pinLevel s pin).fst.mem = true := by
  intros; unfold pinLevel; repeat' (first | with_reducible assumption | with_reducible apply inputLevel_mem | with_reducible apply fresh_mem | with_reducible apply mem_ite_fst | split)
theorem padsIn_mem : ∀ (s : State), Memory.wf s.mem = true → Memory.wf (padsIn s).fst.mem = true := by
  intro s h; refine mem_foldl_fst _ ?_ _ _ h; exact fun a x ha => pinLevel_mem _ _ ha
theorem padsRead_mem : ∀ (off : Nat) (s : State), Memory.wf s.mem = true → Memory.wf (padsRead off s).fst.mem = true := by
  intros; unfold padsRead; repeat' (first | with_reducible assumption | with_reducible apply padsIn_mem | split)
theorem padsWrite_mem : ∀ (off : Nat) (v : Word) (s : State), Memory.wf s.mem = true → Memory.wf (padsWrite off v s).mem = true := by
  intros; unfold padsWrite; repeat' (first | with_reducible assumption | with_reducible apply padsRelease_mem | with_reducible apply updPads_mem | with_reducible apply outSet_mem | with_reducible apply outClr_mem | split)
theorem seRead_mem : ∀ (n off : Nat) (s : State), Memory.wf s.mem = true → Memory.wf (seRead n off s).fst.mem = true := by
  intros; unfold seRead; repeat' (first | with_reducible assumption | with_reducible apply updSe_mem | split)
theorem seGo_mem : ∀ (n : Nat) (v : Word) (s : State), Memory.wf s.mem = true → Memory.wf (seGo n v s).mem = true := by
  intros; unfold seGo; repeat' (first | with_reducible assumption | with_reducible apply updSe_mem | with_reducible apply mem_ite)
theorem seWrite_mem : ∀ (n off : Nat) (v : Word) (s : State), Memory.wf s.mem = true → Memory.wf (seWrite n off v s).mem = true := by
  intros; unfold seWrite; repeat' (first | with_reducible assumption | with_reducible apply updSe_mem | with_reducible apply seGo_mem | split)
theorem adcRead_mem : ∀ (off : Nat) (s : State), Memory.wf s.mem = true → Memory.wf (adcRead off s).fst.mem = true := by
  intros; unfold adcRead; repeat' (first | with_reducible assumption | with_reducible apply updAdc_mem | split)
theorem adcWrite_mem : ∀ (off : Nat) (v : Word) (s : State), Memory.wf s.mem = true → Memory.wf (adcWrite off v s).mem = true := by
  intros; unfold adcWrite; repeat' (first | with_reducible assumption | with_reducible apply updAdc_mem | with_reducible apply adcStart_mem | split)
theorem tmrRead_mem : ∀ (off : Nat) (s : State), Memory.wf s.mem = true → Memory.wf (tmrRead off s).fst.mem = true := by
  intros; unfold tmrRead; repeat' (first | with_reducible assumption | with_reducible apply fresh_mem | with_reducible apply mem_ite_fst | split)
theorem tmrWrite_mem : ∀ (off : Nat) (v : Word) (s : State), Memory.wf s.mem = true → Memory.wf (tmrWrite off v s).mem = true := by
  intros; unfold tmrWrite; repeat' (first | with_reducible assumption | with_reducible apply tmrSync_mem | with_reducible apply updTmr_mem | with_reducible apply mem_ite | split)
theorem wdgWrite_mem : ∀ (off : Nat) (v : Word) (s : State), Memory.wf s.mem = true → Memory.wf (wdgWrite off v s).mem = true := by
  intros; unfold wdgWrite; repeat' (first | with_reducible assumption | with_reducible apply updWdg_mem | split)
theorem shotWrite_mem : ∀ (off : Nat) (v : Word) (s : State), Memory.wf s.mem = true → Memory.wf (shotWrite off v s).mem = true := by
  intros; unfold shotWrite; repeat' (first | with_reducible assumption | split)
theorem portwWrite_mem : ∀ (off : Nat) (v : Word) (s : State), Memory.wf s.mem = true → Memory.wf (portwWrite off v s).mem = true := by
  intros; unfold portwWrite; repeat' (first | with_reducible assumption | with_reducible apply updPort_mem | with_reducible apply portwLock_mem | with_reducible apply portwCmdWrite_mem | with_reducible apply mem_ite | split)
theorem flashcRead_mem : ∀ (off : Nat) (s : State), Memory.wf s.mem = true → Memory.wf (flashcRead off s).fst.mem = true := by
  intros; unfold flashcRead; repeat' (first | with_reducible assumption | with_reducible apply ecccntRead_mem | split)
theorem flashcWrite_mem : ∀ (off : Nat) (v : Word) (s : State), Memory.wf s.mem = true → Memory.wf (flashcWrite off v s).mem = true := by
  intros; unfold flashcWrite; repeat' (first | with_reducible assumption | with_reducible apply updFlash_mem | with_reducible apply flashcCmd_mem | with_reducible apply bselWrite_mem | with_reducible apply lockWrite_mem | split)
theorem pureR_mem : ∀ (s : State) (v : Nat), Memory.wf s.mem = true → Memory.wf (pureR s v).fst.mem = true := by
  intros; simp_all [pureR]
theorem someR_mem : ∀ (r : State × Nat), Memory.wf r.fst.mem = true → Memory.wf (someR r).fst.mem = true := by
  intros; simp_all [someR]
theorem regRead_mem : ∀ (a : Nat) (rd : Option Nat) (s : State), Memory.wf s.mem = true → Memory.wf (regRead a rd s).fst.mem = true := by
  intros; unfold regRead; repeat' (first | with_reducible assumption | with_reducible apply someR_mem | with_reducible apply flashcRead_mem | with_reducible apply qmRead_mem | with_reducible apply sysctlRead_mem | with_reducible apply pureR_mem | with_reducible apply rtcRegRead_mem | with_reducible apply padsRead_mem | with_reducible apply seRead_mem | with_reducible apply adcRead_mem | with_reducible apply tmrRead_mem | with_reducible apply mem_ite_fst | with_reducible apply mem_ite_res | with_reducible intro _ | split)
theorem regWrite_mem : ∀ (a : Nat) (v : Word) (s : State), Memory.wf s.mem = true → Memory.wf (regWrite a v s).mem = true := by
  intros; unfold regWrite; repeat' (first | with_reducible assumption | with_reducible apply flashcWrite_mem | with_reducible apply qmWrite_mem | with_reducible apply sysctlWrite_mem | with_reducible apply pwrWrite_mem | with_reducible apply mbxWrite_mem | with_reducible apply rtcRegWrite_mem | with_reducible apply padsWrite_mem | with_reducible apply seWrite_mem | with_reducible apply adcWrite_mem | with_reducible apply tmrWrite_mem | with_reducible apply wdgWrite_mem | with_reducible apply shotWrite_mem | with_reducible apply portwWrite_mem | with_reducible apply mem_ite | split)
theorem xipRead_mem : ∀ (a n : Nat) (fetch : Bool) (s : State), Memory.wf s.mem = true → Memory.wf (xipRead a n fetch s).fst.mem = true := by
  intro a n f s h; unfold xipRead; split
  · exact h
  split
  · exact h
  · rename_i hf; have := flashRead_mem _ _ _ _ h _ hf
    dsimp only; split
    · exact this
    · exact updFlash_mem _ _ this
theorem busRead_mem : ∀ (a : Nat) (z : Size) (rd : Option Nat) (s : State), Memory.wf s.mem = true → Memory.wf (busRead a z rd s).fst.mem = true := by
  intros; grind [busRead, xipRead_mem, regRead_mem]
theorem busWrite_mem : ∀ (a : Nat) (z : Size) (v : Word) (s : State), Memory.wf s.mem = true → ∀ (t : State), busWrite a z v s = some t → Memory.wf t.mem = true := by
  intros; grind [busWrite, wrBytes_mem, ramWrite_mem, regWrite_mem]
theorem execDoorbell_mem : ∀ (who : Who) (v : Word) (s : State), Memory.wf s.mem = true → ∀ (t : State), execDoorbell who v s = Host.Outcome.next t → Memory.wf t.mem = true := by
  intros; unfold execDoorbell at *; rename_i h; injection h with h; subst h; repeat' (first | with_reducible assumption | with_reducible apply doorbells_mem | split)
theorem execMbxAck_mem : ∀ (who : Who) (v : Word) (s : State), Memory.wf s.mem = true → ∀ (t : State), execMbxAck who v s = Host.Outcome.next t → Memory.wf t.mem = true := by
  intros; unfold execMbxAck at *; rename_i h; injection h with h; subst h; repeat' (first | with_reducible assumption | with_reducible apply acks_mem | split)
theorem execRequestBufferWrite_mem : ∀ (who : Who) (addr : Nat) (size : Size) (v : Word) (s : State), Memory.wf s.mem = true → ∀ (t : State), execRequestBufferWrite who addr size v s = Host.Outcome.next t → Memory.wf t.mem = true := by
  intro w a z v s h t ht
  injection ht with ht; subst ht
  repeat' split
  all_goals first | exact h | exact ramWrite_mem _ _ _ h
theorem execRegisterWrite_mem : ∀ (who : Who) (addr v : Word) (s : State), Memory.wf s.mem = true → ∀ (t : State), execRegisterWrite who addr v s = Host.Outcome.next t → Memory.wf t.mem = true := by
  intros; unfold execRegisterWrite at *; rename_i h; injection h with h; subst h; repeat' (first | with_reducible assumption | with_reducible apply regWrite_mem | with_reducible apply mbxWrite_mem | with_reducible apply qmWrite_mem | with_reducible apply mem_ite | split)
theorem hostWrite_mem : ∀ (space a : Nat) (v : Word) (s : State), Memory.wf s.mem = true → Memory.wf (hostWrite space a v s).fst.mem = true := by
  intros; unfold hostWrite; repeat' (first | with_reducible assumption | with_reducible apply ramWrite_mem | with_reducible apply mbxWrite_mem | with_reducible apply qmWrite_mem | split)
theorem hostWrites_mem : ∀ (space : Nat) (a : List Word) (a_1 : Nat) (a_2 : State), Memory.wf a_2.mem = true → Memory.wf (hostWrites space a a_1 a_2).fst.mem = true := by
  intro sp l; induction l with
  | nil => exact fun a s h => h
  | cons a l ih => exact fun b s h => ih _ _ (hostWrite_mem _ _ _ _ h)
theorem hostRead_mem : ∀ (space a : Nat) (first : Bool) (s : State), Memory.wf s.mem = true → Memory.wf (hostRead space a first s).fst.mem = true := by
  intros; unfold hostRead; repeat' (first | with_reducible assumption | with_reducible apply qmRead_mem | with_reducible apply mem_ite_fst | split)
theorem hostReads_mem : ∀ (space a a_1 : Nat) (a_2 : Bool) (a_3 : State), Memory.wf a_3.mem = true → Memory.wf (hostReads space a a_1 a_2 a_3).fst.mem = true := by
  intro sp n; induction n with
  | zero => exact fun a f s h => h
  | succ n ih =>
    intro a f s h; unfold hostReads
    have := hostRead_mem sp a f s h
    split
    · rename_i he; rw [he] at this; exact this
    · rename_i he; rw [he] at this; exact ih _ _ _ this
theorem hostEnds_mem : ∀ (s : State), Memory.wf s.mem = true → Memory.wf (hostEnds s).mem = true := by
  intros; unfold hostEnds; repeat' (first | with_reducible assumption | with_reducible apply updQm_mem | split)
theorem execHostWriteTransaction_mem : ∀ (sdi : List Byte) (partWord : Bool) (s0 : State), Memory.wf s0.mem = true → ∀ (t : State), execHostWriteTransaction sdi partWord s0 = Host.Outcome.next t → Memory.wf t.mem = true := by
  intros; unfold execHostWriteTransaction at *; rename_i h; injection h with h; subst h; repeat' (first | with_reducible assumption | with_reducible apply hostEnds_mem | with_reducible apply hostWrites_mem | with_reducible apply mem_ite | split)
theorem execHostReadTransaction_mem : ∀ (sdi : List Byte) (words : Nat) (partWord : Bool) (s0 : State), Memory.wf s0.mem = true → ∀ (t : State), execHostReadTransaction sdi words partWord s0 = Host.Outcome.next t → Memory.wf t.mem = true := by
  intros; unfold execHostReadTransaction at *; rename_i h; injection h with h; subst h; repeat' (first | with_reducible assumption | with_reducible apply hostEnds_mem | with_reducible apply fresh_mem | with_reducible apply hostReads_mem | with_reducible apply mem_ite)
theorem eventWrite_mem : ∀ (ch : Nat) (s : State), Memory.wf s.mem = true → Memory.wf (eventWrite ch s).mem = true := by
  intros; unfold eventWrite; repeat' (first | with_reducible assumption | with_reducible apply wrBytes_mem | with_reducible apply setEvq_mem | with_reducible apply updMbx_mem | with_reducible apply mem_ite | split)
theorem execEventWrite_mem : ∀ (ch : Nat) (s : State), Memory.wf s.mem = true → ∀ (t : State), execEventWrite ch s = Host.Outcome.next t → Memory.wf t.mem = true := by
  intros; unfold execEventWrite at *; rename_i h; injection h with h; subst h; repeat' (first | with_reducible assumption | with_reducible apply eventWrite_mem)
theorem execAuthLockoutEnd_mem : ∀ (req : Requester) (s : State), Memory.wf s.mem = true → ∀ (t : State), execAuthLockoutEnd req s = Host.Outcome.next t → Memory.wf t.mem = true := by
  intros; unfold execAuthLockoutEnd at *; rename_i h; injection h with h; subst h; repeat' (first | with_reducible assumption | with_reducible apply updMbx_mem)
theorem sysInfo_mem : ∀ (a : Ctx) (a_1 : List Byte) (a_2 : State), Memory.wf a_2.mem = true → Memory.wf (sysInfo a a_1 a_2).s.mem = true := by
  intros; simp_all [sysInfo, okR_mem]
theorem sysCaps_mem : ∀ (a : Ctx) (a_1 : List Byte) (a_2 : State), Memory.wf a_2.mem = true → Memory.wf (sysCaps a a_1 a_2).s.mem = true := by
  intros; simp_all [sysCaps, okR_mem]
theorem sysReset_mem : ∀ (a : Ctx) (a_1 : List Byte) (a_2 : State), Memory.wf a_2.mem = true → Memory.wf (sysReset a a_1 a_2).s.mem = true := by
  intros; unfold sysReset; repeat' (first | with_reducible assumption | with_reducible apply guardR_mem | with_reducible apply okR_mem | with_reducible apply updBoot_mem | with_reducible intro _)
theorem debugUnlock_mem : ∀ (a : Ctx) (a_1 : List Byte) (a_2 : State), Memory.wf a_2.mem = true → Memory.wf (debugUnlock a a_1 a_2).s.mem = true := by
  intros; unfold debugUnlock; repeat' (first | with_reducible assumption | with_reducible apply guardR_mem | with_reducible apply updBoot_mem | with_reducible apply okR_mem | with_reducible intro _)
theorem optionRead_mem : ∀ (a : Ctx) (a_1 : List Byte) (a_2 : State), Memory.wf a_2.mem = true → Memory.wf (optionRead a a_1 a_2).s.mem = true := by
  intros; simp_all [optionRead, guardR_mem, okR_mem]
theorem optionStore_mem : ∀ (c : Ctx) (new : OptBlock) (s : State) (done : State → Res), Memory.wf s.mem = true → (∀ (a : State), Memory.wf a.mem = true → Memory.wf (done a).s.mem = true) → Memory.wf (optionStore c new s done).s.mem = true := by
  intros; grind [optionStore, updBoot_mem, errR_mem, fresh_mem]
theorem optionWrite_mem : ∀ (a : Ctx) (a_1 : List Byte) (a_2 : State), Memory.wf a_2.mem = true → Memory.wf (optionWrite a a_1 a_2).s.mem = true := by
  intros; unfold optionWrite; dsimp only; repeat' (first | with_reducible assumption | with_reducible apply guardR_mem | with_reducible apply badR_mem | with_reducible apply optionStore_mem | with_reducible apply okR_mem | with_reducible intro _ | split)
theorem modeLock_mem : ∀ (a : Ctx) (a_1 : List Byte) (a_2 : State), Memory.wf a_2.mem = true → Memory.wf (modeLock a a_1 a_2).s.mem = true := by
  intros; unfold modeLock; repeat' (first | with_reducible assumption | with_reducible apply guardR_mem | with_reducible apply optionStore_mem | with_reducible apply okR_mem | with_reducible intro _)
theorem cmdCounterGet_mem : ∀ (a : Ctx) (a_1 : List Byte) (a_2 : State), Memory.wf a_2.mem = true → Memory.wf (cmdCounterGet a a_1 a_2).s.mem = true := by
  intros; simp_all [cmdCounterGet, okR_mem]
theorem counterRaise_mem : ∀ (a : Ctx) (a_1 : List Byte) (a_2 : State), Memory.wf a_2.mem = true → Memory.wf (counterRaise a a_1 a_2).s.mem = true := by
  intros; unfold counterRaise; repeat' (first | with_reducible assumption | with_reducible apply guardR_mem | with_reducible apply errR_mem | with_reducible apply okR_mem | with_reducible apply updMbx_mem | with_reducible intro _ | split)
theorem eventFilterSet_mem : ∀ (a : Ctx) (a_1 : List Byte) (a_2 : State), Memory.wf a_2.mem = true → Memory.wf (eventFilterSet a a_1 a_2).s.mem = true := by
  intros; unfold eventFilterSet; repeat' (first | with_reducible assumption | with_reducible apply guardR_mem | with_reducible apply okR_mem | with_reducible apply setEvq_mem | with_reducible intro _)
theorem eventFilterGet_mem : ∀ (a : Ctx) (a_1 : List Byte) (a_2 : State), Memory.wf a_2.mem = true → Memory.wf (eventFilterGet a a_1 a_2).s.mem = true := by
  intros; simp_all [eventFilterGet, guardR_mem, okR_mem]
theorem execSysInfo_mem : ∀ (v : Srv) (s : State), Memory.wf s.mem = true → ∀ (t : State), execSysInfo v s = Host.Outcome.next t → Memory.wf t.mem = true := by
  intros; unfold execSysInfo at *; rename_i h; injection h with h; subst h; repeat' (first | with_reducible assumption | with_reducible apply serve_mem | with_reducible apply sysInfo_mem)
theorem execSysCaps_mem : ∀ (v : Srv) (s : State), Memory.wf s.mem = true → ∀ (t : State), execSysCaps v s = Host.Outcome.next t → Memory.wf t.mem = true := by
  intros; unfold execSysCaps at *; rename_i h; injection h with h; subst h; repeat' (first | with_reducible assumption | with_reducible apply serve_mem | with_reducible apply sysCaps_mem)
theorem execSysReset_mem : ∀ (v : Srv) (s : State), Memory.wf s.mem = true → ∀ (t : State), execSysReset v s = Host.Outcome.next t → Memory.wf t.mem = true := by
  intros; unfold execSysReset at *; rename_i h; injection h with h; subst h; repeat' (first | with_reducible assumption | with_reducible apply serve_mem | with_reducible apply sysReset_mem)
theorem execModeLock_mem : ∀ (v : Srv) (s : State), Memory.wf s.mem = true → ∀ (t : State), execModeLock v s = Host.Outcome.next t → Memory.wf t.mem = true := by
  intros; unfold execModeLock at *; rename_i h; injection h with h; subst h; repeat' (first | with_reducible assumption | with_reducible apply serve_mem | with_reducible apply modeLock_mem)
theorem execDebugUnlock_mem : ∀ (v : Srv) (s : State), Memory.wf s.mem = true → ∀ (t : State), execDebugUnlock v s = Host.Outcome.next t → Memory.wf t.mem = true := by
  intros; unfold execDebugUnlock at *; rename_i h; injection h with h; subst h; repeat' (first | with_reducible assumption | with_reducible apply serve_mem | with_reducible apply debugUnlock_mem)
theorem execOptionRead_mem : ∀ (v : Srv) (s : State), Memory.wf s.mem = true → ∀ (t : State), execOptionRead v s = Host.Outcome.next t → Memory.wf t.mem = true := by
  intros; unfold execOptionRead at *; rename_i h; injection h with h; subst h; repeat' (first | with_reducible assumption | with_reducible apply serve_mem | with_reducible apply optionRead_mem)
theorem execOptionWrite_mem : ∀ (v : Srv) (s : State), Memory.wf s.mem = true → ∀ (t : State), execOptionWrite v s = Host.Outcome.next t → Memory.wf t.mem = true := by
  intros; unfold execOptionWrite at *; rename_i h; injection h with h; subst h; repeat' (first | with_reducible assumption | with_reducible apply serve_mem | with_reducible apply optionWrite_mem)
theorem execCmdCounterGet_mem : ∀ (v : Srv) (s : State), Memory.wf s.mem = true → ∀ (t : State), execCmdCounterGet v s = Host.Outcome.next t → Memory.wf t.mem = true := by
  intros; unfold execCmdCounterGet at *; rename_i h; injection h with h; subst h; repeat' (first | with_reducible assumption | with_reducible apply serve_mem | with_reducible apply cmdCounterGet_mem)
theorem execCounterRaise_mem : ∀ (v : Srv) (s : State), Memory.wf s.mem = true → ∀ (t : State), execCounterRaise v s = Host.Outcome.next t → Memory.wf t.mem = true := by
  intros; unfold execCounterRaise at *; rename_i h; injection h with h; subst h; repeat' (first | with_reducible assumption | with_reducible apply serve_mem | with_reducible apply counterRaise_mem)
theorem execEventFilterSet_mem : ∀ (v : Srv) (s : State), Memory.wf s.mem = true → ∀ (t : State), execEventFilterSet v s = Host.Outcome.next t → Memory.wf t.mem = true := by
  intros; unfold execEventFilterSet at *; rename_i h; injection h with h; subst h; repeat' (first | with_reducible assumption | with_reducible apply serve_mem | with_reducible apply eventFilterSet_mem)
theorem execEventFilterGet_mem : ∀ (v : Srv) (s : State), Memory.wf s.mem = true → ∀ (t : State), execEventFilterGet v s = Host.Outcome.next t → Memory.wf t.mem = true := by
  intros; unfold execEventFilterGet at *; rename_i h; injection h with h; subst h; repeat' (first | with_reducible assumption | with_reducible apply serve_mem | with_reducible apply eventFilterGet_mem)
theorem shotCore_mem : ∀ (a : Nat) (t : CoreFn), shotCore a = some t → ∀ (a : Ctx) (a_1 : List Byte) (a_2 : State), Memory.wf a_2.mem = true → Memory.wf (t a a_1 a_2).s.mem = true := by
  intro op t ht c p s h
  unfold shotCore at ht
  split at ht
  all_goals first | (injection ht with ht; subst ht; first | with_reducible exact radioTuneSet_mem _ _ _ h | with_reducible exact radioPaSet_mem _ _ _ h | with_reducible exact radioCompSet_mem _ _ _ h | with_reducible exact radioDivSet_mem _ _ _ h | with_reducible exact radioExtSet_mem _ _ _ h | with_reducible exact laneSet_mem _ _ _ h | with_reducible exact phyProfileSet_mem _ _ _ h | with_reducible exact canarySet_mem _ _ _ h | with_reducible exact linkCfgSet_mem _ _ _ h | with_reducible exact nbrSet_mem _ _ _ h | with_reducible exact routeSet_mem _ _ _ h | with_reducible exact timingCfgSet_mem _ _ _ h | with_reducible exact timingChseqSet_mem _ _ _ h | with_reducible exact tallyCfgSet_mem _ _ _ h | with_reducible exact tallyBandSet_mem _ _ _ h | with_reducible exact queueSet_mem _ _ _ h | with_reducible exact qmCfgSet_mem _ _ _ h | with_reducible exact flowSet_mem _ _ _ h | with_reducible exact shaperSet_mem _ _ _ h | with_reducible exact keyUsageSet_mem _ _ _ h) | cases ht
theorem entryRun_mem : ∀ (op : Nat) (p : List Byte) (req : Requester) (s : State), Memory.wf s.mem = true → Memory.wf (entryRun op p req s).s.mem = true := by
  intro op p r s h; unfold entryRun; split
  · rename_i hs; split
    · exact errR_mem _ _ _ h
    · exact shotCore_mem _ _ hs _ _ _ h
  · exact errR_mem _ _ _ h
theorem entryStatus_mem : ∀ (x : Option (Nat × Nat)) (s : State), Memory.wf s.mem = true → Memory.wf (entryStatus x s).fst.mem = true := by
  intros; unfold entryStatus; repeat' (first | with_reducible assumption | with_reducible apply fresh_mem | split)
theorem shotOpen_mem : ∀ (a : Ctx) (a_1 : List Byte) (a_2 : State), Memory.wf a_2.mem = true → Memory.wf (shotOpen a a_1 a_2).s.mem = true := by
  intros; unfold shotOpen; repeat' (first | with_reducible assumption | with_reducible apply busyR_mem | with_reducible apply okR_mem | with_reducible apply updShot_mem | split)
theorem namedShot_mem : ∀ (c : Ctx) (p : List Byte) (s : State) (accepts : ShotState → Bool) (go : Nat → Shot → Res), Memory.wf s.mem = true → (∀ (a : Nat) (a_1 : Shot), Memory.wf (go a a_1).s.mem = true) → Memory.wf (namedShot c p s accepts go).s.mem = true := by
  intros; grind [namedShot, badR_mem, busyR_mem]
theorem shotAdd_mem : ∀ (a : Ctx) (a_1 : List Byte) (a_2 : State), Memory.wf a_2.mem = true → Memory.wf (shotAdd a a_1 a_2).s.mem = true := by
  intros; unfold shotAdd; repeat' (first | with_reducible assumption | with_reducible apply namedShot_mem | with_reducible apply guardR_mem | with_reducible apply badR_mem | with_reducible apply errR_mem | with_reducible apply okR_mem | with_reducible apply updShot_mem | with_reducible intro _ | split)
theorem shotFire_mem : ∀ (a : Ctx) (a_1 : List Byte) (a_2 : State), Memory.wf a_2.mem = true → Memory.wf (shotFire a a_1 a_2).s.mem = true := by
  intros; unfold shotFire; repeat' (first | with_reducible assumption | with_reducible apply namedShot_mem | with_reducible apply guardR_mem | with_reducible apply errR_mem | with_reducible apply entryStatus_mem | with_reducible apply pendR_mem | with_reducible apply updShot_mem | with_reducible apply shotFalls_mem | with_reducible apply mem_ite | with_reducible apply mem_ite_fst | with_reducible apply mem_ite_res | with_reducible intro _ | split)
theorem shotAbort_mem : ∀ (a : Ctx) (a_1 : List Byte) (a_2 : State), Memory.wf a_2.mem = true → Memory.wf (shotAbort a a_1 a_2).s.mem = true := by
  intros; unfold shotAbort; repeat' (first | with_reducible assumption | with_reducible apply namedShot_mem | with_reducible apply guardR_mem | with_reducible apply okR_mem | with_reducible apply updShot_mem | with_reducible apply shotDropped_mem | with_reducible intro _ | split)
theorem shotStatus_mem : ∀ (a : Ctx) (a_1 : List Byte) (a_2 : State), Memory.wf a_2.mem = true → Memory.wf (shotStatus a a_1 a_2).s.mem = true := by
  intros; simp_all [shotStatus, okR_mem]
theorem execShotOpen_mem : ∀ (v : Srv) (s : State), Memory.wf s.mem = true → ∀ (t : State), execShotOpen v s = Host.Outcome.next t → Memory.wf t.mem = true := by
  intros; unfold execShotOpen at *; rename_i h; injection h with h; subst h; repeat' (first | with_reducible assumption | with_reducible apply serve_mem | with_reducible apply shotOpen_mem)
theorem execShotAdd_mem : ∀ (v : Srv) (s : State), Memory.wf s.mem = true → ∀ (t : State), execShotAdd v s = Host.Outcome.next t → Memory.wf t.mem = true := by
  intros; unfold execShotAdd at *; rename_i h; injection h with h; subst h; repeat' (first | with_reducible assumption | with_reducible apply serve_mem | with_reducible apply shotAdd_mem)
theorem execShotFire_mem : ∀ (v : Srv) (s : State), Memory.wf s.mem = true → ∀ (t : State), execShotFire v s = Host.Outcome.next t → Memory.wf t.mem = true := by
  intros; unfold execShotFire at *; rename_i h; injection h with h; subst h; repeat' (first | with_reducible assumption | with_reducible apply serve_mem | with_reducible apply shotFire_mem)
theorem execShotAbort_mem : ∀ (v : Srv) (s : State), Memory.wf s.mem = true → ∀ (t : State), execShotAbort v s = Host.Outcome.next t → Memory.wf t.mem = true := by
  intros; unfold execShotAbort at *; rename_i h; injection h with h; subst h; repeat' (first | with_reducible assumption | with_reducible apply serve_mem | with_reducible apply shotAbort_mem)
theorem execShotStatus_mem : ∀ (v : Srv) (s : State), Memory.wf s.mem = true → ∀ (t : State), execShotStatus v s = Host.Outcome.next t → Memory.wf t.mem = true := by
  intros; unfold execShotStatus at *; rename_i h; injection h with h; subst h; repeat' (first | with_reducible assumption | with_reducible apply serve_mem | with_reducible apply shotStatus_mem)
theorem execShotTrigger_mem : ∀ (n : Nat) (s : State), Memory.wf s.mem = true → ∀ (t : State), execShotTrigger n s = Host.Outcome.next t → Memory.wf t.mem = true := by
  intros; unfold execShotTrigger at *; rename_i h; injection h with h; subst h; repeat' (first | with_reducible assumption | with_reducible apply shotFalls_mem | with_reducible apply mem_ite)
theorem execShotFrameTimeout_mem : ∀ (n : Nat) (s : State), Memory.wf s.mem = true → ∀ (t : State), execShotFrameTimeout n s = Host.Outcome.next t → Memory.wf t.mem = true := by
  intros; unfold execShotFrameTimeout at *; rename_i h; injection h with h; subst h; repeat' (first | with_reducible assumption | with_reducible apply shotFalls_mem | with_reducible apply mem_ite)
theorem resume_mem : ∀ (s : State), Memory.wf s.mem = true → Memory.wf (resume s).mem = true := by
  intros; unfold resume; repeat' (first | with_reducible assumption | with_reducible apply linkKick_mem | split)
theorem execShotQuiesceStart_mem : ∀ (n : Nat) (s : State), Memory.wf s.mem = true → ∀ (t : State), execShotQuiesceStart n s = Host.Outcome.next t → Memory.wf t.mem = true := by
  intros; unfold execShotQuiesceStart at *; rename_i h; injection h with h; subst h; dsimp only; repeat' (first | with_reducible assumption | with_reducible apply entryStatus_mem | with_reducible apply shotEnd_mem | with_reducible apply updShot_mem | split)
theorem regEntry_mem : ∀ (a mask value : Nat) (s : State), Memory.wf s.mem = true → Memory.wf (regEntry a mask value s).mem = true := by
  intros; unfold regEntry; repeat' (first | with_reducible assumption | with_reducible apply regRead_mem | with_reducible apply regWrite_mem | split)
theorem applyEntry_mem : ∀ (req : Requester) (s : State) (e : Entry), Memory.wf s.mem = true → Memory.wf (applyEntry req s e).mem = true := by
  intros; unfold applyEntry; repeat' (first | with_reducible assumption | with_reducible apply regEntry_mem | with_reducible apply entryRun_mem | split)
theorem cutReceptions_mem : ∀ (b : Shot) (s : State), Memory.wf s.mem = true → Memory.wf (cutReceptions b s).mem = true := by
  intro b s h; unfold cutReceptions; dsimp only
  have := mem_foldl (fun a n => updLane n (fun l => if l.frame.isSome then { l with frame := none, stats := { l.stats with cut := inc32 l.stats.cut } } else l) a) (fun a x ha => updLane_mem _ _ _ ha) (shotLanes b).eraseDups s h
  split
  · exact updCanary_mem _ _ this
  · exact this
theorem execShotSwap_mem : ∀ (n : Nat) (s : State), Memory.wf s.mem = true → ∀ (t : State), execShotSwap n s = Host.Outcome.next t → Memory.wf t.mem = true := by
  intro n s h t ht
  injection ht with ht; subst ht
  dsimp only; split
  · exact h
  · refine resume_mem _ ?_
    have h0 : Memory.wf (if (shotOf s n).rxCut then cutReceptions (shotOf s n) s else s).mem = true := by
      split
      · exact cutReceptions_mem _ _ h
      · exact h
    have h1 := mem_foldl (applyEntry (shotOf s n).req) (fun a x ha => applyEntry_mem _ _ _ ha) (shotOf s n).entries _ h0
    split
    · exact updShot_mem _ _ _ h1
    · exact shotEnd_mem _ _ _ _ _ _ _ _ _ h1
theorem execShotBoundExpiry_mem : ∀ (n : Nat) (s : State), Memory.wf s.mem = true → ∀ (t : State), execShotBoundExpiry n s = Host.Outcome.next t → Memory.wf t.mem = true := by
  intros; unfold execShotBoundExpiry at *; rename_i h; injection h with h; subst h; repeat' (first | with_reducible assumption | with_reducible apply resume_mem | with_reducible apply shotEnd_mem | with_reducible apply mem_ite)
theorem execShotPersistDone_mem : ∀ (n : Nat) (fail : Option Nat) (s : State), Memory.wf s.mem = true → ∀ (t : State), execShotPersistDone n fail s = Host.Outcome.next t → Memory.wf t.mem = true := by
  intros; unfold execShotPersistDone at *; rename_i h; injection h with h; subst h; repeat' (first | with_reducible assumption | with_reducible apply shotEnd_mem | with_reducible apply writeSettings_mem | with_reducible apply mem_ite | split)
theorem unitBody_mem : ∀ (u : Nat) (s : State), Memory.wf s.mem = true → Memory.wf (unitBody u s).fst.mem = true := by
  intros; unfold unitBody; repeat' (first | with_reducible assumption | with_reducible apply fresh_mem | with_reducible apply freshBytes_mem | split)
theorem survey_mem : ∀ (a : Ctx) (a_1 : List Byte) (a_2 : State), Memory.wf a_2.mem = true → Memory.wf (survey a a_1 a_2).s.mem = true := by
  intros; unfold survey; repeat' (first | with_reducible assumption | with_reducible apply guardR_mem | with_reducible apply busyR_mem | with_reducible apply okR_mem | with_reducible apply updMbx_mem | with_reducible apply mem_ite_res | with_reducible intro _)
theorem execSurvey_mem : ∀ (v : Srv) (s : State), Memory.wf s.mem = true → ∀ (t : State), execSurvey v s = Host.Outcome.next t → Memory.wf t.mem = true := by
  intros; unfold execSurvey at *; rename_i h; injection h with h; subst h; repeat' (first | with_reducible assumption | with_reducible apply serve_mem | with_reducible apply survey_mem)
theorem execSurveyCapture_mem : ∀ (s : State), Memory.wf s.mem = true → ∀ (t : State), execSurveyCapture s = Host.Outcome.next t → Memory.wf t.mem = true := by
  intro s h t ht
  injection ht with ht; subst ht
  split
  · exact h
  dsimp only; split
  · exact h
  · refine resume_mem _ (updMbx_mem _ _ (mem_foldl_fst _ ?_ _ _ h)); exact fun a x ha => unitBody_mem _ _ ha
theorem execSurveyQuiesceTimeout_mem : ∀ (s : State), Memory.wf s.mem = true → ∀ (t : State), execSurveyQuiesceTimeout s = Host.Outcome.next t → Memory.wf t.mem = true := by
  intros; unfold execSurveyQuiesceTimeout at *; rename_i h; injection h with h; subst h; repeat' (first | with_reducible assumption | with_reducible apply resume_mem | with_reducible apply updMbx_mem | split)
theorem surveyEvent_mem : ∀ (v : SurveyRun) (more : Bool) (payload : List Byte) (s : State), Memory.wf s.mem = true → Memory.wf (surveyEvent v more payload s).mem = true := by
  intros; simp_all [surveyEvent, enqueue_mem]
theorem surveyPart_mem : ∀ (v : SurveyRun) (u : Nat) (us : List Nat) (s : State), Memory.wf s.mem = true → Memory.wf (surveyPart v u us s).mem = true := by
  intros; unfold surveyPart; repeat' (first | with_reducible assumption | with_reducible apply unitBody_mem | with_reducible apply fresh_mem | with_reducible apply updMbx_mem | with_reducible apply surveyEvent_mem | with_reducible apply mem_ite_fst)
theorem surveyEnds_mem : ∀ (v : SurveyRun) (s : State), Memory.wf s.mem = true → Memory.wf (surveyEnds v s).mem = true := by
  intros; unfold surveyEnds; repeat' (first | with_reducible assumption | with_reducible apply fresh_mem | with_reducible apply updMbx_mem | with_reducible apply surveyEvent_mem)
theorem execSurveyRecord_mem : ∀ (s : State), Memory.wf s.mem = true → ∀ (t : State), execSurveyRecord s = Host.Outcome.next t → Memory.wf t.mem = true := by
  intros; unfold execSurveyRecord at *; rename_i h; injection h with h; subst h; repeat' (first | with_reducible assumption | with_reducible apply surveyEnds_mem | with_reducible apply surveyPart_mem | split)
theorem coreOf_mem : ∀ (op : Nat) (a : Ctx) (a_1 : List Byte) (a_2 : State), Memory.wf a_2.mem = true → Memory.wf (coreOf op a a_1 a_2).s.mem = true := by
  intro op a b s h
  unfold coreOf
  split
  · exact sysInfo_mem _ _ _ h
  · exact sysCaps_mem _ _ _ h
  · exact survey_mem _ _ _ h
  · exact sysReset_mem _ _ _ h
  · exact modeSet_mem _ _ _ h
  · exact modeGet_mem _ _ _ h
  · exact modeLock_mem _ _ _ h
  · exact debugUnlock_mem _ _ _ h
  · exact optionRead_mem _ _ _ h
  · exact optionWrite_mem _ _ _ h
  · exact cmdCounterGet_mem _ _ _ h
  · exact counterRaise_mem _ _ _ h
  · exact eventFilterSet_mem _ _ _ h
  · exact eventFilterGet_mem _ _ _ h
  · exact shotOpen_mem _ _ _ h
  · exact shotAdd_mem _ _ _ h
  · exact shotFire_mem _ _ _ h
  · exact shotAbort_mem _ _ _ h
  · exact shotStatus_mem _ _ _ h
  · exact radioStateGet_mem _ _ _ h
  · exact radioTuneSet_mem _ _ _ h
  · exact radioTuneGet_mem _ _ _ h
  · exact radioPaSet_mem _ _ _ h
  · exact radioPaGet_mem _ _ _ h
  · exact radioCompSet_mem _ _ _ h
  · exact radioCompGet_mem _ _ _ h
  · exact radioDivSet_mem _ _ _ h
  · exact radioDivGet_mem _ _ _ h
  · exact radioExtSet_mem _ _ _ h
  · exact radioExtGet_mem _ _ _ h
  · exact radioCal_mem _ _ _ h
  · exact radioRssi_mem _ _ _ h
  · exact radioCca_mem _ _ _ h
  · exact radioStatsGet_mem _ _ _ h
  · exact radioTestTx_mem _ _ _ h
  · exact radioTestStop_mem _ _ _ h
  · exact laneStateGet_mem _ _ _ h
  · exact laneSet_mem _ _ _ h
  · exact laneGet_mem _ _ _ h
  · exact laneStatsGet_mem _ _ _ h
  · exact phyProfileSet_mem _ _ _ h
  · exact phyProfileGet_mem _ _ _ h
  · exact phyQualityGet_mem _ _ _ h
  · exact phyStatsGet_mem _ _ _ h
  · exact canaryStateGet_mem _ _ _ h
  · exact canarySet_mem _ _ _ h
  · exact canaryGet_mem _ _ _ h
  · exact canarySend_mem _ _ _ h
  · exact canaryStatsGet_mem _ _ _ h
  · exact linkStateGet_mem _ _ _ h
  · exact linkCfgSet_mem _ _ _ h
  · exact linkCfgGet_mem _ _ _ h
  · exact nbrSet_mem _ _ _ h
  · exact nbrGet_mem _ _ _ h
  · exact nbrFind_mem _ _ _ h
  · exact routeSet_mem _ _ _ h
  · exact routeGet_mem _ _ _ h
  · exact routeLookup_mem _ _ _ h
  · exact linkJoin_mem _ _ _ h
  · exact linkJoinReply_mem _ _ _ h
  · exact linkStatsGet_mem _ _ _ h
  · exact timingStateGet_mem _ _ _ h
  · exact timingCfgSet_mem _ _ _ h
  · exact timingCfgGet_mem _ _ _ h
  · exact timingChseqSet_mem _ _ _ h
  · exact timingChseqGet_mem _ _ _ h
  · exact timingNbrGet_mem _ _ _ h
  · exact timingMtimeSet_mem _ _ _ h
  · exact timingBeacon_mem _ _ _ h
  · exact timingResync_mem _ _ _ h
  · exact timeSync_mem _ _ _ h
  · exact timingStatsGet_mem _ _ _ h
  · exact tallyCfgSet_mem _ _ _ h
  · exact tallyCfgGet_mem _ _ _ h
  · exact tallyBandSet_mem _ _ _ h
  · exact tallyBandGet_mem _ _ _ h
  · exact tallyUsageGet_mem _ _ _ h
  · exact tallyCheck_mem _ _ _ h
  · exact tallyStatsGet_mem _ _ _ h
  · exact tallyClear_mem _ _ _ h
  · exact qmStateGet_mem _ _ _ h
  · exact queueSet_mem _ _ _ h
  · exact queueGet_mem _ _ _ h
  · exact queueStatusGet_mem _ _ _ h
  · exact qmCfgSet_mem _ _ _ h
  · exact qmCfgGet_mem _ _ _ h
  · exact queueFlush_mem _ _ _ h
  · exact qmStatsGet_mem _ _ _ h
  · exact schedStateGet_mem _ _ _ h
  · exact flowSet_mem _ _ _ h
  · exact flowGet_mem _ _ _ h
  · exact flowStateGet_mem _ _ _ h
  · exact shaperSet_mem _ _ _ h
  · exact shaperGet_mem _ _ _ h
  · exact schedStatsGet_mem _ _ _ h
  · exact cipherStateGet_mem _ _ _ h
  · exact keyInfoGet_mem _ _ _ h
  · exact keyUsageSet_mem _ _ _ h
  · exact keyImport_mem _ _ _ h
  · exact keyRetire_mem _ _ _ h
  · exact keyGenerate_mem _ _ _ h
  · exact cipherRun_mem _ _ _ h
  · exact rngGet_mem _ _ _ h
  · exact hashRun_mem _ _ _ h
  · exact sigVerify_mem _ _ _ h
  · exact cipherStatsGet_mem _ _ _ h
  · exact flashStateGet_mem _ _ _ h
  · exact flashReadCmd_mem _ _ _ h
  · exact flashProgram_mem _ _ _ h
  · exact flashErase_mem _ _ _ h
  · exact flashBlockGet_mem _ _ _ h
  · exact flashStatsGet_mem _ _ _ h
  · exact updateStateGet_mem _ _ _ h
  · exact updateStageBegin_mem _ _ _ h
  · exact updateStageWrite_mem _ _ _ h
  · exact updateStageCheck_mem _ _ _ h
  · exact updateCommit_mem _ _ _ h
  · exact updateSchedule_mem _ _ _ h
  · exact updateCancel_mem _ _ _ h
  · exact rtcStateGet_mem _ _ _ h
  · exact rtcTimeGet_mem _ _ _ h
  · exact rtcTimeSet_mem _ _ _ h
  · exact rtcAlarmSet_mem _ _ _ h
  · exact rtcAlarmGet_mem _ _ _ h
  · exact rtcFlagsClear_mem _ _ _ h
  · exact portStateGet_mem _ _ _ h
  · exact portCfgSet_mem _ _ _ h
  · exact portCfgGet_mem _ _ _ h
  · exact portMemRead_mem _ _ _ h
  · exact portMemWrite_mem _ _ _ h
  · exact portPwSet_mem _ _ _ h
  · exact portPwUnlock_mem _ _ _ h
  · exact portPwGet_mem _ _ _ h
  · exact portCredGet_mem _ _ _ h
  · exact portCredClear_mem _ _ _ h
  · exact pwrStateGet_mem _ _ _ h
  · exact pwrCfgSet_mem _ _ _ h
  · exact pwrCfgGet_mem _ _ _ h
  · exact pwrSleep_mem _ _ _ h
  · exact h
theorem portCore_mem : ∀ (a : Ctx) (a_1 : List Byte) (a_2 : State), Memory.wf a_2.mem = true → Memory.wf (portCore a a_1 a_2).s.mem = true := by
  intros; unfold portCore; repeat' (first | with_reducible assumption | with_reducible apply badR_mem | with_reducible apply coreOf_mem | split)
theorem mailboxServe_mem : ∀ (ctrFail : Option Nat) (wFail : Option (Nat × Nat)) (s : State), Memory.wf s.mem = true → Memory.wf (mailboxServe ctrFail wFail s).mem = true := by
  intros; unfold mailboxServe; repeat' (first | with_reducible assumption | with_reducible apply handle_mem | with_reducible apply portCore_mem | with_reducible apply updPort_mem | with_reducible apply fieldAnswer_mem | with_reducible apply mem_ite | split)
theorem firstWtx_mem : ∀ (s : State), Memory.wf s.mem = true → Memory.wf (firstWtx s).mem = true := by
  intros; unfold firstWtx; repeat' (first | with_reducible assumption | with_reducible apply sendWtx_mem | split)
theorem execMailbox_mem : ∀ (apdu : List Byte) (ctrFail : Option Nat) (wFail : Option (Nat × Nat)) (s : State), Memory.wf s.mem = true → ∀ (t : State), execMailbox apdu ctrFail wFail s = Host.Outcome.next t → Memory.wf t.mem = true := by
  intros; unfold execMailbox at *; rename_i h; injection h with h; subst h; repeat' (first | with_reducible assumption | with_reducible apply firstWtx_mem | with_reducible apply mailboxServe_mem | with_reducible apply apduArrives_mem | split)
theorem execWtxExpiry_mem : ∀ (ctrFail : Option Nat) (wFail : Option (Nat × Nat)) (s : State), Memory.wf s.mem = true → ∀ (t : State), execWtxExpiry ctrFail wFail s = Host.Outcome.next t → Memory.wf t.mem = true := by
  intros; unfold execWtxExpiry at *; rename_i h; injection h with h; subst h; dsimp only; repeat' (first | with_reducible assumption | with_reducible apply mailboxServe_mem | with_reducible apply fieldProceeds_mem | with_reducible apply sendWtx_mem | with_reducible apply updPort_mem | with_reducible apply fieldAnswer_mem | split)
theorem execSWtxAnswer_mem : ∀ (wtxm : Nat) (s : State), Memory.wf s.mem = true → ∀ (t : State), execSWtxAnswer wtxm s = Host.Outcome.next t → Memory.wf t.mem = true := by
  intros; unfold execSWtxAnswer at *; rename_i h; injection h with h; subst h; repeat' (first | with_reducible assumption | with_reducible apply updPort_mem | split)

end Sys2Proof.Machine
end

