-- ==== Sys2Proof/Laws/MemoryCore.lean ====
section
/-! SUPPORT. The canonical form of memory is kept by the application core: one lemma an operation, cited by name. -/

set_option Elab.async false
set_option linter.all false

namespace Sys2Proof.Machine

/-- The state in which an access of the core leaves the block. -/
def accState : Acc → State
  | .ok _ s => s
  | .fail _ s => s
  | .stop s => s
/-- The state in which an entry leaves the block. -/
def entryState : CoreEntry → State
  | .done s => s
  | .failed _ s => s
  | .overflow s => s
  | .stop s => s
/-- The state in which the work of a word leaves the block. -/
def doneState : Done → State
  | .work _ _ s => s
  | .fail _ s => s
  | .stop s => s

theorem coreRead_mem : ∀ (mach : Bool) (a : Word) (z : Size) (rd : Option Nat) (s : State), Memory.wf s.mem = true → Memory.wf (accState (coreRead mach a z rd s)).mem = true := by
  intro m a z r s h; unfold coreRead
  split
  · exact h
  split
  · exact h
  have he := busRead_mem a.toNat z r s h
  split <;> (try rename_i heq; rw [heq] at he) <;> first | exact he | exact h
theorem coreWrite_mem : ∀ (mach : Bool) (a : Word) (z : Size) (v : Word) (s : State), Memory.wf s.mem = true → Memory.wf (accState (coreWrite mach a z v s)).mem = true := by
  intro m a z v s h; unfold coreWrite
  split
  · exact h
  split
  · exact h
  cases hb : busWrite a.toNat z v s with
  | none => exact h
  | some t =>
    have he := busWrite_mem a.toNat z v s h t hb
    dsimp only; split <;> exact he
theorem entryPush_mem : ∀ (ret : Word) (s : State), Memory.wf s.mem = true → Memory.wf (entryState (entryPush ret s)).mem = true := by
  intro r s h; unfold entryPush; dsimp only
  split
  · split
    · exact h
    · exact h
  split
  · exact h
  have he := coreWrite_mem true (s.core.spm - 4#32) .w s.core.st s h
  split <;> (rename_i heq; rw [heq] at he)
  · exact he
  · exact he
  · have he2 := coreWrite_mem true (s.core.spm - 8#32) .w r _ he
    dsimp only [accState] at he2 ⊢
    split <;> (rename_i heq2; rw [heq2] at he2) <;> exact he2
theorem enter_mem : ∀ (n : Nat) (level : Option (BitVec 4)) (ret : Word) (s : State), Memory.wf s.mem = true → Memory.wf (entryState (enter n level ret s)).mem = true := by
  intro n l r s h; unfold enter
  have he := entryPush_mem r s h
  cases hp : entryPush r s with
  | failed a t => rw [hp] at he; exact he
  | overflow t => rw [hp] at he; exact he
  | stop t => rw [hp] at he; exact he
  | done t =>
    rw [hp] at he
    have he2 := coreRead_mem true (vectorAddr s n) .w none t he
    dsimp only
    cases hr : coreRead true (vectorAddr s n) .w none t with
    | fail e u => rw [hr] at he2; exact he2
    | stop u => rw [hr] at he2; exact he2
    | ok v u =>
      rw [hr] at he2; dsimp only
      split <;> exact he2
theorem record_mem : ∀ (f : Fail) (under : Bool) (s : State), Memory.wf s.mem = true → Memory.wf (record f under s).mem = true := by
  intros; unfold record; repeat' (first | with_reducible assumption | with_reducible apply fresh_mem | with_reducible apply updCore_mem | split)
theorem stackFault_mem : ∀ (under : Bool) (s : State), Memory.wf s.mem = true → Memory.wf (stackFault under s).mem = true := by
  intro u s h; unfold stackFault; dsimp only
  have h2 := updCore_mem (fun c => { c with hw := [], mach := true, ie := false, ract := false, runi := false }) _ (record_mem { exc := 10, kind := none, slotb := some false, addr := s.core.pc } u _ (updCore_mem Core.land _ h))
  generalize updCore (fun c => { c with hw := [], mach := true, ie := false, ract := false, runi := false }) (record { exc := 10, kind := none, slotb := some false, addr := s.core.pc } u (updCore Core.land s)) = s2 at h2 ⊢
  have he := coreRead_mem true (vectorAddr s2 10) .w none s2 h2
  cases hr : coreRead true (vectorAddr s2 10) .w none s2 with
  | ok v t => rw [hr] at he; exact mem_ite (coreReset_mem _ _ he) (updCore_mem id t he)
  | fail e t => rw [hr] at he; exact coreReset_mem _ _ he
  | stop t => rw [hr] at he; exact he
theorem enterOr_mem : ∀ (n : Nat) (level : Option (BitVec 4)) (ret : Word) (s : State), Memory.wf s.mem = true → Memory.wf (enterOr n level ret s).mem = true := by
  intro n l r s h; unfold enterOr
  have he := enter_mem n l r s h
  cases hn : enter n l r s with
  | done t => rw [hn] at he; exact he
  | stop t => rw [hn] at he; exact he
  | overflow t => rw [hn] at he; exact stackFault_mem _ _ he
  | failed a t =>
    rw [hn] at he
    have hr := record_mem { exc := 9, kind := some 3, slotb := some false, addr := a } false t he
    have he2 := enter_mem 9 none s.core.pc _ hr
    dsimp only
    cases hm : enter 9 none s.core.pc (record { exc := 9, kind := some 3, slotb := some false, addr := a } false t) with
    | done u => rw [hm] at he2; exact he2
    | stop u => rw [hm] at he2; exact he2
    | overflow u => rw [hm] at he2; exact stackFault_mem _ _ he2
    | failed b u => rw [hm] at he2; exact coreReset_mem _ _ he2
theorem raiseExc_mem : ∀ (f : Fail) (ret : Word) (s : State), Memory.wf s.mem = true → Memory.wf (raiseExc f ret s).mem = true := by
  intros; unfold raiseExc; repeat' (first | with_reducible assumption | with_reducible apply updCore_mem | with_reducible apply enterOr_mem | with_reducible apply record_mem | split)
theorem takeInterrupt_mem : ∀ (n : Nat) (s : State), Memory.wf s.mem = true → Memory.wf (takeInterrupt n s).mem = true := by
  intros; simp_all [takeInterrupt, updCore_mem, enterOr_mem]
theorem finish_mem : ∀ (a : Done), Memory.wf (doneState a).mem = true → Memory.wf (finish a).mem = true := by
  intro d h
  cases d with
  | work ws l t => exact updCore_mem _ t h
  | fail f t => exact raiseExc_mem f t.core.pc t h
  | stop t => exact h
theorem goTo_mem : ∀ (t : Word) (s : State), Memory.wf s.mem = true → Memory.wf (goTo t s).mem = true := by
  intros; simp_all [goTo, updCore_mem]
theorem awaken_mem : ∀ (s : State), Memory.wf s.mem = true → Memory.wf (awaken s).mem = true := by
  intros; unfold awaken; repeat' (first | with_reducible assumption | with_reducible apply updCore_mem | split)
theorem word_mem : ∀ (body : State → State) (s : State), (∀ (a : State), Memory.wf a.mem = true → Memory.wf (body a).mem = true) → Memory.wf s.mem = true → Memory.wf (word body s).mem = true := by
  intros; grind [word, awaken_mem, raiseExc_mem]
theorem illegal_mem : ∀ (s : State), Memory.wf s.mem = true → Memory.wf (doneState (illegal s)).mem = true := by
  exact fun _ h => h
theorem privFail_mem : ∀ (s : State), Memory.wf s.mem = true → Memory.wf (doneState (privFail s)).mem = true := by
  exact fun _ h => h
theorem loadAt_mem : ∀ (slotb : Bool) (op : Nat) (rd : Reg) (a : Word) (ws : List (Nat × Word)) (s : State), Memory.wf s.mem = true → Memory.wf (doneState (loadAt slotb op rd a ws s)).mem = true := by
  intro b op rd a ws s h; unfold loadAt
  have he := coreRead_mem s.core.mach a (opSize op) (some rd.toNat) s h
  cases hr : coreRead s.core.mach a (opSize op) (some rd.toNat) s with
  | ok v t => rw [hr] at he; exact he
  | fail e t => rw [hr] at he; exact he
  | stop t => rw [hr] at he; dsimp only; split <;> exact he
theorem storeAt_mem : ∀ (slotb : Bool) (op : Nat) (v a : Word) (ws : List (Nat × Word)) (s : State), Memory.wf s.mem = true → Memory.wf (doneState (storeAt slotb op v a ws s)).mem = true := by
  intro b op v a ws s h; unfold storeAt
  have he := coreWrite_mem s.core.mach a (opSize op) v s h
  cases hr : coreWrite s.core.mach a (opSize op) v s with
  | ok v t => rw [hr] at he; exact he
  | fail e t => rw [hr] at he; exact he
  | stop t => rw [hr] at he; exact he
theorem slotWork_mem : ∀ (slotb : Bool) (x : Short) (s : State), Memory.wf s.mem = true → Memory.wf (doneState (slotWork slotb x s)).mem = true := by
  intro b x s h; unfold slotWork; dsimp only
  split
  · exact h
  split
  · exact loadAt_mem _ _ _ _ _ _ h
  split
  · exact storeAt_mem _ _ _ _ _ _ h
  · exact h
theorem pairWork_mem : ∀ (a b : Short) (s : State), Memory.wf s.mem = true → Memory.wf (doneState (pairWork a b s)).mem = true := by
  intro a b s h; unfold pairWork
  have he := slotWork_mem false a s h
  cases ha : slotWork false a s with
  | fail f t => rw [ha] at he; exact he
  | stop t => rw [ha] at he; exact he
  | work wa la t =>
    rw [ha] at he; dsimp only
    have he2 := slotWork_mem true b t he
    cases hb : slotWork true b t with
    | fail f u => rw [hb] at he2; exact he2
    | stop u => rw [hb] at he2; exact he2
    | work wb lb u => rw [hb] at he2; exact he2
theorem callTo_mem : ∀ (t : Word) (s : State), Memory.wf s.mem = true → Memory.wf (callTo t s).mem = true := by
  intro t s h; unfold callTo; dsimp only
  split
  · exact mem_ite (stackFault_mem _ _ h) (goTo_mem _ _ (updCore_mem _ _ h))
  have he := coreWrite_mem s.core.mach (s.core.get 15 - 4#32) .w (s.core.pc + 4#32) s h
  cases hw : coreWrite s.core.mach (s.core.get 15 - 4#32) .w (s.core.pc + 4#32) s with
  | ok v u => rw [hw] at he; exact updCore_mem _ u he
  | fail e u => rw [hw] at he; exact raiseExc_mem _ _ u he
  | stop u => rw [hw] at he; exact he
theorem alignAt_mem : ∀ (v : Word) (s : State), Memory.wf s.mem = true → Memory.wf (alignAt v s).mem = true := by
  intros; simp_all [alignAt, raiseExc_mem]
theorem doRet_mem : ∀ (s : State), Memory.wf s.mem = true → Memory.wf (doRet s).mem = true := by
  intro s h; unfold doRet; dsimp only
  split
  · split
    · exact mem_ite (alignAt_mem _ _ h) (goTo_mem _ _ (updCore_mem _ _ h))
    · exact stackFault_mem _ _ h
  have he := coreRead_mem s.core.mach (s.core.get 15) .w none s h
  cases hr : coreRead s.core.mach (s.core.get 15) .w none s with
  | ok v u => rw [hr] at he; exact mem_ite (alignAt_mem _ u he) (updCore_mem _ u he)
  | fail e u => rw [hr] at he; exact raiseExc_mem _ _ u he
  | stop u => rw [hr] at he; exact he
theorem doRfe_mem : ∀ (s : State), Memory.wf s.mem = true → Memory.wf (doRfe s).mem = true := by
  intro s h; unfold doRfe; dsimp only
  split
  · exact finish_mem _ h
  split
  · split
    · exact mem_ite (alignAt_mem _ _ h) (updCore_mem _ _ h)
    · exact stackFault_mem _ _ h
  have he := coreRead_mem true s.core.spm .w none s h
  cases hr : coreRead true s.core.spm .w none s with
  | fail e u => rw [hr] at he; exact raiseExc_mem _ _ u he
  | stop u => rw [hr] at he; exact he
  | ok n u =>
    rw [hr] at he; dsimp only
    have he2 := coreRead_mem true (s.core.spm + 4#32) .w none u he
    cases hq : coreRead true (s.core.spm + 4#32) .w none u with
    | fail e w => rw [hq] at he2; exact raiseExc_mem _ _ w he2
    | stop w => rw [hq] at he2; exact he2
    | ok m w => rw [hq] at he2; exact mem_ite (alignAt_mem _ w he2) (updCore_mem _ w he2)
theorem srRead_mem : ∀ (s : State) (n : Nat), Memory.wf s.mem = true → Memory.wf (srRead s n).fst.mem = true := by
  intros; unfold srRead; repeat' (first | with_reducible assumption | with_reducible apply fresh_mem | with_reducible apply mem_ite_fst | split)
theorem doMfs_mem : ∀ (rd : Reg) (n : Nat) (s : State), Memory.wf s.mem = true → Memory.wf (doneState (doMfs rd n s)).mem = true := by
  intro rd n s h; unfold doMfs; dsimp only
  split
  · exact h
  split
  · exact h
  · exact srRead_mem s n h
theorem doMts_mem : ∀ (n : Nat) (v : Word) (s : State), Memory.wf s.mem = true → Memory.wf (doMts n v s).mem = true := by
  intros; unfold doMts; repeat' (first | with_reducible assumption | with_reducible apply finish_mem | with_reducible apply illegal_mem | with_reducible apply privFail_mem | with_reducible apply updCore_mem | with_reducible apply mem_ite)
theorem doRep_mem : ∀ (uni : Bool) (k : RepCount) (s : State), Memory.wf s.mem = true → Memory.wf (doRep uni k s).mem = true := by
  intros; unfold doRep; repeat' (first | with_reducible assumption | with_reducible apply finish_mem | with_reducible apply illegal_mem | with_reducible apply goTo_mem | with_reducible apply updCore_mem | with_reducible apply mem_ite)
theorem xipAccess_mem : ∀ (a : Nat) (z : Size) (fetch : Bool) (s : State), Memory.wf s.mem = true → Memory.wf (xipAccess a z fetch s).mem = true := by
  intros; grind [xipAccess, xipRead_mem, raiseExc_mem]
theorem result_mem : ∀ (rd : Reg) (v : Word) (s : State), Memory.wf s.mem = true → Memory.wf (result rd v s).mem = true := by
  intro rd v s h; exact finish_mem _ h
theorem aluRow_mem : ∀ (rd : Reg) (f : State → Word) (s : State), Memory.wf s.mem = true → ∀ (t : State), aluRow rd f s = Host.Outcome.next t → Memory.wf t.mem = true := by
  intros; grind [aluRow, word_mem, result_mem]
theorem execAdd_mem : ∀ (rd ra rb : Reg) (s : State), Memory.wf s.mem = true → ∀ (t : State), execAdd rd ra rb s = Host.Outcome.next t → Memory.wf t.mem = true := by
  intros; grind [execAdd, aluRow_mem]
theorem execSub_mem : ∀ (rd ra rb : Reg) (s : State), Memory.wf s.mem = true → ∀ (t : State), execSub rd ra rb s = Host.Outcome.next t → Memory.wf t.mem = true := by
  intros; grind [execSub, aluRow_mem]
theorem execAnd_mem : ∀ (rd ra rb : Reg) (s : State), Memory.wf s.mem = true → ∀ (t : State), execAnd rd ra rb s = Host.Outcome.next t → Memory.wf t.mem = true := by
  intros; grind [execAnd, aluRow_mem]
theorem execOr_mem : ∀ (rd ra rb : Reg) (s : State), Memory.wf s.mem = true → ∀ (t : State), execOr rd ra rb s = Host.Outcome.next t → Memory.wf t.mem = true := by
  intros; grind [execOr, aluRow_mem]
theorem execXor_mem : ∀ (rd ra rb : Reg) (s : State), Memory.wf s.mem = true → ∀ (t : State), execXor rd ra rb s = Host.Outcome.next t → Memory.wf t.mem = true := by
  intros; grind [execXor, aluRow_mem]
theorem execShl_mem : ∀ (rd ra rb : Reg) (s : State), Memory.wf s.mem = true → ∀ (t : State), execShl rd ra rb s = Host.Outcome.next t → Memory.wf t.mem = true := by
  intros; grind [execShl, aluRow_mem]
theorem execShr_mem : ∀ (rd ra rb : Reg) (s : State), Memory.wf s.mem = true → ∀ (t : State), execShr rd ra rb s = Host.Outcome.next t → Memory.wf t.mem = true := by
  intros; grind [execShr, aluRow_mem]
theorem execSar_mem : ∀ (rd ra rb : Reg) (s : State), Memory.wf s.mem = true → ∀ (t : State), execSar rd ra rb s = Host.Outcome.next t → Memory.wf t.mem = true := by
  intros; grind [execSar, aluRow_mem]
theorem execCmpLt_mem : ∀ (rd ra rb : Reg) (s : State), Memory.wf s.mem = true → ∀ (t : State), execCmpLt rd ra rb s = Host.Outcome.next t → Memory.wf t.mem = true := by
  intros; grind [execCmpLt, aluRow_mem]
theorem execCmpLo_mem : ∀ (rd ra rb : Reg) (s : State), Memory.wf s.mem = true → ∀ (t : State), execCmpLo rd ra rb s = Host.Outcome.next t → Memory.wf t.mem = true := by
  intros; grind [execCmpLo, aluRow_mem]
theorem execMul_mem : ∀ (rd ra rb : Reg) (s : State), Memory.wf s.mem = true → ∀ (t : State), execMul rd ra rb s = Host.Outcome.next t → Memory.wf t.mem = true := by
  intros; grind [execMul, aluRow_mem]
theorem execMulhs_mem : ∀ (rd ra rb : Reg) (s : State), Memory.wf s.mem = true → ∀ (t : State), execMulhs rd ra rb s = Host.Outcome.next t → Memory.wf t.mem = true := by
  intros; grind [execMulhs, aluRow_mem]
theorem execMulhu_mem : ∀ (rd ra rb : Reg) (s : State), Memory.wf s.mem = true → ∀ (t : State), execMulhu rd ra rb s = Host.Outcome.next t → Memory.wf t.mem = true := by
  intros; grind [execMulhu, aluRow_mem]
theorem execDivS_mem : ∀ (rd ra rb : Reg) (s : State), Memory.wf s.mem = true → ∀ (t : State), execDivS rd ra rb s = Host.Outcome.next t → Memory.wf t.mem = true := by
  intros; grind [execDivS, aluRow_mem]
theorem execDivU_mem : ∀ (rd ra rb : Reg) (s : State), Memory.wf s.mem = true → ∀ (t : State), execDivU rd ra rb s = Host.Outcome.next t → Memory.wf t.mem = true := by
  intros; grind [execDivU, aluRow_mem]
theorem execModS_mem : ∀ (rd ra rb : Reg) (s : State), Memory.wf s.mem = true → ∀ (t : State), execModS rd ra rb s = Host.Outcome.next t → Memory.wf t.mem = true := by
  intros; grind [execModS, aluRow_mem]
theorem execModU_mem : ∀ (rd ra rb : Reg) (s : State), Memory.wf s.mem = true → ∀ (t : State), execModU rd ra rb s = Host.Outcome.next t → Memory.wf t.mem = true := by
  intros; grind [execModU, aluRow_mem]
theorem execCy_mem : ∀ (rd ra rb : Reg) (s : State), Memory.wf s.mem = true → ∀ (t : State), execCy rd ra rb s = Host.Outcome.next t → Memory.wf t.mem = true := by
  intros; grind [execCy, aluRow_mem]
theorem execBw_mem : ∀ (rd ra rb : Reg) (s : State), Memory.wf s.mem = true → ∀ (t : State), execBw rd ra rb s = Host.Outcome.next t → Memory.wf t.mem = true := by
  intros; grind [execBw, aluRow_mem]
theorem execAddi_mem : ∀ (rd ra : Reg) (imm : BitVec 17) (s : State), Memory.wf s.mem = true → ∀ (t : State), execAddi rd ra imm s = Host.Outcome.next t → Memory.wf t.mem = true := by
  intros; grind [execAddi, aluRow_mem]
theorem execAndi_mem : ∀ (rd ra : Reg) (imm : BitVec 17) (s : State), Memory.wf s.mem = true → ∀ (t : State), execAndi rd ra imm s = Host.Outcome.next t → Memory.wf t.mem = true := by
  intros; grind [execAndi, aluRow_mem]
theorem execOri_mem : ∀ (rd ra : Reg) (imm : BitVec 17) (s : State), Memory.wf s.mem = true → ∀ (t : State), execOri rd ra imm s = Host.Outcome.next t → Memory.wf t.mem = true := by
  intros; grind [execOri, aluRow_mem]
theorem execXori_mem : ∀ (rd ra : Reg) (imm : BitVec 17) (s : State), Memory.wf s.mem = true → ∀ (t : State), execXori rd ra imm s = Host.Outcome.next t → Memory.wf t.mem = true := by
  intros; grind [execXori, aluRow_mem]
theorem execCmpiLt_mem : ∀ (rd ra : Reg) (imm : BitVec 17) (s : State), Memory.wf s.mem = true → ∀ (t : State), execCmpiLt rd ra imm s = Host.Outcome.next t → Memory.wf t.mem = true := by
  intros; grind [execCmpiLt, aluRow_mem]
theorem execCmpiLo_mem : ∀ (rd ra : Reg) (imm : BitVec 17) (s : State), Memory.wf s.mem = true → ∀ (t : State), execCmpiLo rd ra imm s = Host.Outcome.next t → Memory.wf t.mem = true := by
  intros; grind [execCmpiLo, aluRow_mem]
theorem execShli_mem : ∀ (rd ra : Reg) (imm : BitVec 5) (s : State), Memory.wf s.mem = true → ∀ (t : State), execShli rd ra imm s = Host.Outcome.next t → Memory.wf t.mem = true := by
  intros; grind [execShli, aluRow_mem]
theorem execShri_mem : ∀ (rd ra : Reg) (imm : BitVec 5) (s : State), Memory.wf s.mem = true → ∀ (t : State), execShri rd ra imm s = Host.Outcome.next t → Memory.wf t.mem = true := by
  intros; grind [execShri, aluRow_mem]
theorem execSari_mem : ∀ (rd ra : Reg) (imm : BitVec 5) (s : State), Memory.wf s.mem = true → ∀ (t : State), execSari rd ra imm s = Host.Outcome.next t → Memory.wf t.mem = true := by
  intros; grind [execSari, aluRow_mem]
theorem execLdhi_mem : ∀ (rd : Reg) (imm : BitVec 21) (s : State), Memory.wf s.mem = true → ∀ (t : State), execLdhi rd imm s = Host.Outcome.next t → Memory.wf t.mem = true := by
  intros; grind [execLdhi, aluRow_mem]
theorem loadRow_mem : ∀ (op : Nat) (rd ra : Reg) (imm : BitVec 17) (s : State), Memory.wf s.mem = true → ∀ (t : State), loadRow op rd ra imm s = Host.Outcome.next t → Memory.wf t.mem = true := by
  intros; grind [loadRow, word_mem, finish_mem, loadAt_mem]
theorem storeRow_mem : ∀ (op : Nat) (rs ra : Reg) (imm : BitVec 17) (s : State), Memory.wf s.mem = true → ∀ (t : State), storeRow op rs ra imm s = Host.Outcome.next t → Memory.wf t.mem = true := by
  intros; grind [storeRow, word_mem, finish_mem, storeAt_mem]
theorem execLdW_mem : ∀ (rd ra : Reg) (imm : BitVec 17) (s : State), Memory.wf s.mem = true → ∀ (t : State), execLdW rd ra imm s = Host.Outcome.next t → Memory.wf t.mem = true := by
  intros; grind [execLdW, loadRow_mem]
theorem execLdHs_mem : ∀ (rd ra : Reg) (imm : BitVec 17) (s : State), Memory.wf s.mem = true → ∀ (t : State), execLdHs rd ra imm s = Host.Outcome.next t → Memory.wf t.mem = true := by
  intros; grind [execLdHs, loadRow_mem]
theorem execLdHz_mem : ∀ (rd ra : Reg) (imm : BitVec 17) (s : State), Memory.wf s.mem = true → ∀ (t : State), execLdHz rd ra imm s = Host.Outcome.next t → Memory.wf t.mem = true := by
  intros; grind [execLdHz, loadRow_mem]
theorem execLdBs_mem : ∀ (rd ra : Reg) (imm : BitVec 17) (s : State), Memory.wf s.mem = true → ∀ (t : State), execLdBs rd ra imm s = Host.Outcome.next t → Memory.wf t.mem = true := by
  intros; grind [execLdBs, loadRow_mem]
theorem execLdBz_mem : ∀ (rd ra : Reg) (imm : BitVec 17) (s : State), Memory.wf s.mem = true → ∀ (t : State), execLdBz rd ra imm s = Host.Outcome.next t → Memory.wf t.mem = true := by
  intros; grind [execLdBz, loadRow_mem]
theorem execStW_mem : ∀ (rd ra : Reg) (imm : BitVec 17) (s : State), Memory.wf s.mem = true → ∀ (t : State), execStW rd ra imm s = Host.Outcome.next t → Memory.wf t.mem = true := by
  intros; grind [execStW, storeRow_mem]
theorem execStH_mem : ∀ (rd ra : Reg) (imm : BitVec 17) (s : State), Memory.wf s.mem = true → ∀ (t : State), execStH rd ra imm s = Host.Outcome.next t → Memory.wf t.mem = true := by
  intros; grind [execStH, storeRow_mem]
theorem execStB_mem : ∀ (rd ra : Reg) (imm : BitVec 17) (s : State), Memory.wf s.mem = true → ∀ (t : State), execStB rd ra imm s = Host.Outcome.next t → Memory.wf t.mem = true := by
  intros; grind [execStB, storeRow_mem]
theorem execPairWord_mem : ∀ (a b : Short) (s : State), Memory.wf s.mem = true → ∀ (t : State), execPairWord a b s = Host.Outcome.next t → Memory.wf t.mem = true := by
  intro a b s h t ht
  injection ht with ht; subst ht
  refine word_mem _ s (fun u hu => ?_) h
  split
  · exact finish_mem _ hu
  · exact finish_mem _ (pairWork_mem a b u hu)
theorem branchRow_mem : ∀ (taken : State → Bool) (off : BitVec 17) (s : State), Memory.wf s.mem = true → ∀ (t : State), branchRow taken off s = Host.Outcome.next t → Memory.wf t.mem = true := by
  intros; grind [branchRow, word_mem, goTo_mem]
theorem execBrEq_mem : ∀ (ra rb : Reg) (off : BitVec 17) (s : State), Memory.wf s.mem = true → ∀ (t : State), execBrEq ra rb off s = Host.Outcome.next t → Memory.wf t.mem = true := by
  intros; grind [execBrEq, branchRow_mem]
theorem execBrNe_mem : ∀ (ra rb : Reg) (off : BitVec 17) (s : State), Memory.wf s.mem = true → ∀ (t : State), execBrNe ra rb off s = Host.Outcome.next t → Memory.wf t.mem = true := by
  intros; grind [execBrNe, branchRow_mem]
theorem execBrLt_mem : ∀ (ra rb : Reg) (off : BitVec 17) (s : State), Memory.wf s.mem = true → ∀ (t : State), execBrLt ra rb off s = Host.Outcome.next t → Memory.wf t.mem = true := by
  intros; grind [execBrLt, branchRow_mem]
theorem execBrGe_mem : ∀ (ra rb : Reg) (off : BitVec 17) (s : State), Memory.wf s.mem = true → ∀ (t : State), execBrGe ra rb off s = Host.Outcome.next t → Memory.wf t.mem = true := by
  intros; grind [execBrGe, branchRow_mem]
theorem execBrBl_mem : ∀ (ra rb : Reg) (off : BitVec 17) (s : State), Memory.wf s.mem = true → ∀ (t : State), execBrBl ra rb off s = Host.Outcome.next t → Memory.wf t.mem = true := by
  intros; grind [execBrBl, branchRow_mem]
theorem execBrNb_mem : ∀ (ra rb : Reg) (off : BitVec 17) (s : State), Memory.wf s.mem = true → ∀ (t : State), execBrNb ra rb off s = Host.Outcome.next t → Memory.wf t.mem = true := by
  intros; grind [execBrNb, branchRow_mem]
theorem execBriEq_mem : ∀ (ra : Reg) (imm : BitVec 5) (off : BitVec 17) (s : State), Memory.wf s.mem = true → ∀ (t : State), execBriEq ra imm off s = Host.Outcome.next t → Memory.wf t.mem = true := by
  intros; grind [execBriEq, branchRow_mem]
theorem execBriNe_mem : ∀ (ra : Reg) (imm : BitVec 5) (off : BitVec 17) (s : State), Memory.wf s.mem = true → ∀ (t : State), execBriNe ra imm off s = Host.Outcome.next t → Memory.wf t.mem = true := by
  intros; grind [execBriNe, branchRow_mem]
theorem execBriLt_mem : ∀ (ra : Reg) (imm : BitVec 5) (off : BitVec 17) (s : State), Memory.wf s.mem = true → ∀ (t : State), execBriLt ra imm off s = Host.Outcome.next t → Memory.wf t.mem = true := by
  intros; grind [execBriLt, branchRow_mem]
theorem execBriGe_mem : ∀ (ra : Reg) (imm : BitVec 5) (off : BitVec 17) (s : State), Memory.wf s.mem = true → ∀ (t : State), execBriGe ra imm off s = Host.Outcome.next t → Memory.wf t.mem = true := by
  intros; grind [execBriGe, branchRow_mem]
theorem execBriBl_mem : ∀ (ra : Reg) (imm : BitVec 5) (off : BitVec 17) (s : State), Memory.wf s.mem = true → ∀ (t : State), execBriBl ra imm off s = Host.Outcome.next t → Memory.wf t.mem = true := by
  intros; grind [execBriBl, branchRow_mem]
theorem execBriNb_mem : ∀ (ra : Reg) (imm : BitVec 5) (off : BitVec 17) (s : State), Memory.wf s.mem = true → ∀ (t : State), execBriNb ra imm off s = Host.Outcome.next t → Memory.wf t.mem = true := by
  intros; grind [execBriNb, branchRow_mem]
theorem execJ_mem : ∀ (off : BitVec 25) (s : State), Memory.wf s.mem = true → ∀ (t : State), execJ off s = Host.Outcome.next t → Memory.wf t.mem = true := by
  intros; unfold execJ at *; rename_i h; injection h with h; subst h; repeat' (first | with_reducible assumption | with_reducible apply word_mem | with_reducible apply goTo_mem | with_reducible intro _)
theorem execCall_mem : ∀ (off : BitVec 25) (s : State), Memory.wf s.mem = true → ∀ (t : State), execCall off s = Host.Outcome.next t → Memory.wf t.mem = true := by
  intros; unfold execCall at *; rename_i h; injection h with h; subst h; repeat' (first | with_reducible assumption | with_reducible apply word_mem | with_reducible apply callTo_mem | with_reducible intro _)
theorem execJmpR_mem : ∀ (ra : Reg) (s : State), Memory.wf s.mem = true → ∀ (t : State), execJmpR ra s = Host.Outcome.next t → Memory.wf t.mem = true := by
  intros; unfold execJmpR at *; rename_i h; injection h with h; subst h; repeat' (first | with_reducible assumption | with_reducible apply word_mem | with_reducible apply alignAt_mem | with_reducible apply goTo_mem | with_reducible intro _ | split)
theorem execCallR_mem : ∀ (ra : Reg) (s : State), Memory.wf s.mem = true → ∀ (t : State), execCallR ra s = Host.Outcome.next t → Memory.wf t.mem = true := by
  intros; unfold execCallR at *; rename_i h; injection h with h; subst h; repeat' (first | with_reducible assumption | with_reducible apply word_mem | with_reducible apply alignAt_mem | with_reducible apply callTo_mem | with_reducible intro _ | split)
theorem execRet_mem : ∀ (s : State), Memory.wf s.mem = true → ∀ (t : State), execRet s = Host.Outcome.next t → Memory.wf t.mem = true := by
  intros; unfold execRet at *; rename_i h; injection h with h; subst h; repeat' (first | with_reducible assumption | with_reducible apply word_mem | with_reducible apply doRet_mem)
theorem execRfe_mem : ∀ (s : State), Memory.wf s.mem = true → ∀ (t : State), execRfe s = Host.Outcome.next t → Memory.wf t.mem = true := by
  intros; unfold execRfe at *; rename_i h; injection h with h; subst h; repeat' (first | with_reducible assumption | with_reducible apply word_mem | with_reducible apply doRfe_mem)
theorem execSyscall_mem : ∀ (s : State), Memory.wf s.mem = true → ∀ (t : State), execSyscall s = Host.Outcome.next t → Memory.wf t.mem = true := by
  intros; unfold execSyscall at *; rename_i h; injection h with h; subst h; repeat' (first | with_reducible assumption | with_reducible apply word_mem | with_reducible apply raiseExc_mem | with_reducible intro _)
theorem execBreak_mem : ∀ (s : State), Memory.wf s.mem = true → ∀ (t : State), execBreak s = Host.Outcome.next t → Memory.wf t.mem = true := by
  intros; unfold execBreak at *; rename_i h; injection h with h; subst h; repeat' (first | with_reducible assumption | with_reducible apply word_mem | with_reducible apply updCore_mem | with_reducible apply goTo_mem | with_reducible apply raiseExc_mem | with_reducible apply mem_ite | with_reducible intro _)
theorem execWait_mem : ∀ (s : State), Memory.wf s.mem = true → ∀ (t : State), execWait s = Host.Outcome.next t → Memory.wf t.mem = true := by
  intros; unfold execWait at *; rename_i h; injection h with h; subst h; repeat' (first | with_reducible assumption | with_reducible apply word_mem | with_reducible apply goTo_mem | with_reducible apply updCore_mem | with_reducible intro _ | split)
theorem execMfs_mem : ∀ (rd : Reg) (sr : BitVec 8) (s : State), Memory.wf s.mem = true → ∀ (t : State), execMfs rd sr s = Host.Outcome.next t → Memory.wf t.mem = true := by
  intros; unfold execMfs at *; rename_i h; injection h with h; subst h; repeat' (first | with_reducible assumption | with_reducible apply word_mem | with_reducible apply finish_mem | with_reducible apply doMfs_mem | with_reducible intro _)
theorem execMts_mem : ∀ (sr : BitVec 8) (ra : Reg) (s : State), Memory.wf s.mem = true → ∀ (t : State), execMts sr ra s = Host.Outcome.next t → Memory.wf t.mem = true := by
  intros; unfold execMts at *; rename_i h; injection h with h; subst h; repeat' (first | with_reducible assumption | with_reducible apply word_mem | with_reducible apply doMts_mem | with_reducible intro _)
theorem execRepI_mem : ∀ (c : RepCount) (s : State), Memory.wf s.mem = true → ∀ (t : State), execRepI c s = Host.Outcome.next t → Memory.wf t.mem = true := by
  intros; unfold execRepI at *; rename_i h; injection h with h; subst h; repeat' (first | with_reducible assumption | with_reducible apply word_mem | with_reducible apply doRep_mem)
theorem execRepU_mem : ∀ (c : RepCount) (s : State), Memory.wf s.mem = true → ∀ (t : State), execRepU c s = Host.Outcome.next t → Memory.wf t.mem = true := by
  intros; unfold execRepU at *; rename_i h; injection h with h; subst h; repeat' (first | with_reducible assumption | with_reducible apply word_mem | with_reducible apply doRep_mem)
theorem execIllegalEncoding_mem : ∀ (w : Word) (s : State), Memory.wf s.mem = true → ∀ (t : State), execIllegalEncoding w s = Host.Outcome.next t → Memory.wf t.mem = true := by
  intro w s h t ht
  injection ht with ht; subst ht
  exact mem_ite h (word_mem _ s (fun u hu => finish_mem _ hu) h)
theorem execInterruptEntry_mem : ∀ (s : State), Memory.wf s.mem = true → ∀ (t : State), execInterruptEntry s = Host.Outcome.next t → Memory.wf t.mem = true := by
  intros; unfold execInterruptEntry at *; rename_i h; injection h with h; subst h; dsimp only; repeat' (first | with_reducible assumption | with_reducible apply takeInterrupt_mem | with_reducible apply awaken_mem | with_reducible apply endStall_mem | with_reducible apply countEmpty_mem | with_reducible apply updQueue_mem | with_reducible apply endAppSleep_mem | with_reducible apply mem_ite | split)
theorem execFlashXipRead_mem : ∀ (addr : Nat) (size : Size) (fetch : Bool) (s : State), Memory.wf s.mem = true → ∀ (t : State), execFlashXipRead addr size fetch s = Host.Outcome.next t → Memory.wf t.mem = true := by
  intros; unfold execFlashXipRead at *; rename_i h; injection h with h; subst h; repeat' (first | with_reducible assumption | with_reducible apply xipAccess_mem)
theorem debugServe_mem : ∀ (a : DebugAccess) (s : State), Memory.wf s.mem = true → Memory.wf (debugServe a s).mem = true := by
  intro a s h; unfold debugServe; dsimp only
  split
  · exact h
  · exact h
  · exact coreReset_mem _ _ h
  · rename_i a
    split
    · exact h
    have he := busRead_mem a.toNat .w none s h
    split <;> (rename_i heq; rw [heq] at he) <;> exact he
  · refine updCore_mem _ _ (mem_ite h ?_)
    rename_i a v
    cases hb : busWrite a.toNat .w v s with
    | none => exact h
    | some t => exact busWrite_mem a.toNat .w v s h t hb
  · exact h
  · exact h
theorem execDebugPortAccess_mem : ∀ (a : DebugAccess) (s : State), Memory.wf s.mem = true → ∀ (t : State), execDebugPortAccess a s = Host.Outcome.next t → Memory.wf t.mem = true := by
  intros; unfold execDebugPortAccess at *; rename_i h; injection h with h; subst h; repeat' (first | with_reducible assumption | with_reducible apply updCore_mem | with_reducible apply debugServe_mem | with_reducible apply mem_ite)

end Sys2Proof.Machine
end

