-- ==== Sys2Proof/Laws/Requests.lean ====
section
/-! SUPPORT. What each shape of request does, once: a row that serves an opcode reports, clears, sets, starts or is authenticated. -/

set_option Elab.async false
set_option linter.all false

namespace Sys2Proof.Machine

/-- A row that serves a reporting request: its core answers a body and changes nothing. -/
theorem reports_of {i : Srv → Instr} {op core ok body} (c : Cmd) (hi : ∀ v s, exec (i v) s = .next (serve op core v s)) (hc : cmdOf op = some c)
  (hn : ∀ p s, ok p s → c.len.ok p.length p = true ∧ p.length ≤ 240) (hr : c.critical = false) (hs : c.sets = false)
  (hk : ∀ p s, ok p s → ok p (taken s)) (hb : ∀ v p s, ok p (taken s) → core (ctxOf op v s) p (taken s) = ⟨taken s, 0, 0, body p (taken s)⟩) : Reports i op ok body := by
  intro v p s h hp
  rw [hi, serve_stands c h hc (hn p s hp).1 (hn p s hp).2 hr, holdBack_get _ _ hs, hb v p s (hk p s hp)]
  rfl

/-- A row that serves a request that reports and then clears what it reported. -/
theorem clears_of {i : Srv → Instr} {op core ok k clear body} (c : Cmd) (hi : ∀ v s, exec (i v) s = .next (serve op core v s)) (hc : cmdOf op = some c)
  (hn : ∀ p s, ok p s → c.len.ok p.length p = true ∧ p.length ≤ 240) (hr : c.critical = false) (hs : c.sets = false)
  (hk : ∀ p s, ok p s → ok p (taken s)) (hb : ∀ v p s, ok p (taken s) → core (ctxOf op v s) p (taken s) = ⟨if u8 p k = 1 then clear p (taken s) else taken s, 0, 0, body p (taken s)⟩) : Clears i op ok k clear body := by
  intro v p s h hp
  rw [hi, serve_stands c h hc (hn p s hp).1 (hn p s hp).2 hr, holdBack_get _ _ hs, hb v p s (hk p s hp)]
  rfl

/-- A row that serves a request which the group's hold-back may delay. -/
theorem sets_of {i : Srv → Instr} {op core ok run body} (c : Cmd) (hi : ∀ v s, exec (i v) s = .next (serve op core v s)) (hc : cmdOf op = some c)
  (hn : ∀ v p s, ok v p s → c.len.ok p.length p = true ∧ p.length ≤ 240) (hr : c.critical = false) (ho : c.op = op)
  (hk : ∀ v p s, ok v p s → ok v p (taken s)) (hb : ∀ v p s, ok v p (taken s) → core (ctxOf op v s) p (taken s) = ⟨run v p (taken s), 0, 0, body p (taken s) (run v p (taken s))⟩) : Sets i op ok run body := by
  intro v p s h hu hp
  have hu' : Unhindered op (taken s) := hu
  rw [hi, serve_stands c h hc (hn v p s hp).1 (hn v p s hp).2 hr, holdBack_free _ _ ho hu', hb v p s (hk v p s hp)]
  rfl

/-- A row that serves a request which nothing holds back. -/
theorem yields_of {i : Srv → Instr} {op core ok run body} (c : Cmd) (hi : ∀ v s, exec (i v) s = .next (serve op core v s)) (hc : cmdOf op = some c)
  (hn : ∀ v p s, ok v p s → c.len.ok p.length p = true ∧ p.length ≤ 240) (hr : c.critical = false) (hs : c.sets = false)
  (hk : ∀ v p s, ok v p s → ok v p (taken s)) (hb : ∀ v p s, ok v p (taken s) → core (ctxOf op v s) p (taken s) = ⟨run v p (taken s), 0, 0, body p (taken s) (run v p (taken s))⟩) : Yields i op ok run body := by
  intro v p s h hp
  rw [hi, serve_stands c h hc (hn v p s hp).1 (hn v p s hp).2 hr, holdBack_get _ _ hs, hb v p s (hk v p s hp)]
  rfl

/-- A row that serves a request answered PENDING: it holds the lowest free slot. -/
theorem starts_of {i : Srv → Instr} {op core ok run body} (c : Cmd) (hi : ∀ v s, exec (i v) s = .next (serve op core v s)) (hc : cmdOf op = some c)
  (hn : ∀ v p s, ok v p s → c.len.ok p.length p = true ∧ p.length ≤ 240) (hr : c.critical = false) (ho : c.op = op)
  (hk : ∀ v p s, ok v p s → ok v p (taken s)) (hb : ∀ v p s n, ok v p (taken s) → freeSlot (taken s) = some n → core (ctxOf op v s) p (taken s) = ⟨heldSlot op v n s (run n v p (taken s)), stPENDING, n, body p (taken s)⟩) : Starts i op ok run body := by
  intro v p s n h hu hp hf
  have hu' : Unhindered op (taken s) := hu
  have hf' : freeSlot (taken s) = some n := hf
  rw [hi, serve_stands c h hc (hn v p s hp).1 (hn v p s hp).2 hr, holdBack_free _ _ ho hu', hb v p s n (hk v p s hp) hf']
  rfl

/-- A byte of a payload is a slice of one byte. -/
theorem u8_unle (p : List Byte) (o : Nat) : u8 p o = unle (slice p o 1) := by
  simp only [u8, slice, List.getD]
  cases h : p.drop o with
  | nil => simp [List.drop_eq_nil_iff] at h; simp [unle, List.getElem?_eq_none h]
  | cons a l =>
    have : p[o]? = some a := by
      have := congrArg List.head? h; simpa using this
    simp [unle, this]

/-- A half-word of a payload is a slice of two bytes. -/
theorem u16_unle (p : List Byte) (o : Nat) : u16 p o = unle (slice p o 2) := rfl

/-- The commissioning port owns no channel. -/
theorem chanOwner_ne_port (s : State) (n : Nat) : chanOwner s n ≠ .port := by
  unfold chanOwner
  split
  · simp
  · split <;> simp

@[simp] theorem freeSlot_taken (s : State) : freeSlot (taken s) = freeSlot s := rfl

/-- OPTIONS is 0 or 1. -/
theorem savable_opts {k : Nat} {v : Srv} {p : List Byte} (h : Savable k v p) : u8 p k < 2 := by
  rcases h with h | h <;> omega

/-- A saved setting stands in the settings block. -/
theorem persistR_saved {op : Nat} {v : Srv} {s : State} {k : Nat} {p : List Byte} (t : State) (b : List Byte) (h : Savable k v p) :
    persistR (ctxOf op v s) (u8 p k == 1) 0 ⟨t, 0, 0, b⟩ = ⟨saved k p t, 0, 0, b⟩ := by
  rcases h with h | ⟨h, h2⟩
  · simp [persistR, saved, h]
  · simp [persistR, saved, h, h2, Ctx.failAt]

/-- A row whose request has an OPTIONS byte that keeps the setting. -/
theorem saves_of {i : Srv → Instr} {op k : Nat} {core : CoreFn} {ok : Srv → List Byte → State → Prop} {run0 : List Byte → State → State}
    {rec : List Byte → State → List Byte} {chk : Srv → List Byte → State → State → List (Bool × Nat)} (c : Cmd)
    (hi : ∀ v s, exec (i v) s = .next (serve op core v s)) (hc : cmdOf op = some c)
    (hn : ∀ v p s, ok v p s → c.len.ok p.length p = true ∧ p.length ≤ 240) (hr : c.critical = false) (ho : c.op = op)
    (hcore : ∀ v p s T, core (ctxOf op v s) p T = guardR T (chk v p s T) fun _ => persistR (ctxOf op v s) (u8 p k == 1) 0 (okR (run0 p T) (rec p (run0 p T))))
    (hsv : ∀ v p s, ok v p s → Savable k v p) (hk : ∀ v p s, ok v p s → ok v p (taken s))
    (hpass : ∀ v p s T, ok v p T → u8 p k < 2 → Pass (chk v p s T)) (hrec : ∀ p t, rec p (saved k p t) = rec p t) :
    Sets i op ok (fun _ p t => saved k p (run0 p t)) (fun p _ t => rec p t) := by
  refine sets_of c hi hc hn hr ho hk ?_
  intro v p s h
  rw [hcore, guardR_pass _ (hpass v p s _ h (savable_opts (hsv v p _ h))), okR, persistR_saved _ _ (hsv v p _ h), hrec]

/-- A row that serves an authenticated request. -/
theorem setsAuth_of {i : Srv → Instr} {op : Nat} {core : CoreFn} {ok : Srv → List Byte → State → Prop} {run : Srv → List Byte → State → State}
    {body : List Byte → State → State → List Byte} (c : Cmd) (hi : ∀ v s, exec (i v) s = .next (serve op core v s)) (hc : cmdOf op = some c)
    (hn : ∀ v p s, ok v p s → c.len.ok p.length p = true ∧ p.length ≤ 232) (ho : c.op = op)
    (hb : ∀ v p s T, ok v p T → chanOwner s v.ch = chanOwner T v.ch → firmwareServes T = true → core (ctxAuth op v s) p T = ⟨run v p T, 0, 0, body p T (run v p T)⟩) :
    SetsAuth i op ok run body := by
  intro v p s h hu hp
  have hu' : Unhindered op (accepted v s) := hu
  rw [hi, serve_stands_auth c h hc (hn v p _ hp).1 (hn v p _ hp).2, holdBack_free _ _ ho hu', hb v p s _ hp rfl h.serves]
  rfl

@[simp] theorem ctxAuth_wFail (op v s) : (ctxAuth op v s).wFail = v.wFail := rfl

@[simp] theorem ctxAuth_req (op v s) : (ctxAuth op v s).req = chanOwner s v.ch := rfl

end Sys2Proof.Machine
end

