-- ==== Sys2Proof/Laws/State.lean ====
section
/-! SUPPORT. What each update of one unit leaves in every field of the state. -/

set_option Elab.async false
set_option linter.all false

namespace Sys2Proof.Machine

variable (s : State)

section
variable (f : Radio → Radio)
@[simp] theorem updRadio_dev : (updRadio f s).dev = s.dev := rfl
@[simp] theorem updRadio_clk : (updRadio f s).clk = s.clk := rfl
@[simp] theorem updRadio_mbx : (updRadio f s).mbx = s.mbx := rfl
@[simp] theorem updRadio_hostp : (updRadio f s).hostp = s.hostp := rfl
@[simp] theorem updRadio_shots : (updRadio f s).shots = s.shots := rfl
@[simp] theorem updRadio_radio : (updRadio f s).radio = f s.radio := rfl
@[simp] theorem updRadio_lanes : (updRadio f s).lanes = s.lanes := rfl
@[simp] theorem updRadio_canary : (updRadio f s).canary = s.canary := rfl
@[simp] theorem updRadio_link : (updRadio f s).link = s.link := rfl
@[simp] theorem updRadio_timing : (updRadio f s).timing = s.timing := rfl
@[simp] theorem updRadio_tally : (updRadio f s).tally = s.tally := rfl
@[simp] theorem updRadio_qm : (updRadio f s).qm = s.qm := rfl
@[simp] theorem updRadio_sched : (updRadio f s).sched = s.sched := rfl
@[simp] theorem updRadio_cipher : (updRadio f s).cipher = s.cipher := rfl
@[simp] theorem updRadio_pwr : (updRadio f s).pwr = s.pwr := rfl
@[simp] theorem updRadio_pads : (updRadio f s).pads = s.pads := rfl
@[simp] theorem updRadio_boot : (updRadio f s).boot = s.boot := rfl
@[simp] theorem updRadio_flash : (updRadio f s).flash = s.flash := rfl
@[simp] theorem updRadio_upd : (updRadio f s).upd = s.upd := rfl
@[simp] theorem updRadio_rtc : (updRadio f s).rtc = s.rtc := rfl
@[simp] theorem updRadio_port : (updRadio f s).port = s.port := rfl
@[simp] theorem updRadio_core : (updRadio f s).core = s.core := rfl
@[simp] theorem updRadio_se0 : (updRadio f s).se0 = s.se0 := rfl
@[simp] theorem updRadio_se1 : (updRadio f s).se1 = s.se1 := rfl
@[simp] theorem updRadio_adc : (updRadio f s).adc = s.adc := rfl
@[simp] theorem updRadio_tmr : (updRadio f s).tmr = s.tmr := rfl
@[simp] theorem updRadio_wdg : (updRadio f s).wdg = s.wdg := rfl
@[simp] theorem updRadio_ram : (updRadio f s).mem = s.mem := rfl
@[simp] theorem updRadio_freeCtr : (updRadio f s).freeCtr = s.freeCtr := rfl
@[simp] theorem updRadio_pending : (updRadio f s).pending = s.pending := rfl
end

section
variable (f : Lanes → Lanes)
@[simp] theorem updLanes_dev : (updLanes f s).dev = s.dev := rfl
@[simp] theorem updLanes_clk : (updLanes f s).clk = s.clk := rfl
@[simp] theorem updLanes_mbx : (updLanes f s).mbx = s.mbx := rfl
@[simp] theorem updLanes_hostp : (updLanes f s).hostp = s.hostp := rfl
@[simp] theorem updLanes_shots : (updLanes f s).shots = s.shots := rfl
@[simp] theorem updLanes_radio : (updLanes f s).radio = s.radio := rfl
@[simp] theorem updLanes_lanes : (updLanes f s).lanes = f s.lanes := rfl
@[simp] theorem updLanes_canary : (updLanes f s).canary = s.canary := rfl
@[simp] theorem updLanes_link : (updLanes f s).link = s.link := rfl
@[simp] theorem updLanes_timing : (updLanes f s).timing = s.timing := rfl
@[simp] theorem updLanes_tally : (updLanes f s).tally = s.tally := rfl
@[simp] theorem updLanes_qm : (updLanes f s).qm = s.qm := rfl
@[simp] theorem updLanes_sched : (updLanes f s).sched = s.sched := rfl
@[simp] theorem updLanes_cipher : (updLanes f s).cipher = s.cipher := rfl
@[simp] theorem updLanes_pwr : (updLanes f s).pwr = s.pwr := rfl
@[simp] theorem updLanes_pads : (updLanes f s).pads = s.pads := rfl
@[simp] theorem updLanes_boot : (updLanes f s).boot = s.boot := rfl
@[simp] theorem updLanes_flash : (updLanes f s).flash = s.flash := rfl
@[simp] theorem updLanes_upd : (updLanes f s).upd = s.upd := rfl
@[simp] theorem updLanes_rtc : (updLanes f s).rtc = s.rtc := rfl
@[simp] theorem updLanes_port : (updLanes f s).port = s.port := rfl
@[simp] theorem updLanes_core : (updLanes f s).core = s.core := rfl
@[simp] theorem updLanes_se0 : (updLanes f s).se0 = s.se0 := rfl
@[simp] theorem updLanes_se1 : (updLanes f s).se1 = s.se1 := rfl
@[simp] theorem updLanes_adc : (updLanes f s).adc = s.adc := rfl
@[simp] theorem updLanes_tmr : (updLanes f s).tmr = s.tmr := rfl
@[simp] theorem updLanes_wdg : (updLanes f s).wdg = s.wdg := rfl
@[simp] theorem updLanes_ram : (updLanes f s).mem = s.mem := rfl
@[simp] theorem updLanes_freeCtr : (updLanes f s).freeCtr = s.freeCtr := rfl
@[simp] theorem updLanes_pending : (updLanes f s).pending = s.pending := rfl
end

section
variable (f : Link → Link)
@[simp] theorem updLink_dev : (updLink f s).dev = s.dev := rfl
@[simp] theorem updLink_clk : (updLink f s).clk = s.clk := rfl
@[simp] theorem updLink_mbx : (updLink f s).mbx = s.mbx := rfl
@[simp] theorem updLink_hostp : (updLink f s).hostp = s.hostp := rfl
@[simp] theorem updLink_shots : (updLink f s).shots = s.shots := rfl
@[simp] theorem updLink_radio : (updLink f s).radio = s.radio := rfl
@[simp] theorem updLink_lanes : (updLink f s).lanes = s.lanes := rfl
@[simp] theorem updLink_canary : (updLink f s).canary = s.canary := rfl
@[simp] theorem updLink_link : (updLink f s).link = f s.link := rfl
@[simp] theorem updLink_timing : (updLink f s).timing = s.timing := rfl
@[simp] theorem updLink_tally : (updLink f s).tally = s.tally := rfl
@[simp] theorem updLink_qm : (updLink f s).qm = s.qm := rfl
@[simp] theorem updLink_sched : (updLink f s).sched = s.sched := rfl
@[simp] theorem updLink_cipher : (updLink f s).cipher = s.cipher := rfl
@[simp] theorem updLink_pwr : (updLink f s).pwr = s.pwr := rfl
@[simp] theorem updLink_pads : (updLink f s).pads = s.pads := rfl
@[simp] theorem updLink_boot : (updLink f s).boot = s.boot := rfl
@[simp] theorem updLink_flash : (updLink f s).flash = s.flash := rfl
@[simp] theorem updLink_upd : (updLink f s).upd = s.upd := rfl
@[simp] theorem updLink_rtc : (updLink f s).rtc = s.rtc := rfl
@[simp] theorem updLink_port : (updLink f s).port = s.port := rfl
@[simp] theorem updLink_core : (updLink f s).core = s.core := rfl
@[simp] theorem updLink_se0 : (updLink f s).se0 = s.se0 := rfl
@[simp] theorem updLink_se1 : (updLink f s).se1 = s.se1 := rfl
@[simp] theorem updLink_adc : (updLink f s).adc = s.adc := rfl
@[simp] theorem updLink_tmr : (updLink f s).tmr = s.tmr := rfl
@[simp] theorem updLink_wdg : (updLink f s).wdg = s.wdg := rfl
@[simp] theorem updLink_ram : (updLink f s).mem = s.mem := rfl
@[simp] theorem updLink_freeCtr : (updLink f s).freeCtr = s.freeCtr := rfl
@[simp] theorem updLink_pending : (updLink f s).pending = s.pending := rfl
end

section
variable (f : Timing → Timing)
@[simp] theorem updTiming_dev : (updTiming f s).dev = s.dev := rfl
@[simp] theorem updTiming_clk : (updTiming f s).clk = s.clk := rfl
@[simp] theorem updTiming_mbx : (updTiming f s).mbx = s.mbx := rfl
@[simp] theorem updTiming_hostp : (updTiming f s).hostp = s.hostp := rfl
@[simp] theorem updTiming_shots : (updTiming f s).shots = s.shots := rfl
@[simp] theorem updTiming_radio : (updTiming f s).radio = s.radio := rfl
@[simp] theorem updTiming_lanes : (updTiming f s).lanes = s.lanes := rfl
@[simp] theorem updTiming_canary : (updTiming f s).canary = s.canary := rfl
@[simp] theorem updTiming_link : (updTiming f s).link = s.link := rfl
@[simp] theorem updTiming_timing : (updTiming f s).timing = f s.timing := rfl
@[simp] theorem updTiming_tally : (updTiming f s).tally = s.tally := rfl
@[simp] theorem updTiming_qm : (updTiming f s).qm = s.qm := rfl
@[simp] theorem updTiming_sched : (updTiming f s).sched = s.sched := rfl
@[simp] theorem updTiming_cipher : (updTiming f s).cipher = s.cipher := rfl
@[simp] theorem updTiming_pwr : (updTiming f s).pwr = s.pwr := rfl
@[simp] theorem updTiming_pads : (updTiming f s).pads = s.pads := rfl
@[simp] theorem updTiming_boot : (updTiming f s).boot = s.boot := rfl
@[simp] theorem updTiming_flash : (updTiming f s).flash = s.flash := rfl
@[simp] theorem updTiming_upd : (updTiming f s).upd = s.upd := rfl
@[simp] theorem updTiming_rtc : (updTiming f s).rtc = s.rtc := rfl
@[simp] theorem updTiming_port : (updTiming f s).port = s.port := rfl
@[simp] theorem updTiming_core : (updTiming f s).core = s.core := rfl
@[simp] theorem updTiming_se0 : (updTiming f s).se0 = s.se0 := rfl
@[simp] theorem updTiming_se1 : (updTiming f s).se1 = s.se1 := rfl
@[simp] theorem updTiming_adc : (updTiming f s).adc = s.adc := rfl
@[simp] theorem updTiming_tmr : (updTiming f s).tmr = s.tmr := rfl
@[simp] theorem updTiming_wdg : (updTiming f s).wdg = s.wdg := rfl
@[simp] theorem updTiming_ram : (updTiming f s).mem = s.mem := rfl
@[simp] theorem updTiming_freeCtr : (updTiming f s).freeCtr = s.freeCtr := rfl
@[simp] theorem updTiming_pending : (updTiming f s).pending = s.pending := rfl
end

section
variable (f : Tally → Tally)
@[simp] theorem updTally_dev : (updTally f s).dev = s.dev := rfl
@[simp] theorem updTally_clk : (updTally f s).clk = s.clk := rfl
@[simp] theorem updTally_mbx : (updTally f s).mbx = s.mbx := rfl
@[simp] theorem updTally_hostp : (updTally f s).hostp = s.hostp := rfl
@[simp] theorem updTally_shots : (updTally f s).shots = s.shots := rfl
@[simp] theorem updTally_radio : (updTally f s).radio = s.radio := rfl
@[simp] theorem updTally_lanes : (updTally f s).lanes = s.lanes := rfl
@[simp] theorem updTally_canary : (updTally f s).canary = s.canary := rfl
@[simp] theorem updTally_link : (updTally f s).link = s.link := rfl
@[simp] theorem updTally_timing : (updTally f s).timing = s.timing := rfl
@[simp] theorem updTally_tally : (updTally f s).tally = f s.tally := rfl
@[simp] theorem updTally_qm : (updTally f s).qm = s.qm := rfl
@[simp] theorem updTally_sched : (updTally f s).sched = s.sched := rfl
@[simp] theorem updTally_cipher : (updTally f s).cipher = s.cipher := rfl
@[simp] theorem updTally_pwr : (updTally f s).pwr = s.pwr := rfl
@[simp] theorem updTally_pads : (updTally f s).pads = s.pads := rfl
@[simp] theorem updTally_boot : (updTally f s).boot = s.boot := rfl
@[simp] theorem updTally_flash : (updTally f s).flash = s.flash := rfl
@[simp] theorem updTally_upd : (updTally f s).upd = s.upd := rfl
@[simp] theorem updTally_rtc : (updTally f s).rtc = s.rtc := rfl
@[simp] theorem updTally_port : (updTally f s).port = s.port := rfl
@[simp] theorem updTally_core : (updTally f s).core = s.core := rfl
@[simp] theorem updTally_se0 : (updTally f s).se0 = s.se0 := rfl
@[simp] theorem updTally_se1 : (updTally f s).se1 = s.se1 := rfl
@[simp] theorem updTally_adc : (updTally f s).adc = s.adc := rfl
@[simp] theorem updTally_tmr : (updTally f s).tmr = s.tmr := rfl
@[simp] theorem updTally_wdg : (updTally f s).wdg = s.wdg := rfl
@[simp] theorem updTally_ram : (updTally f s).mem = s.mem := rfl
@[simp] theorem updTally_freeCtr : (updTally f s).freeCtr = s.freeCtr := rfl
@[simp] theorem updTally_pending : (updTally f s).pending = s.pending := rfl
end

section
variable (f : Qm → Qm)
@[simp] theorem updQm_dev : (updQm f s).dev = s.dev := rfl
@[simp] theorem updQm_clk : (updQm f s).clk = s.clk := rfl
@[simp] theorem updQm_mbx : (updQm f s).mbx = s.mbx := rfl
@[simp] theorem updQm_hostp : (updQm f s).hostp = s.hostp := rfl
@[simp] theorem updQm_shots : (updQm f s).shots = s.shots := rfl
@[simp] theorem updQm_radio : (updQm f s).radio = s.radio := rfl
@[simp] theorem updQm_lanes : (updQm f s).lanes = s.lanes := rfl
@[simp] theorem updQm_canary : (updQm f s).canary = s.canary := rfl
@[simp] theorem updQm_link : (updQm f s).link = s.link := rfl
@[simp] theorem updQm_timing : (updQm f s).timing = s.timing := rfl
@[simp] theorem updQm_tally : (updQm f s).tally = s.tally := rfl
@[simp] theorem updQm_qm : (updQm f s).qm = f s.qm := rfl
@[simp] theorem updQm_sched : (updQm f s).sched = s.sched := rfl
@[simp] theorem updQm_cipher : (updQm f s).cipher = s.cipher := rfl
@[simp] theorem updQm_pwr : (updQm f s).pwr = s.pwr := rfl
@[simp] theorem updQm_pads : (updQm f s).pads = s.pads := rfl
@[simp] theorem updQm_boot : (updQm f s).boot = s.boot := rfl
@[simp] theorem updQm_flash : (updQm f s).flash = s.flash := rfl
@[simp] theorem updQm_upd : (updQm f s).upd = s.upd := rfl
@[simp] theorem updQm_rtc : (updQm f s).rtc = s.rtc := rfl
@[simp] theorem updQm_port : (updQm f s).port = s.port := rfl
@[simp] theorem updQm_core : (updQm f s).core = s.core := rfl
@[simp] theorem updQm_se0 : (updQm f s).se0 = s.se0 := rfl
@[simp] theorem updQm_se1 : (updQm f s).se1 = s.se1 := rfl
@[simp] theorem updQm_adc : (updQm f s).adc = s.adc := rfl
@[simp] theorem updQm_tmr : (updQm f s).tmr = s.tmr := rfl
@[simp] theorem updQm_wdg : (updQm f s).wdg = s.wdg := rfl
@[simp] theorem updQm_ram : (updQm f s).mem = s.mem := rfl
@[simp] theorem updQm_freeCtr : (updQm f s).freeCtr = s.freeCtr := rfl
@[simp] theorem updQm_pending : (updQm f s).pending = s.pending := rfl
end

section
variable (f : Sched → Sched)
@[simp] theorem updSched_dev : (updSched f s).dev = s.dev := rfl
@[simp] theorem updSched_clk : (updSched f s).clk = s.clk := rfl
@[simp] theorem updSched_mbx : (updSched f s).mbx = s.mbx := rfl
@[simp] theorem updSched_hostp : (updSched f s).hostp = s.hostp := rfl
@[simp] theorem updSched_shots : (updSched f s).shots = s.shots := rfl
@[simp] theorem updSched_radio : (updSched f s).radio = s.radio := rfl
@[simp] theorem updSched_lanes : (updSched f s).lanes = s.lanes := rfl
@[simp] theorem updSched_canary : (updSched f s).canary = s.canary := rfl
@[simp] theorem updSched_link : (updSched f s).link = s.link := rfl
@[simp] theorem updSched_timing : (updSched f s).timing = s.timing := rfl
@[simp] theorem updSched_tally : (updSched f s).tally = s.tally := rfl
@[simp] theorem updSched_qm : (updSched f s).qm = s.qm := rfl
@[simp] theorem updSched_sched : (updSched f s).sched = f s.sched := rfl
@[simp] theorem updSched_cipher : (updSched f s).cipher = s.cipher := rfl
@[simp] theorem updSched_pwr : (updSched f s).pwr = s.pwr := rfl
@[simp] theorem updSched_pads : (updSched f s).pads = s.pads := rfl
@[simp] theorem updSched_boot : (updSched f s).boot = s.boot := rfl
@[simp] theorem updSched_flash : (updSched f s).flash = s.flash := rfl
@[simp] theorem updSched_upd : (updSched f s).upd = s.upd := rfl
@[simp] theorem updSched_rtc : (updSched f s).rtc = s.rtc := rfl
@[simp] theorem updSched_port : (updSched f s).port = s.port := rfl
@[simp] theorem updSched_core : (updSched f s).core = s.core := rfl
@[simp] theorem updSched_se0 : (updSched f s).se0 = s.se0 := rfl
@[simp] theorem updSched_se1 : (updSched f s).se1 = s.se1 := rfl
@[simp] theorem updSched_adc : (updSched f s).adc = s.adc := rfl
@[simp] theorem updSched_tmr : (updSched f s).tmr = s.tmr := rfl
@[simp] theorem updSched_wdg : (updSched f s).wdg = s.wdg := rfl
@[simp] theorem updSched_ram : (updSched f s).mem = s.mem := rfl
@[simp] theorem updSched_freeCtr : (updSched f s).freeCtr = s.freeCtr := rfl
@[simp] theorem updSched_pending : (updSched f s).pending = s.pending := rfl
end

section
variable (f : Cipher → Cipher)
@[simp] theorem updCipher_dev : (updCipher f s).dev = s.dev := rfl
@[simp] theorem updCipher_clk : (updCipher f s).clk = s.clk := rfl
@[simp] theorem updCipher_mbx : (updCipher f s).mbx = s.mbx := rfl
@[simp] theorem updCipher_hostp : (updCipher f s).hostp = s.hostp := rfl
@[simp] theorem updCipher_shots : (updCipher f s).shots = s.shots := rfl
@[simp] theorem updCipher_radio : (updCipher f s).radio = s.radio := rfl
@[simp] theorem updCipher_lanes : (updCipher f s).lanes = s.lanes := rfl
@[simp] theorem updCipher_canary : (updCipher f s).canary = s.canary := rfl
@[simp] theorem updCipher_link : (updCipher f s).link = s.link := rfl
@[simp] theorem updCipher_timing : (updCipher f s).timing = s.timing := rfl
@[simp] theorem updCipher_tally : (updCipher f s).tally = s.tally := rfl
@[simp] theorem updCipher_qm : (updCipher f s).qm = s.qm := rfl
@[simp] theorem updCipher_sched : (updCipher f s).sched = s.sched := rfl
@[simp] theorem updCipher_cipher : (updCipher f s).cipher = f s.cipher := rfl
@[simp] theorem updCipher_pwr : (updCipher f s).pwr = s.pwr := rfl
@[simp] theorem updCipher_pads : (updCipher f s).pads = s.pads := rfl
@[simp] theorem updCipher_boot : (updCipher f s).boot = s.boot := rfl
@[simp] theorem updCipher_flash : (updCipher f s).flash = s.flash := rfl
@[simp] theorem updCipher_upd : (updCipher f s).upd = s.upd := rfl
@[simp] theorem updCipher_rtc : (updCipher f s).rtc = s.rtc := rfl
@[simp] theorem updCipher_port : (updCipher f s).port = s.port := rfl
@[simp] theorem updCipher_core : (updCipher f s).core = s.core := rfl
@[simp] theorem updCipher_se0 : (updCipher f s).se0 = s.se0 := rfl
@[simp] theorem updCipher_se1 : (updCipher f s).se1 = s.se1 := rfl
@[simp] theorem updCipher_adc : (updCipher f s).adc = s.adc := rfl
@[simp] theorem updCipher_tmr : (updCipher f s).tmr = s.tmr := rfl
@[simp] theorem updCipher_wdg : (updCipher f s).wdg = s.wdg := rfl
@[simp] theorem updCipher_ram : (updCipher f s).mem = s.mem := rfl
@[simp] theorem updCipher_freeCtr : (updCipher f s).freeCtr = s.freeCtr := rfl
@[simp] theorem updCipher_pending : (updCipher f s).pending = s.pending := rfl
end

section
variable (f : Pwr → Pwr)
@[simp] theorem updPwr_dev : (updPwr f s).dev = s.dev := rfl
@[simp] theorem updPwr_clk : (updPwr f s).clk = s.clk := rfl
@[simp] theorem updPwr_mbx : (updPwr f s).mbx = s.mbx := rfl
@[simp] theorem updPwr_hostp : (updPwr f s).hostp = s.hostp := rfl
@[simp] theorem updPwr_shots : (updPwr f s).shots = s.shots := rfl
@[simp] theorem updPwr_radio : (updPwr f s).radio = s.radio := rfl
@[simp] theorem updPwr_lanes : (updPwr f s).lanes = s.lanes := rfl
@[simp] theorem updPwr_canary : (updPwr f s).canary = s.canary := rfl
@[simp] theorem updPwr_link : (updPwr f s).link = s.link := rfl
@[simp] theorem updPwr_timing : (updPwr f s).timing = s.timing := rfl
@[simp] theorem updPwr_tally : (updPwr f s).tally = s.tally := rfl
@[simp] theorem updPwr_qm : (updPwr f s).qm = s.qm := rfl
@[simp] theorem updPwr_sched : (updPwr f s).sched = s.sched := rfl
@[simp] theorem updPwr_cipher : (updPwr f s).cipher = s.cipher := rfl
@[simp] theorem updPwr_pwr : (updPwr f s).pwr = f s.pwr := rfl
@[simp] theorem updPwr_pads : (updPwr f s).pads = s.pads := rfl
@[simp] theorem updPwr_boot : (updPwr f s).boot = s.boot := rfl
@[simp] theorem updPwr_flash : (updPwr f s).flash = s.flash := rfl
@[simp] theorem updPwr_upd : (updPwr f s).upd = s.upd := rfl
@[simp] theorem updPwr_rtc : (updPwr f s).rtc = s.rtc := rfl
@[simp] theorem updPwr_port : (updPwr f s).port = s.port := rfl
@[simp] theorem updPwr_core : (updPwr f s).core = s.core := rfl
@[simp] theorem updPwr_se0 : (updPwr f s).se0 = s.se0 := rfl
@[simp] theorem updPwr_se1 : (updPwr f s).se1 = s.se1 := rfl
@[simp] theorem updPwr_adc : (updPwr f s).adc = s.adc := rfl
@[simp] theorem updPwr_tmr : (updPwr f s).tmr = s.tmr := rfl
@[simp] theorem updPwr_wdg : (updPwr f s).wdg = s.wdg := rfl
@[simp] theorem updPwr_ram : (updPwr f s).mem = s.mem := rfl
@[simp] theorem updPwr_freeCtr : (updPwr f s).freeCtr = s.freeCtr := rfl
@[simp] theorem updPwr_pending : (updPwr f s).pending = s.pending := rfl
end

section
variable (f : Flash → Flash)
@[simp] theorem updFlash_dev : (updFlash f s).dev = s.dev := rfl
@[simp] theorem updFlash_clk : (updFlash f s).clk = s.clk := rfl
@[simp] theorem updFlash_mbx : (updFlash f s).mbx = s.mbx := rfl
@[simp] theorem updFlash_hostp : (updFlash f s).hostp = s.hostp := rfl
@[simp] theorem updFlash_shots : (updFlash f s).shots = s.shots := rfl
@[simp] theorem updFlash_radio : (updFlash f s).radio = s.radio := rfl
@[simp] theorem updFlash_lanes : (updFlash f s).lanes = s.lanes := rfl
@[simp] theorem updFlash_canary : (updFlash f s).canary = s.canary := rfl
@[simp] theorem updFlash_link : (updFlash f s).link = s.link := rfl
@[simp] theorem updFlash_timing : (updFlash f s).timing = s.timing := rfl
@[simp] theorem updFlash_tally : (updFlash f s).tally = s.tally := rfl
@[simp] theorem updFlash_qm : (updFlash f s).qm = s.qm := rfl
@[simp] theorem updFlash_sched : (updFlash f s).sched = s.sched := rfl
@[simp] theorem updFlash_cipher : (updFlash f s).cipher = s.cipher := rfl
@[simp] theorem updFlash_pwr : (updFlash f s).pwr = s.pwr := rfl
@[simp] theorem updFlash_pads : (updFlash f s).pads = s.pads := rfl
@[simp] theorem updFlash_boot : (updFlash f s).boot = s.boot := rfl
@[simp] theorem updFlash_flash : (updFlash f s).flash = f s.flash := rfl
@[simp] theorem updFlash_upd : (updFlash f s).upd = s.upd := rfl
@[simp] theorem updFlash_rtc : (updFlash f s).rtc = s.rtc := rfl
@[simp] theorem updFlash_port : (updFlash f s).port = s.port := rfl
@[simp] theorem updFlash_core : (updFlash f s).core = s.core := rfl
@[simp] theorem updFlash_se0 : (updFlash f s).se0 = s.se0 := rfl
@[simp] theorem updFlash_se1 : (updFlash f s).se1 = s.se1 := rfl
@[simp] theorem updFlash_adc : (updFlash f s).adc = s.adc := rfl
@[simp] theorem updFlash_tmr : (updFlash f s).tmr = s.tmr := rfl
@[simp] theorem updFlash_wdg : (updFlash f s).wdg = s.wdg := rfl
@[simp] theorem updFlash_ram : (updFlash f s).mem = s.mem := rfl
@[simp] theorem updFlash_freeCtr : (updFlash f s).freeCtr = s.freeCtr := rfl
@[simp] theorem updFlash_pending : (updFlash f s).pending = s.pending := rfl
end

section
variable (f : Upd → Upd)
@[simp] theorem updUpd_dev : (updUpd f s).dev = s.dev := rfl
@[simp] theorem updUpd_clk : (updUpd f s).clk = s.clk := rfl
@[simp] theorem updUpd_mbx : (updUpd f s).mbx = s.mbx := rfl
@[simp] theorem updUpd_hostp : (updUpd f s).hostp = s.hostp := rfl
@[simp] theorem updUpd_shots : (updUpd f s).shots = s.shots := rfl
@[simp] theorem updUpd_radio : (updUpd f s).radio = s.radio := rfl
@[simp] theorem updUpd_lanes : (updUpd f s).lanes = s.lanes := rfl
@[simp] theorem updUpd_canary : (updUpd f s).canary = s.canary := rfl
@[simp] theorem updUpd_link : (updUpd f s).link = s.link := rfl
@[simp] theorem updUpd_timing : (updUpd f s).timing = s.timing := rfl
@[simp] theorem updUpd_tally : (updUpd f s).tally = s.tally := rfl
@[simp] theorem updUpd_qm : (updUpd f s).qm = s.qm := rfl
@[simp] theorem updUpd_sched : (updUpd f s).sched = s.sched := rfl
@[simp] theorem updUpd_cipher : (updUpd f s).cipher = s.cipher := rfl
@[simp] theorem updUpd_pwr : (updUpd f s).pwr = s.pwr := rfl
@[simp] theorem updUpd_pads : (updUpd f s).pads = s.pads := rfl
@[simp] theorem updUpd_boot : (updUpd f s).boot = s.boot := rfl
@[simp] theorem updUpd_flash : (updUpd f s).flash = s.flash := rfl
@[simp] theorem updUpd_upd : (updUpd f s).upd = f s.upd := rfl
@[simp] theorem updUpd_rtc : (updUpd f s).rtc = s.rtc := rfl
@[simp] theorem updUpd_port : (updUpd f s).port = s.port := rfl
@[simp] theorem updUpd_core : (updUpd f s).core = s.core := rfl
@[simp] theorem updUpd_se0 : (updUpd f s).se0 = s.se0 := rfl
@[simp] theorem updUpd_se1 : (updUpd f s).se1 = s.se1 := rfl
@[simp] theorem updUpd_adc : (updUpd f s).adc = s.adc := rfl
@[simp] theorem updUpd_tmr : (updUpd f s).tmr = s.tmr := rfl
@[simp] theorem updUpd_wdg : (updUpd f s).wdg = s.wdg := rfl
@[simp] theorem updUpd_ram : (updUpd f s).mem = s.mem := rfl
@[simp] theorem updUpd_freeCtr : (updUpd f s).freeCtr = s.freeCtr := rfl
@[simp] theorem updUpd_pending : (updUpd f s).pending = s.pending := rfl
end

section
variable (f : Rtc → Rtc)
@[simp] theorem updRtc_dev : (updRtc f s).dev = s.dev := rfl
@[simp] theorem updRtc_clk : (updRtc f s).clk = s.clk := rfl
@[simp] theorem updRtc_mbx : (updRtc f s).mbx = s.mbx := rfl
@[simp] theorem updRtc_hostp : (updRtc f s).hostp = s.hostp := rfl
@[simp] theorem updRtc_shots : (updRtc f s).shots = s.shots := rfl
@[simp] theorem updRtc_radio : (updRtc f s).radio = s.radio := rfl
@[simp] theorem updRtc_lanes : (updRtc f s).lanes = s.lanes := rfl
@[simp] theorem updRtc_canary : (updRtc f s).canary = s.canary := rfl
@[simp] theorem updRtc_link : (updRtc f s).link = s.link := rfl
@[simp] theorem updRtc_timing : (updRtc f s).timing = s.timing := rfl
@[simp] theorem updRtc_tally : (updRtc f s).tally = s.tally := rfl
@[simp] theorem updRtc_qm : (updRtc f s).qm = s.qm := rfl
@[simp] theorem updRtc_sched : (updRtc f s).sched = s.sched := rfl
@[simp] theorem updRtc_cipher : (updRtc f s).cipher = s.cipher := rfl
@[simp] theorem updRtc_pwr : (updRtc f s).pwr = s.pwr := rfl
@[simp] theorem updRtc_pads : (updRtc f s).pads = s.pads := rfl
@[simp] theorem updRtc_boot : (updRtc f s).boot = s.boot := rfl
@[simp] theorem updRtc_flash : (updRtc f s).flash = s.flash := rfl
@[simp] theorem updRtc_upd : (updRtc f s).upd = s.upd := rfl
@[simp] theorem updRtc_rtc : (updRtc f s).rtc = f s.rtc := rfl
@[simp] theorem updRtc_port : (updRtc f s).port = s.port := rfl
@[simp] theorem updRtc_core : (updRtc f s).core = s.core := rfl
@[simp] theorem updRtc_se0 : (updRtc f s).se0 = s.se0 := rfl
@[simp] theorem updRtc_se1 : (updRtc f s).se1 = s.se1 := rfl
@[simp] theorem updRtc_adc : (updRtc f s).adc = s.adc := rfl
@[simp] theorem updRtc_tmr : (updRtc f s).tmr = s.tmr := rfl
@[simp] theorem updRtc_wdg : (updRtc f s).wdg = s.wdg := rfl
@[simp] theorem updRtc_ram : (updRtc f s).mem = s.mem := rfl
@[simp] theorem updRtc_freeCtr : (updRtc f s).freeCtr = s.freeCtr := rfl
@[simp] theorem updRtc_pending : (updRtc f s).pending = s.pending := rfl
end

section
variable (f : Port → Port)
@[simp] theorem updPort_dev : (updPort f s).dev = s.dev := rfl
@[simp] theorem updPort_clk : (updPort f s).clk = s.clk := rfl
@[simp] theorem updPort_mbx : (updPort f s).mbx = s.mbx := rfl
@[simp] theorem updPort_hostp : (updPort f s).hostp = s.hostp := rfl
@[simp] theorem updPort_shots : (updPort f s).shots = s.shots := rfl
@[simp] theorem updPort_radio : (updPort f s).radio = s.radio := rfl
@[simp] theorem updPort_lanes : (updPort f s).lanes = s.lanes := rfl
@[simp] theorem updPort_canary : (updPort f s).canary = s.canary := rfl
@[simp] theorem updPort_link : (updPort f s).link = s.link := rfl
@[simp] theorem updPort_timing : (updPort f s).timing = s.timing := rfl
@[simp] theorem updPort_tally : (updPort f s).tally = s.tally := rfl
@[simp] theorem updPort_qm : (updPort f s).qm = s.qm := rfl
@[simp] theorem updPort_sched : (updPort f s).sched = s.sched := rfl
@[simp] theorem updPort_cipher : (updPort f s).cipher = s.cipher := rfl
@[simp] theorem updPort_pwr : (updPort f s).pwr = s.pwr := rfl
@[simp] theorem updPort_pads : (updPort f s).pads = s.pads := rfl
@[simp] theorem updPort_boot : (updPort f s).boot = s.boot := rfl
@[simp] theorem updPort_flash : (updPort f s).flash = s.flash := rfl
@[simp] theorem updPort_upd : (updPort f s).upd = s.upd := rfl
@[simp] theorem updPort_rtc : (updPort f s).rtc = s.rtc := rfl
@[simp] theorem updPort_port : (updPort f s).port = f s.port := rfl
@[simp] theorem updPort_core : (updPort f s).core = s.core := rfl
@[simp] theorem updPort_se0 : (updPort f s).se0 = s.se0 := rfl
@[simp] theorem updPort_se1 : (updPort f s).se1 = s.se1 := rfl
@[simp] theorem updPort_adc : (updPort f s).adc = s.adc := rfl
@[simp] theorem updPort_tmr : (updPort f s).tmr = s.tmr := rfl
@[simp] theorem updPort_wdg : (updPort f s).wdg = s.wdg := rfl
@[simp] theorem updPort_ram : (updPort f s).mem = s.mem := rfl
@[simp] theorem updPort_freeCtr : (updPort f s).freeCtr = s.freeCtr := rfl
@[simp] theorem updPort_pending : (updPort f s).pending = s.pending := rfl
end

section
variable (f : Core → Core)
@[simp] theorem updCore_dev : (updCore f s).dev = s.dev := rfl
@[simp] theorem updCore_clk : (updCore f s).clk = s.clk := rfl
@[simp] theorem updCore_mbx : (updCore f s).mbx = s.mbx := rfl
@[simp] theorem updCore_hostp : (updCore f s).hostp = s.hostp := rfl
@[simp] theorem updCore_shots : (updCore f s).shots = s.shots := rfl
@[simp] theorem updCore_radio : (updCore f s).radio = s.radio := rfl
@[simp] theorem updCore_lanes : (updCore f s).lanes = s.lanes := rfl
@[simp] theorem updCore_canary : (updCore f s).canary = s.canary := rfl
@[simp] theorem updCore_link : (updCore f s).link = s.link := rfl
@[simp] theorem updCore_timing : (updCore f s).timing = s.timing := rfl
@[simp] theorem updCore_tally : (updCore f s).tally = s.tally := rfl
@[simp] theorem updCore_qm : (updCore f s).qm = s.qm := rfl
@[simp] theorem updCore_sched : (updCore f s).sched = s.sched := rfl
@[simp] theorem updCore_cipher : (updCore f s).cipher = s.cipher := rfl
@[simp] theorem updCore_pwr : (updCore f s).pwr = s.pwr := rfl
@[simp] theorem updCore_pads : (updCore f s).pads = s.pads := rfl
@[simp] theorem updCore_boot : (updCore f s).boot = s.boot := rfl
@[simp] theorem updCore_flash : (updCore f s).flash = s.flash := rfl
@[simp] theorem updCore_upd : (updCore f s).upd = s.upd := rfl
@[simp] theorem updCore_rtc : (updCore f s).rtc = s.rtc := rfl
@[simp] theorem updCore_port : (updCore f s).port = s.port := rfl
@[simp] theorem updCore_core : (updCore f s).core = f s.core := rfl
@[simp] theorem updCore_se0 : (updCore f s).se0 = s.se0 := rfl
@[simp] theorem updCore_se1 : (updCore f s).se1 = s.se1 := rfl
@[simp] theorem updCore_adc : (updCore f s).adc = s.adc := rfl
@[simp] theorem updCore_tmr : (updCore f s).tmr = s.tmr := rfl
@[simp] theorem updCore_wdg : (updCore f s).wdg = s.wdg := rfl
@[simp] theorem updCore_ram : (updCore f s).mem = s.mem := rfl
@[simp] theorem updCore_freeCtr : (updCore f s).freeCtr = s.freeCtr := rfl
@[simp] theorem updCore_pending : (updCore f s).pending = s.pending := rfl
end

section
variable (f : Canary → Canary)
@[simp] theorem updCanary_dev : (updCanary f s).dev = s.dev := rfl
@[simp] theorem updCanary_clk : (updCanary f s).clk = s.clk := rfl
@[simp] theorem updCanary_mbx : (updCanary f s).mbx = s.mbx := rfl
@[simp] theorem updCanary_hostp : (updCanary f s).hostp = s.hostp := rfl
@[simp] theorem updCanary_shots : (updCanary f s).shots = s.shots := rfl
@[simp] theorem updCanary_radio : (updCanary f s).radio = s.radio := rfl
@[simp] theorem updCanary_lanes : (updCanary f s).lanes = s.lanes := rfl
@[simp] theorem updCanary_canary : (updCanary f s).canary = f s.canary := rfl
@[simp] theorem updCanary_link : (updCanary f s).link = s.link := rfl
@[simp] theorem updCanary_timing : (updCanary f s).timing = s.timing := rfl
@[simp] theorem updCanary_tally : (updCanary f s).tally = s.tally := rfl
@[simp] theorem updCanary_qm : (updCanary f s).qm = s.qm := rfl
@[simp] theorem updCanary_sched : (updCanary f s).sched = s.sched := rfl
@[simp] theorem updCanary_cipher : (updCanary f s).cipher = s.cipher := rfl
@[simp] theorem updCanary_pwr : (updCanary f s).pwr = s.pwr := rfl
@[simp] theorem updCanary_pads : (updCanary f s).pads = s.pads := rfl
@[simp] theorem updCanary_boot : (updCanary f s).boot = s.boot := rfl
@[simp] theorem updCanary_flash : (updCanary f s).flash = s.flash := rfl
@[simp] theorem updCanary_upd : (updCanary f s).upd = s.upd := rfl
@[simp] theorem updCanary_rtc : (updCanary f s).rtc = s.rtc := rfl
@[simp] theorem updCanary_port : (updCanary f s).port = s.port := rfl
@[simp] theorem updCanary_core : (updCanary f s).core = s.core := rfl
@[simp] theorem updCanary_se0 : (updCanary f s).se0 = s.se0 := rfl
@[simp] theorem updCanary_se1 : (updCanary f s).se1 = s.se1 := rfl
@[simp] theorem updCanary_adc : (updCanary f s).adc = s.adc := rfl
@[simp] theorem updCanary_tmr : (updCanary f s).tmr = s.tmr := rfl
@[simp] theorem updCanary_wdg : (updCanary f s).wdg = s.wdg := rfl
@[simp] theorem updCanary_ram : (updCanary f s).mem = s.mem := rfl
@[simp] theorem updCanary_freeCtr : (updCanary f s).freeCtr = s.freeCtr := rfl
@[simp] theorem updCanary_pending : (updCanary f s).pending = s.pending := rfl
end

section
variable (f : Mbx → Mbx)
@[simp] theorem updMbx_dev : (updMbx f s).dev = s.dev := rfl
@[simp] theorem updMbx_clk : (updMbx f s).clk = s.clk := rfl
@[simp] theorem updMbx_mbx : (updMbx f s).mbx = f s.mbx := rfl
@[simp] theorem updMbx_hostp : (updMbx f s).hostp = s.hostp := rfl
@[simp] theorem updMbx_shots : (updMbx f s).shots = s.shots := rfl
@[simp] theorem updMbx_radio : (updMbx f s).radio = s.radio := rfl
@[simp] theorem updMbx_lanes : (updMbx f s).lanes = s.lanes := rfl
@[simp] theorem updMbx_canary : (updMbx f s).canary = s.canary := rfl
@[simp] theorem updMbx_link : (updMbx f s).link = s.link := rfl
@[simp] theorem updMbx_timing : (updMbx f s).timing = s.timing := rfl
@[simp] theorem updMbx_tally : (updMbx f s).tally = s.tally := rfl
@[simp] theorem updMbx_qm : (updMbx f s).qm = s.qm := rfl
@[simp] theorem updMbx_sched : (updMbx f s).sched = s.sched := rfl
@[simp] theorem updMbx_cipher : (updMbx f s).cipher = s.cipher := rfl
@[simp] theorem updMbx_pwr : (updMbx f s).pwr = s.pwr := rfl
@[simp] theorem updMbx_pads : (updMbx f s).pads = s.pads := rfl
@[simp] theorem updMbx_boot : (updMbx f s).boot = s.boot := rfl
@[simp] theorem updMbx_flash : (updMbx f s).flash = s.flash := rfl
@[simp] theorem updMbx_upd : (updMbx f s).upd = s.upd := rfl
@[simp] theorem updMbx_rtc : (updMbx f s).rtc = s.rtc := rfl
@[simp] theorem updMbx_port : (updMbx f s).port = s.port := rfl
@[simp] theorem updMbx_core : (updMbx f s).core = s.core := rfl
@[simp] theorem updMbx_se0 : (updMbx f s).se0 = s.se0 := rfl
@[simp] theorem updMbx_se1 : (updMbx f s).se1 = s.se1 := rfl
@[simp] theorem updMbx_adc : (updMbx f s).adc = s.adc := rfl
@[simp] theorem updMbx_tmr : (updMbx f s).tmr = s.tmr := rfl
@[simp] theorem updMbx_wdg : (updMbx f s).wdg = s.wdg := rfl
@[simp] theorem updMbx_ram : (updMbx f s).mem = s.mem := rfl
@[simp] theorem updMbx_freeCtr : (updMbx f s).freeCtr = s.freeCtr := rfl
@[simp] theorem updMbx_pending : (updMbx f s).pending = s.pending := rfl
end

section
variable (f : Boot → Boot)
@[simp] theorem updBoot_dev : (updBoot f s).dev = s.dev := rfl
@[simp] theorem updBoot_clk : (updBoot f s).clk = s.clk := rfl
@[simp] theorem updBoot_mbx : (updBoot f s).mbx = s.mbx := rfl
@[simp] theorem updBoot_hostp : (updBoot f s).hostp = s.hostp := rfl
@[simp] theorem updBoot_shots : (updBoot f s).shots = s.shots := rfl
@[simp] theorem updBoot_radio : (updBoot f s).radio = s.radio := rfl
@[simp] theorem updBoot_lanes : (updBoot f s).lanes = s.lanes := rfl
@[simp] theorem updBoot_canary : (updBoot f s).canary = s.canary := rfl
@[simp] theorem updBoot_link : (updBoot f s).link = s.link := rfl
@[simp] theorem updBoot_timing : (updBoot f s).timing = s.timing := rfl
@[simp] theorem updBoot_tally : (updBoot f s).tally = s.tally := rfl
@[simp] theorem updBoot_qm : (updBoot f s).qm = s.qm := rfl
@[simp] theorem updBoot_sched : (updBoot f s).sched = s.sched := rfl
@[simp] theorem updBoot_cipher : (updBoot f s).cipher = s.cipher := rfl
@[simp] theorem updBoot_pwr : (updBoot f s).pwr = s.pwr := rfl
@[simp] theorem updBoot_pads : (updBoot f s).pads = s.pads := rfl
@[simp] theorem updBoot_boot : (updBoot f s).boot = f s.boot := rfl
@[simp] theorem updBoot_flash : (updBoot f s).flash = s.flash := rfl
@[simp] theorem updBoot_upd : (updBoot f s).upd = s.upd := rfl
@[simp] theorem updBoot_rtc : (updBoot f s).rtc = s.rtc := rfl
@[simp] theorem updBoot_port : (updBoot f s).port = s.port := rfl
@[simp] theorem updBoot_core : (updBoot f s).core = s.core := rfl
@[simp] theorem updBoot_se0 : (updBoot f s).se0 = s.se0 := rfl
@[simp] theorem updBoot_se1 : (updBoot f s).se1 = s.se1 := rfl
@[simp] theorem updBoot_adc : (updBoot f s).adc = s.adc := rfl
@[simp] theorem updBoot_tmr : (updBoot f s).tmr = s.tmr := rfl
@[simp] theorem updBoot_wdg : (updBoot f s).wdg = s.wdg := rfl
@[simp] theorem updBoot_ram : (updBoot f s).mem = s.mem := rfl
@[simp] theorem updBoot_freeCtr : (updBoot f s).freeCtr = s.freeCtr := rfl
@[simp] theorem updBoot_pending : (updBoot f s).pending = s.pending := rfl
end

section
variable (f : Clk → Clk)
@[simp] theorem updClk_dev : (updClk f s).dev = s.dev := rfl
@[simp] theorem updClk_clk : (updClk f s).clk = f s.clk := rfl
@[simp] theorem updClk_mbx : (updClk f s).mbx = s.mbx := rfl
@[simp] theorem updClk_hostp : (updClk f s).hostp = s.hostp := rfl
@[simp] theorem updClk_shots : (updClk f s).shots = s.shots := rfl
@[simp] theorem updClk_radio : (updClk f s).radio = s.radio := rfl
@[simp] theorem updClk_lanes : (updClk f s).lanes = s.lanes := rfl
@[simp] theorem updClk_canary : (updClk f s).canary = s.canary := rfl
@[simp] theorem updClk_link : (updClk f s).link = s.link := rfl
@[simp] theorem updClk_timing : (updClk f s).timing = s.timing := rfl
@[simp] theorem updClk_tally : (updClk f s).tally = s.tally := rfl
@[simp] theorem updClk_qm : (updClk f s).qm = s.qm := rfl
@[simp] theorem updClk_sched : (updClk f s).sched = s.sched := rfl
@[simp] theorem updClk_cipher : (updClk f s).cipher = s.cipher := rfl
@[simp] theorem updClk_pwr : (updClk f s).pwr = s.pwr := rfl
@[simp] theorem updClk_pads : (updClk f s).pads = s.pads := rfl
@[simp] theorem updClk_boot : (updClk f s).boot = s.boot := rfl
@[simp] theorem updClk_flash : (updClk f s).flash = s.flash := rfl
@[simp] theorem updClk_upd : (updClk f s).upd = s.upd := rfl
@[simp] theorem updClk_rtc : (updClk f s).rtc = s.rtc := rfl
@[simp] theorem updClk_port : (updClk f s).port = s.port := rfl
@[simp] theorem updClk_core : (updClk f s).core = s.core := rfl
@[simp] theorem updClk_se0 : (updClk f s).se0 = s.se0 := rfl
@[simp] theorem updClk_se1 : (updClk f s).se1 = s.se1 := rfl
@[simp] theorem updClk_adc : (updClk f s).adc = s.adc := rfl
@[simp] theorem updClk_tmr : (updClk f s).tmr = s.tmr := rfl
@[simp] theorem updClk_wdg : (updClk f s).wdg = s.wdg := rfl
@[simp] theorem updClk_ram : (updClk f s).mem = s.mem := rfl
@[simp] theorem updClk_freeCtr : (updClk f s).freeCtr = s.freeCtr := rfl
@[simp] theorem updClk_pending : (updClk f s).pending = s.pending := rfl
end

section
variable (f : Adc → Adc)
@[simp] theorem updAdc_dev : (updAdc f s).dev = s.dev := rfl
@[simp] theorem updAdc_clk : (updAdc f s).clk = s.clk := rfl
@[simp] theorem updAdc_mbx : (updAdc f s).mbx = s.mbx := rfl
@[simp] theorem updAdc_hostp : (updAdc f s).hostp = s.hostp := rfl
@[simp] theorem updAdc_shots : (updAdc f s).shots = s.shots := rfl
@[simp] theorem updAdc_radio : (updAdc f s).radio = s.radio := rfl
@[simp] theorem updAdc_lanes : (updAdc f s).lanes = s.lanes := rfl
@[simp] theorem updAdc_canary : (updAdc f s).canary = s.canary := rfl
@[simp] theorem updAdc_link : (updAdc f s).link = s.link := rfl
@[simp] theorem updAdc_timing : (updAdc f s).timing = s.timing := rfl
@[simp] theorem updAdc_tally : (updAdc f s).tally = s.tally := rfl
@[simp] theorem updAdc_qm : (updAdc f s).qm = s.qm := rfl
@[simp] theorem updAdc_sched : (updAdc f s).sched = s.sched := rfl
@[simp] theorem updAdc_cipher : (updAdc f s).cipher = s.cipher := rfl
@[simp] theorem updAdc_pwr : (updAdc f s).pwr = s.pwr := rfl
@[simp] theorem updAdc_pads : (updAdc f s).pads = s.pads := rfl
@[simp] theorem updAdc_boot : (updAdc f s).boot = s.boot := rfl
@[simp] theorem updAdc_flash : (updAdc f s).flash = s.flash := rfl
@[simp] theorem updAdc_upd : (updAdc f s).upd = s.upd := rfl
@[simp] theorem updAdc_rtc : (updAdc f s).rtc = s.rtc := rfl
@[simp] theorem updAdc_port : (updAdc f s).port = s.port := rfl
@[simp] theorem updAdc_core : (updAdc f s).core = s.core := rfl
@[simp] theorem updAdc_se0 : (updAdc f s).se0 = s.se0 := rfl
@[simp] theorem updAdc_se1 : (updAdc f s).se1 = s.se1 := rfl
@[simp] theorem updAdc_adc : (updAdc f s).adc = f s.adc := rfl
@[simp] theorem updAdc_tmr : (updAdc f s).tmr = s.tmr := rfl
@[simp] theorem updAdc_wdg : (updAdc f s).wdg = s.wdg := rfl
@[simp] theorem updAdc_ram : (updAdc f s).mem = s.mem := rfl
@[simp] theorem updAdc_freeCtr : (updAdc f s).freeCtr = s.freeCtr := rfl
@[simp] theorem updAdc_pending : (updAdc f s).pending = s.pending := rfl
end

section
variable (f : Wdg → Wdg)
@[simp] theorem updWdg_dev : (updWdg f s).dev = s.dev := rfl
@[simp] theorem updWdg_clk : (updWdg f s).clk = s.clk := rfl
@[simp] theorem updWdg_mbx : (updWdg f s).mbx = s.mbx := rfl
@[simp] theorem updWdg_hostp : (updWdg f s).hostp = s.hostp := rfl
@[simp] theorem updWdg_shots : (updWdg f s).shots = s.shots := rfl
@[simp] theorem updWdg_radio : (updWdg f s).radio = s.radio := rfl
@[simp] theorem updWdg_lanes : (updWdg f s).lanes = s.lanes := rfl
@[simp] theorem updWdg_canary : (updWdg f s).canary = s.canary := rfl
@[simp] theorem updWdg_link : (updWdg f s).link = s.link := rfl
@[simp] theorem updWdg_timing : (updWdg f s).timing = s.timing := rfl
@[simp] theorem updWdg_tally : (updWdg f s).tally = s.tally := rfl
@[simp] theorem updWdg_qm : (updWdg f s).qm = s.qm := rfl
@[simp] theorem updWdg_sched : (updWdg f s).sched = s.sched := rfl
@[simp] theorem updWdg_cipher : (updWdg f s).cipher = s.cipher := rfl
@[simp] theorem updWdg_pwr : (updWdg f s).pwr = s.pwr := rfl
@[simp] theorem updWdg_pads : (updWdg f s).pads = s.pads := rfl
@[simp] theorem updWdg_boot : (updWdg f s).boot = s.boot := rfl
@[simp] theorem updWdg_flash : (updWdg f s).flash = s.flash := rfl
@[simp] theorem updWdg_upd : (updWdg f s).upd = s.upd := rfl
@[simp] theorem updWdg_rtc : (updWdg f s).rtc = s.rtc := rfl
@[simp] theorem updWdg_port : (updWdg f s).port = s.port := rfl
@[simp] theorem updWdg_core : (updWdg f s).core = s.core := rfl
@[simp] theorem updWdg_se0 : (updWdg f s).se0 = s.se0 := rfl
@[simp] theorem updWdg_se1 : (updWdg f s).se1 = s.se1 := rfl
@[simp] theorem updWdg_adc : (updWdg f s).adc = s.adc := rfl
@[simp] theorem updWdg_tmr : (updWdg f s).tmr = s.tmr := rfl
@[simp] theorem updWdg_wdg : (updWdg f s).wdg = f s.wdg := rfl
@[simp] theorem updWdg_ram : (updWdg f s).mem = s.mem := rfl
@[simp] theorem updWdg_freeCtr : (updWdg f s).freeCtr = s.freeCtr := rfl
@[simp] theorem updWdg_pending : (updWdg f s).pending = s.pending := rfl
end

/-- Two updates of one unit are one. -/
theorem updCore_updCore (f g : Core → Core) : updCore f (updCore g s) = updCore (fun c => f (g c)) s := rfl

end Sys2Proof.Machine
end

