-- ==== Sys2Proof/Laws/Words.lean ====
section
/-! SUPPORT. What the core's shared operations do, once: a word, a branch, an access to a RAM, an entry and a call. -/

set_option Elab.async false
set_option linter.all false

namespace Sys2Proof.Machine

/-- A core that runs and whose fetch succeeds executes the word. -/
theorem word_plain {s : State} (h : Plain s) (b : State → State) : word b s = b s := by
  have : awaken s = s := by simp [awaken, h.running]
  simp only [word, this, h.running, h.fetched, ne_eq, not_true, if_false]

/-- No load is pending. -/
theorem land_plain {s : State} (h : Plain s) : s.core.land = s.core := by simp [Core.land, h.settled]

/-- The end of a word that writes one register. -/
theorem result_plain {s : State} (h : Plain s) (rd : Reg) (v : Word) : result rd v s = wrote rd v s := by
  have : s.core.put rd.toNat v = s.core.put rd.toNat v := rfl
  simp only [result, finish, Core.endWord, Core.advance, updCore, wrote, List.foldl, land_plain h, h.once]
  simp only [Bool.not_false, if_true]
  unfold Core.put
  split <;> (try split) <;> simp [h.settled]

/-- A row that computes a register. -/
theorem aluRow_plain {s : State} (h : Plain s) (rd : Reg) (f : State → Word) (v : Word) (hv : f s = v) : aluRow rd f s = .next (wrote rd v s) := by
  simp only [aluRow, word_plain h, result_plain h, hv]

theorem goTo_plain {s : State} (h : Plain s) (a : Word) : goTo a s = wentTo a s := by
  simp [goTo, wentTo, updCore, land_plain h]

/-- A branch goes to its target when its condition holds, else to the next word. -/
theorem branchRow_plain {s : State} (h : Plain s) (f : State → Bool) (off : BitVec 17) (p : Prop) [Decidable p] (hp : f s = decide p) :
    branchRow f off s = .next (wentTo (if p then s.core.pc + off.signExtend 32 * 4#32 else s.core.pc + 4#32) s) := by
  simp only [branchRow, word_plain h, goTo_plain h, hp, wordOff, sext]
  congr 2
  by_cases p <;> simp [*]

theorem awaken_running {s : State} (h : s.core.run = .running) : awaken s = s := by simp [awaken, h]

/-- The same for a core that runs, whatever else it has pending. -/
theorem word_running {s : State} (h : s.core.run = .running) (h2 : fetchFails s = none) (b : State → State) : word b s = b s := by
  simp only [word, awaken_running h, h, h2, ne_eq, not_true, if_false]

/-- R604: a fetch that fails raises its exception. -/
theorem word_fetchFails {s : State} (h : s.core.run = .running) {e : Nat} (h2 : fetchFails s = some e) (b : State → State) :
    word b s = raiseExc { exc := e, kind := some 2, slotb := some false, addr := s.core.pc } s.core.pc s := by
  simp only [word, awaken_running h, h, h2, ne_eq, not_true, if_false]

/-- A read of a RAM. -/
theorem busRead_ram {a : Nat} {z : Size} {rd s} (h : placeOf a = .ram ∨ placeOf a = .shared) : busRead a z rd s = (s, .val (unle (rdBytes s a (sizeBytes z)))) := by
  rcases h with h | h <;> simp [busRead, h]

/-- A read of a RAM that the MPU allows. -/
theorem coreRead_ram {a : Word} {z : Size} {rd : Option Nat} {s : State} (h : ReadsRam a z s) :
    coreRead s.core.mach a z rd s = .ok (unle (rdBytes s a.toNat (sizeBytes z))) s := by
  simp [coreRead, h.1, h.2.1, busRead_ram h.2.2]

theorem wrBytes_core (s a l) : (wrBytes s a l).core = s.core := rfl

/-- A write of a RAM that the MPU allows. -/
theorem coreWrite_ram {a : Word} {z : Size} {v : Word} {s : State} (h : WritesRam a z s) (hr : s.core.run = .running) :
    coreWrite s.core.mach a z v s = .ok 0 (wrBytes s a.toNat (le (sizeBytes z) v.toNat)) := by
  simp [coreWrite, h.1, h.2.1, busWrite, h.2.2, wrBytes_core, hr]

theorem endWord_plain {s : State} (h : Plain s) (ws : List (Nat × Word)) (l : Option (Nat × Word)) :
    Core.endWord ws l s.core = { ws.foldl (fun a x => a.put x.1 x.2) s.core with pendLoad := l, pc := s.core.pc + 4#32 } := by
  simp [Core.endWord, Core.advance, h.once, land_plain h]

/-- A load from a RAM. -/
theorem loadRow_plain {s : State} (h : Plain s) (op : Nat) (rd ra : Reg) (imm : BitVec 17) (hr : ReadsRam (greg s ra + sext imm) (opSize op) s) :
    loadRow op rd ra imm s = .next (loading rd (extend op (unle (rdBytes s (greg s ra + sext imm).toNat (sizeBytes (opSize op))))) s) := by
  simp only [loadRow, word_plain h, loadAt, coreRead_ram hr, finish, updCore, endWord_plain h]
  rfl

/-- A store to a RAM. -/
theorem storeRow_plain {s : State} (h : Plain s) (op : Nat) (rd ra : Reg) (imm : BitVec 17) (hr : WritesRam (greg s ra + sext imm) (opSize op) s) :
    storeRow op rd ra imm s = .next (wentTo (s.core.pc + 4#32) (wrBytes s (greg s ra + sext imm).toNat (le (sizeBytes (opSize op)) (greg s rd).toNat))) := by
  simp only [storeRow, word_plain h, storeAt, coreWrite_ram hr h.running, finish, updCore, wrBytes_core, endWord_plain h]
  simp [wentTo, wrBytes_core, h.settled]

theorem ofNat_toNat_word (a : Word) (n : Nat) (h : n = a.toNat) : BitVec.ofNat 32 n = a := by subst h; simp

/-- R617: a vector word is aligned. -/
theorem vectorAddr_aligned (s : State) (n : Nat) : (vectorAddr s n).toNat % 4 = 0 := by
  simp only [vectorAddr, BitVec.toNat_add, BitVec.toNat_append, BitVec.toNat_ofNat, Nat.shiftLeft_eq]
  have : s.core.vbase.toNat < 2^24 := s.core.vbase.isLt
  simp
  omega

/-- The read of a vector. -/
theorem coreRead_vector {n : Nat} {v : Word} {s t : State} (h : Vectored n v s) (hm : ∀ a k, mpuAllows t.core true k a = mpuAllows s.core true k a)
   (hr : rdBytes t (vectorAddr s n).toNat 4 = rdBytes s (vectorAddr s n).toNat 4) :
    coreRead true (vectorAddr s n) .w none t = .ok v.toNat t := by
  obtain ⟨h1, h2, h3, h4, h5⟩ := h
  have : misaligned (vectorAddr s n).toNat .w = false := by simp [misaligned, sizeBytes, vectorAddr_aligned]
  simp only [coreRead, this, hm, h1, Bool.not_true, Bool.false_eq_true, if_false, busRead_ram (Or.inl h2), sizeBytes, hr, h3]

theorem vectored_legal {n v s} (h : Vectored n v s) : ¬ (v.toNat = 0 ∨ v.toNat % 4 ≠ 0) := by
  obtain ⟨h1, h2, h3, h4, h5⟩ := h
  have : v.toNat ≠ 0 := fun h => h4 (BitVec.eq_of_toNat_eq h)
  omega

/-- R613: an entry with the split stack. -/
theorem enter_split {n : Nat} {v : Word} {s : State} (lv) (ret : Word) (hs : s.core.split = true) (hl : s.core.hw.length < 64) (h : Vectored n v s) :
    enter n lv ret s = .done (entered v ret lv s) := by
  have hp : entryPush ret s = .done (updCore (fun x => { x with hw := { ret := ret, st := some s.core.st } :: x.hw }) s) := by
    simp [entryPush, hs, Nat.not_le.2 hl]
  simp only [enter, hp]
  have hv := coreRead_vector (t := updCore (fun x => { x with hw := { ret := ret, st := some s.core.st } :: x.hw }) s) h (fun _ _ => rfl) rfl
  rw [hv]
  simp only [if_neg (vectored_legal h), updCore, entered, BitVec.ofNat_toNat, BitVec.setWidth_eq]

theorem enterOr_split {n : Nat} {v : Word} {s : State} (lv) (ret : Word) (hs : s.core.split = true) (hl : s.core.hw.length < 64) (h : Vectored n v s) :
    enterOr n lv ret s = entered v ret lv s := by simp only [enterOr, enter_split lv ret hs hl h]

/-- R640: a call with the split stack. -/
theorem callTo_split {s : State} (h : Plain s) (a : Word) (hs : s.core.split = true) (hl : s.core.hw.length < 64) :
    callTo a s = { s with core := { s.core with hw := { ret := s.core.pc + 4#32, st := none } :: s.core.hw, pc := a } } := by
  simp [callTo, hs, Nat.not_le.2 hl, goTo, updCore, Core.land, h.settled]

/-- R640: a call with the stack in memory. -/
theorem callTo_memory {s : State} (h : Plain s) (a : Word) (hs : s.core.split = false) (hl : WritesRam (s.core.get 15 - 4#32) .w s) :
    callTo a s = let t := wrBytes s (s.core.get 15 - 4#32).toNat (le 4 (s.core.pc + 4#32).toNat)
      { t with core := { s.core.put 15 (s.core.get 15 - 4#32) with pc := a } } := by
  simp [callTo, hs, coreWrite_ram hl h.running, updCore, wrBytes_core, land_plain h, sizeBytes]

/-- The end of a word. -/
theorem finish_work {s : State} (h : Plain s) (ws l) : finish (.work ws l s) = { s with core := { ws.foldl (fun a x => a.put x.1 x.2) s.core with pendLoad := l, pc := s.core.pc + 4#32 } } := by
  simp only [finish, updCore, endWord_plain h]

end Sys2Proof.Machine
end

