-- ==== Sys2Proof/WellFormed.lean ====
section
/-! DEFINITION. The operands that the spec gives each command: a number lies in the range of what it numbers. -/

namespace Sys2Proof

/-- A flash block of the largest array, or none (R493). -/
def blockOk : Option Nat → Bool
  | none => true
  | some b => decide (b < 16384)

/-- R38: a channel that carries requests. -/
def srvOk (v : Srv) : Bool := decide (v.ch < 6) && blockOk v.ctrFail

/-- R227: the fields of a wake sequence. -/
def wakeSeqOk (r : WakeSeq) : Bool := decide (r.address < 2 ^ 25 ∧ r.group < 2 ^ 7 ∧ r.crc < 2 ^ 8 ∧ r.at_ < 2 ^ 56)

/-- R493: what the start-up meets names a block of the array. -/
def bootEnvOk (e : BootEnv) : Bool := blockOk e.badBlock

/-- The command's operands are ones that the spec gives it. -/
def WellFormed (i : Instr) : Bool :=
  match i with
  | .doorbell _ _ => true
  | .mbxAck _ _ => true
  | .requestBufferWrite _ addr _ _ => decide (addr < 2 ^ 32)
  | .eventWrite ch => decide (ch = 6 ∨ ch = 7)
  | .authLockoutEnd _ => true
  | .hostWriteTransaction _ _ => true
  | .hostReadTransaction _ _ _ => true
  | .sysInfo v => srvOk v
  | .sysCaps v => srvOk v
  | .survey v => srvOk v
  | .surveyRecord => true
  | .surveyCapture => true
  | .surveyQuiesceTimeout => true
  | .sysReset v => srvOk v
  | .resetDelayExpiry => true
  | .modeSet v => srvOk v
  | .modeDrainEnd => true
  | .modeDrainTimeout => true
  | .modeGet v => srvOk v
  | .modeLock v => srvOk v
  | .debugUnlock v => srvOk v
  | .optionRead v => srvOk v
  | .optionWrite v => srvOk v
  | .cmdCounterGet v => srvOk v
  | .counterRaise v => srvOk v
  | .eventFilterSet v => srvOk v
  | .eventFilterGet v => srvOk v
  | .shotOpen v => srvOk v
  | .shotAdd v => srvOk v
  | .shotFire v => srvOk v
  | .shotAbort v => srvOk v
  | .shotStatus v => srvOk v
  | .shotTrigger n => decide (n < 4)
  | .shotFrameTimeout n => decide (n < 4)
  | .shotQuiesceStart n => decide (n < 4)
  | .shotSwap n => decide (n < 4)
  | .shotBoundExpiry n => decide (n < 4)
  | .shotPersistDone n fail => decide (n < 4) && blockOk fail
  | .radioStateGet v => srvOk v
  | .radioTuneSet v => srvOk v
  | .radioTuneGet v => srvOk v
  | .radioPaSet v => srvOk v
  | .radioPaGet v => srvOk v
  | .radioCompSet v => srvOk v
  | .radioCompGet v => srvOk v
  | .radioDivSet v => srvOk v
  | .radioDivGet v => srvOk v
  | .radioExtSet v => srvOk v
  | .radioExtGet v => srvOk v
  | .radioCal v => srvOk v
  | .radioCalDone => true
  | .radioRssi v => srvOk v
  | .rssiMeasureEnd _ => true
  | .radioCca v => srvOk v
  | .ccaListenEnd _ _ => true
  | .radioStatsGet v => srvOk v
  | .radioTestTx v => srvOk v
  | .radioTestStop v => srvOk v
  | .testTxEnd => true
  | .radioTransitionDone => true
  | .calEnd code => decide (code < 2 ^ 16)
  | .lockTimeout => true
  | .tempMeasure _ => true
  | .autoRecal => true
  | .recalWaitTimeout => true
  | .homeRetune => true
  | .txStart _ _ => true
  | .txEnd => true
  | .txLate => true
  | .divDecisionEnd lane _ _ _ => decide (lane < 16)
  | .refFail => true
  | .refRetry => true
  | .xordy => true
  | .pllLock env => bootEnvOk env
  | .lfxrdy => true
  | .scalWindowEnd count => decide (count < 2 ^ 24)
  | .mtimeLoRead => true
  | .laneStateGet v => srvOk v
  | .laneSet v => srvOk v
  | .laneGet v => srvOk v
  | .laneStatsGet v => srvOk v
  | .laneSofDetect lane path _ stamp => decide (lane < 16 ∧ path < 2 ∧ stamp < 2 ^ 56)
  | .laneHeader lane _ => decide (lane < 16)
  | .seamPilotBlock lane _ _ => decide (lane < 16)
  | .laneFcsResult lane _ => decide (lane < 16)
  | .agcClip path => decide (path < 2)
  | .phyProfileSet v => srvOk v
  | .phyProfileGet v => srvOk v
  | .phyQualityGet v => srvOk v
  | .phyStatsGet v => srvOk v
  | .canaryStateGet v => srvOk v
  | .canarySet v => srvOk v
  | .canaryGet v => srvOk v
  | .canarySend v => srvOk v
  | .canarySendEnd => true
  | .canaryStatsGet v => srvOk v
  | .preambleSeen => true
  | .manchesterViolation => true
  | .canarySequenceEnd rx => wakeSeqOk rx
  | .canaryMatch => true
  | .canaryBlankEnd => true
  | .linkStateGet v => srvOk v
  | .linkCfgSet v => srvOk v
  | .linkCfgGet v => srvOk v
  | .nbrSet v => srvOk v
  | .nbrGet v => srvOk v
  | .nbrFind v => srvOk v
  | .routeSet v => srvOk v
  | .routeGet v => srvOk v
  | .routeLookup v => srvOk v
  | .linkJoin v => srvOk v
  | .joinReqInterval => true
  | .joinTimeout => true
  | .linkJoinReply v => srvOk v
  | .linkStatsGet v => srvOk v
  | .frameReceive _ => true
  | .ackDecision _ => true
  | .micResult _ _ => true
  | .pendHoldEnd => true
  | .linkTakeFrame flow _ => decide (flow < 256)
  | .ackReceive _ => true
  | .ackWaitExpiry => true
  | .retryBackoffEnd _ => true
  | .linkDrop => true
  | .timingStateGet v => srvOk v
  | .timingCfgSet v => srvOk v
  | .timingCfgGet v => srvOk v
  | .timingChseqSet v => srvOk v
  | .timingChseqGet v => srvOk v
  | .timingNbrGet v => srvOk v
  | .timingMtimeSet v => srvOk v
  | .timingBeacon v => srvOk v
  | .timingResync v => srvOk v
  | .timeSync v => srvOk v
  | .timingStatsGet v => srvOk v
  | .mtimeStep => true
  | .calendarOverflowMove => true
  | .ownWindowOpen => true
  | .ownWindowClose => true
  | .keepaliveBeacon nbr => decide (nbr < 6144)
  | .resyncBeacon nbr => decide (nbr < 6144)
  | .resyncInterval nbr => decide (nbr < 6144)
  | .resyncListenEnd => true
  | .tallyCfgSet v => srvOk v
  | .tallyCfgGet v => srvOk v
  | .tallyBandSet v => srvOk v
  | .tallyBandGet v => srvOk v
  | .tallyUsageGet v => srvOk v
  | .tallyCheck v => srvOk v
  | .tallyStatsGet v => srvOk v
  | .tallyClear v => srvOk v
  | .bucketRoll => true
  | .lbtListenEnd _ _ => true
  | .lbtBackoffEnd => true
  | .tallyRefuse => true
  | .qmStateGet v => srvOk v
  | .queueSet v => srvOk v
  | .queueGet v => srvOk v
  | .queueStatusGet v => srvOk v
  | .qmCfgSet v => srvOk v
  | .qmCfgGet v => srvOk v
  | .queueFlush v => srvOk v
  | .qmStatsGet v => srvOk v
  | .qmPush _ q _ => decide (q < 512)
  | .qmPop _ q _ => decide (q < 512)
  | .qmLandingWrite _ q _ => decide (q < 512)
  | .popStallExpired _ => true
  | .schedStateGet v => srvOk v
  | .flowSet v => srvOk v
  | .flowGet v => srvOk v
  | .flowStateGet v => srvOk v
  | .shaperSet v => srvOk v
  | .shaperGet v => srvOk v
  | .schedStatsGet v => srvOk v
  | .schedRelease => true
  | .shaperRefill => true
  | .wheelEligible flow => decide (flow < 256)
  | .schedBlocked => true
  | .cipherStateGet v => srvOk v
  | .keyInfoGet v => srvOk v
  | .keyUsageSet v => srvOk v
  | .keyImport v => srvOk v
  | .keyRetire v => srvOk v
  | .keyGenerate v => srvOk v
  | .cipherRun v => srvOk v
  | .cipherRunDone => true
  | .rngGet v => srvOk v
  | .hashRun v => srvOk v
  | .hashRunDone => true
  | .sigVerify v => srvOk v
  | .sigVerifyDone => true
  | .cipherStatsGet v => srvOk v
  | .fcReserveWrite slot fail => decide (slot < 64) && blockOk fail
  | .fcReserveRetry => true
  | .drbgReseed _ => true
  | .cipherHalt _ => true
  | .healthFail => true
  | .sourceRestartEnd _ => true
  | .pwrStateGet v => srvOk v
  | .pwrCfgSet v => srvOk v
  | .pwrCfgGet v => srvOk v
  | .pwrSleep v => srvOk v
  | .pwrSleepWrite _ => true
  | .sleepCommit => true
  | .napReached => true
  | .hibernateReached => true
  | .napWake => true
  | .wakePinEdge => true
  | .gpioEdge pin _ _ => decide (pin < 20)
  | .nettimer => true
  | .apptimerArm _ => true
  | .apptimer => true
  | .pwrWakeenWrite _ => true
  | .pwrClr _ => true
  | .padsRelease _ => true
  | .padsOutset _ => true
  | .padsOutclr _ => true
  | .por => true
  | .bor => true
  | .borRelease => true
  | .backupRetention => true
  | .backupReturn => true
  | .aonLoss => true
  | .nrstAssert => true
  | .nrstRelease => true
  | .nwdtExpire => true
  | .sysctlCorerst _ => true
  | .coreRestart => true
  | .wakeReset => true
  | .bootHandover => true
  | .flashStateGet v => srvOk v
  | .flashRead v => srvOk v
  | .flashProgram v => srvOk v
  | .flashErase v => srvOk v
  | .flashBlockGet v => srvOk v
  | .flashStatsGet v => srvOk v
  | .flashcProgram _ => true
  | .flashcErase _ => true
  | .flashCommandStart plane => decide (plane < 2)
  | .flashProgramDone plane _ => decide (plane < 2)
  | .flashEraseDone plane _ => decide (plane < 2)
  | .flashXipRead addr _ _ => decide (addr < 2 ^ 32)
  | .eraseResume plane => decide (plane < 2)
  | .flashcBsel _ => true
  | .blockQueryDone => true
  | .flashcLock _ => true
  | .flashcEcccntRead => true
  | .updateStateGet v => srvOk v
  | .updateStageBegin v => srvOk v
  | .updateStageBeginDone fail => blockOk fail
  | .updateStageWrite v => srvOk v
  | .updateStageCheck v => srvOk v
  | .updateStageCheckDone => true
  | .updateCommit v => srvOk v
  | .updateSchedule v => srvOk v
  | .updateCancel v => srvOk v
  | .sdCardSearch env => bootEnvOk env
  | .rtcStateGet v => srvOk v
  | .rtcTimeGet v => srvOk v
  | .rtcTimeSet v => srvOk v
  | .rtcAlarmSet v => srvOk v
  | .rtcAlarmGet v => srvOk v
  | .rtcFlagsClear v => srvOk v
  | .rtcTimeRead _ k => decide (k < 8)
  | .rtcSet _ _ => true
  | .rtcThaw _ _ => true
  | .rtcCommit => true
  | .rtcSecondRollover => true
  | .oscStop => true
  | .shadowStale _ => true
  | .fieldOn => true
  | .fieldLoss => true
  | .reqa => true
  | .wupa => true
  | .anticollision _ => true
  | .cascadeSelect _ => true
  | .hlta => true
  | .rats _ => true
  | .pps _ => true
  | .sDeselect => true
  | .wtxExpiry ctrFail _ => blockOk ctrFail
  | .select_ _ => true
  | .readBinary _ => true
  | .getInfo _ => true
  | .verify _ _ => true
  | .readBlock _ => true
  | .writeBlock _ _ => true
  | .stageCred _ _ => true
  | .mailbox _ ctrFail _ => blockOk ctrFail
  | .portBlockWrite _ => true
  | .portwTake => true
  | .portwPrio => true
  | .portwRelease => true
  | .portwRead => true
  | .portwWrite => true
  | .portwCmdDone _ => true
  | .portStateGet v => srvOk v
  | .portCfgSet v => srvOk v
  | .portCfgGet v => srvOk v
  | .portMemRead v => srvOk v
  | .portMemWrite v => srvOk v
  | .portPwSet v => srvOk v
  | .portPwUnlock v => srvOk v
  | .portPwGet v => srvOk v
  | .portCredGet v => srvOk v
  | .portCredClear v => srvOk v
  | .interruptEntry => true
  | .pairWord _ _ => true
  | .add _ _ _ => true
  | .sub _ _ _ => true
  | .and_ _ _ _ => true
  | .or_ _ _ _ => true
  | .xor _ _ _ => true
  | .shl _ _ _ => true
  | .shr _ _ _ => true
  | .sar _ _ _ => true
  | .cmpLt _ _ _ => true
  | .cmpLo _ _ _ => true
  | .mul _ _ _ => true
  | .mulhs _ _ _ => true
  | .mulhu _ _ _ => true
  | .divS _ _ _ => true
  | .divU _ _ _ => true
  | .modS _ _ _ => true
  | .modU _ _ _ => true
  | .cy _ _ _ => true
  | .bw _ _ _ => true
  | .addi _ _ _ => true
  | .andi _ _ _ => true
  | .ori _ _ _ => true
  | .xori _ _ _ => true
  | .cmpiLt _ _ _ => true
  | .cmpiLo _ _ _ => true
  | .shli _ _ _ => true
  | .shri _ _ _ => true
  | .sari _ _ _ => true
  | .ldhi _ _ => true
  | .ldW _ _ _ => true
  | .ldHs _ _ _ => true
  | .ldHz _ _ _ => true
  | .ldBs _ _ _ => true
  | .ldBz _ _ _ => true
  | .stW _ _ _ => true
  | .stH _ _ _ => true
  | .stB _ _ _ => true
  | .wait_ => true
  | .mfs _ _ => true
  | .mts _ _ => true
  | .repI _ => true
  | .repU _ => true
  | .ret => true
  | .rfe => true
  | .syscall => true
  | .break_ => true
  | .brEq _ _ _ => true
  | .brNe _ _ _ => true
  | .brLt _ _ _ => true
  | .brGe _ _ _ => true
  | .brBl _ _ _ => true
  | .brNb _ _ _ => true
  | .briEq _ _ _ => true
  | .briNe _ _ _ => true
  | .briLt _ _ _ => true
  | .briGe _ _ _ => true
  | .briBl _ _ _ => true
  | .briNb _ _ _ => true
  | .j _ => true
  | .call _ => true
  | .jmpR _ => true
  | .callR _ => true
  | .seGo n => decide (n < 2)
  | .seAbort n => decide (n < 2)
  | .seBusclr n => decide (n < 2)
  | .seDataWrite n _ => decide (n < 2)
  | .seDataRead n => decide (n < 2)
  | .seConfigWrite n _ _ => decide (n < 2)
  | .seTransferEnd n r => decide (n < 2 ∧ r.err ≤ 3)
  | .seI2cTimeout n => decide (n < 2)
  | .seUartRxByte n _ _ => decide (n < 2)
  | .seUartTxByte n => decide (n < 2)
  | .adcStart _ => true
  | .adcSettled => true
  | .adcConversionEnd _ _ => true
  | .adcDataRead => true
  | .tmrSync _ => true
  | .timerMatch n => decide (n < 4)
  | .timerWrap n => decide (n < 4)
  | .timerCapture n _ count => decide (n < 4 ∧ count < 2 ^ 32)
  | .wdgStart _ => true
  | .wdgFeed _ => true
  | .wdgReload => true
  | .wdgWarn => true
  | .wdtExpire => true
  | .debugPortAccess _ => true
  | .registerWrite _ _ _ => true
  | .mtimeRateHandover => true
  | .networkScheduledSleep _ => true
  | .eraseSuspended plane => decide (plane < 2)
  | .portFrameError => true
  | .sWtxAnswer wtxm => decide (1 ≤ wtxm ∧ wtxm ≤ 59)
  | .chainedBlock _ _ => true
  | .illegalEncoding _ => true
  | .ctsChange n _ => decide (n < 2)
  | .vioLoss => true
  | .vioReturn => true
  | .vbkupLoss => true

end Sys2Proof
end

