-- ==== Sys2Proof/Tests/Slice0.lean ====
section
/-! SUPPORT. Tests: for each obligation with hypotheses, states and operands that meet them; ill-formed commands that WellFormed refuses; and small
tests of single steps, their results computed by hand from the spec. -/

set_option Elab.async false
set_option linter.all false

namespace Sys2Proof.Tests

open Sys2Proof.Machine

/-! ### States to start from -/

/-- A device that has come up: the firmware and the application run in mode LEAF, the core at the start of the application
RAM, the command key in slot 1. -/
def base : State :=
  { State.reset with
    boot := { State.reset.boot with stage := .up, released := true },
    mbx := { State.reset.mbx with netrdy := true },
    clk := { State.reset.clk with xordy := true, lfxrdy := true },
    pwr := { State.reset.pwr with mode := .leaf },
    cipher := { State.reset.cipher with slot := [(1, { KeySlot.empty with type := 1, state := 1, key := (List.range 16).map (BitVec.ofNat 8) })] },
    core := { State.reset.core with run := .running, pc := 0x20000000#32, vbase := 0x200000#24 } }

/-- Channel `n` is in state `x`. -/
def inChan (n : Nat) (x : ChanState) (s : State) : State := updMbx (fun m => { m with chan := m.chan.set n x }) s

/-- Every channel belongs to the external host. -/
def hostOwned (s : State) : State := updMbx (fun m => { m with own := 0xFF }) s

/-- The words of `l` lie in RAM from `a`. -/
def holding (a : Nat) (l : List Byte) (s : State) : State := { s with mem := wrTab s.mem a l }

/-- A request: opcode, FLAGS, command counter and payload; AUTH adds the trailer `tr`. -/
def request (op flags ctr : Nat) (p tr : List Byte) : List Byte :=
  le 2 op ++ le 2 7 ++ le 2 p.length ++ le 2 flags ++ le 4 ctr ++ le 4 0 ++ p ++ tr

/-- A request without a trailer stands on channel `n`, which has been rung. -/
def asking (n op : Nat) (p : List Byte) (s : State) : State := holding (reqBuf n) (request op 0 0 p []) (inChan n .busy s)

/-- A request with its trailer under the command key stands on channel `n`, its command counter 1. -/
def asserting (n op : Nat) (p : List Byte) (s : State) : State :=
  holding (reqBuf n) (request op 1 1 p (trailer (commandKey s) (le 2 op ++ le 2 7 ++ le 2 p.length ++ le 2 1 ++ le 4 1 ++ le 4 0) p)) (inChan n .busy s)

/-- A request with any FLAGS and command counter, and eight zero octets for a trailer where AUTH is set. -/
def askingWith (op flags ctr : Nat) (p : List Byte) (s : State) : State :=
  holding (reqBuf 1) (request op flags ctr p (if flags = 1 then List.replicate 8 0 else [])) (inChan 1 .busy s)

/-- A device that holds no command key. -/
def keyless : State := { base with cipher := State.reset.cipher }

/-- Shot buffer `n` is OPENED by the application with the entries `es`. -/
def opened (n : Nat) (es : List Entry) (s : State) : State :=
  updShot n (fun _ => { Shot.reset with state := .opened, owner := some .app, entries := es }) s

/-- A transmission of `w`. -/
def sending (w : TxWho) : TxReq :=
  { who := w, timed := none, tune := 0, carrier := 0, power := none, ant := 0, us := 1000, ar := false, ret := 0, resv := none, lbt := 0 }

/-- The test transmission is on air. -/
def onAirNow (s : State) : State := updRadio (fun r => { r with onAir := some (sending .test) }) s

/-- The tally lets transmissions outside its bands go. -/
def outsideOk (s : State) : State := updTally (fun x => { x with outside := 1, ready := true }) s

/-- Neighbour `n` is ACTIVE. -/
def withNbr (n : Nat) (s : State) : State := updNbr n (fun e => { e with state := .active }) s

/-- A device without a short address, its broadcast profile in use. -/
def unassignedOwn (s : State) : State :=
  updLanes (fun l => { l with profile := l.profile.set 0 { Profile.reset with phy := 1 } }) (updLink (fun l => { l with cfg := { l.cfg with ownShort := unassigned } }) s)

/-- Key slot `k` holds a key that every use is allowed. -/
def withKey (k : Nat) (s : State) : State :=
  updCipher (fun c => { c with slot := tset KeySlot.empty k { type := 1, state := 1, origin := 2, allowed := 0x3F, usage := 0x3F, key := (List.range 16).map (BitVec.ofNat 8) } c.slot }) s

/-- The application stages an image of 1,024 octets, which stands in state `x`. -/
def staging (x : StageState) (s : State) : State := updUpd (fun u => { u with state := x, owner := some .app, size := 1024 }) s

/-- A survey of the units `us`. -/
def surveyOf (us : List Nat) (consistent captured : Bool) : SurveyRun :=
  { id := 0, units := us, records := us.length, index := 0, part := 0, consistent := consistent, bound := 0, captured := captured, mtime := 0, rest := [],
    bodies := [], status := 0, detail := 0, req := .app }

/-- The survey runs. -/
def surveying (us : List Nat) (consistent captured : Bool) (s : State) : State := updMbx (fun m => { m with survey := some (surveyOf us consistent captured) }) s

/-- Shot `n` is as given. -/
def withShot (n : Nat) (b : Shot) (s : State) : State := updShot n (fun _ => b) s

/-- The radio holds this transmission back. -/
def holdingTx (q : TxReq) (s : State) : State := updRadio (fun r => { r with held := some q }) s

/-- This transmission is on air. -/
def onAir (q : TxReq) (s : State) : State := updRadio (fun r => { r with onAir := some q }) s

/-- The radio receives. -/
def hearing (s : State) : State := updRadio (fun r => { r with state := .rx }) s

/-- The device is another variant. -/
def ofVariant (v : Variant) (s : State) : State := { s with dev := { s.dev with variant := v } }

/-- A frame that a lane receives. -/
def laneFrame : LaneFrame :=
  { stamp := 0, path := 0, switched := false, len := none, coded := false, white := false, mcs := 0, weak := 0, eqReset := false }

/-- Lane 0 with the PHY `phy` receives the frame `f`. -/
def receiving (phy : Nat) (f : LaneFrame) (s : State) : State := updLane 0 (fun l => { l with cfg := { l.cfg with phy := phy }, frame := some f }) s

/-- What the air brought for a PSDU. -/
def laneRes (psdu : List Byte) : LaneRes := { psdu := psdu, rssi := -100, snr := 0, freqOff := 0, slope := 0, eqEnergy := 0, trackErr := 0 }

/-- Nine octets and their FCS. -/
def goodPsdu : List Byte := List.replicate 9 0 ++ le 4 (crc32 (List.replicate 9 0))

/-- A device whose canary listens. -/
def canaryDevice (p : CanaryPhase) : State :=
  updCanary (fun c => { c with phase := p, cfg := { c.cfg with enable := 1, matchBits := 15, threshold := 0, slots := [868000000, 0, 0, 0] } })
    (updLink (fun l => { l with cfg := { l.cfg with ownShort := 5 } }) (updPwr (fun w => { w with mode := .watch }) base))

/-- A listed command. -/
def cmdAt (op : Nat) : Cmd := (cmdOf op).getD ((cmdOf 0x0100).get rfl)

/-- A general register of the core holds `v`. -/
def withU (n : Nat) (v : Word) (s : State) : State := updCore (fun c => { c with u := c.u.set n v }) s

theorem field_of_held (a o k : Nat) (l : List Byte) (s : State) (hm : MemWf s) (h : o + k ≤ l.length) (hl : l.length ≤ 256) :
    slice (rdBytes (holding a l s) a 256) o k = slice l o k := by
  have h1 : rdBytes (holding a l s) a l.length = l :=
    rdBytes_of_rdMem _ _ _ (fun k hk => tget_wrTab_inside _ _ _ hm hk)
  have h2 := rdBytes_take (holding a l s) a 256 l.length hl
  rw [h1] at h2
  have h3 := (rdBytes (holding a l s) a 256).take_append_drop l.length
  rw [← h2] at h3
  rw [← h3, slice_append_left _ _ _ _ h]

theorem request_fields (op flags ctr : Nat) (p tr : List Byte) :
    u16 (request op flags ctr p tr) 0 = op % 65536 ∧ u16 (request op flags ctr p tr) 4 = p.length % 65536 ∧
    u16 (request op flags ctr p tr) 6 = flags % 65536 ∧ u32 (request op flags ctr p tr) 8 = ctr % 2 ^ 32 ∧
    slice (request op flags ctr p tr) 16 p.length = p := by
  refine ⟨?_, ?_, ?_, ?_, ?_⟩ <;> simp [request, u16, u32, slice, le, unle] <;> omega

theorem length_request (op flags ctr : Nat) (p tr : List Byte) : (request op flags ctr p tr).length = 16 + p.length + tr.length := by
  simp [request, length_le]; omega

/-- The request stands, once the device serves the channel. -/
theorem stands_asking (n op : Nat) (p : List Byte) (s : State) (hs : firmwareServes s = true ∧ s.boot.stage ≠ .loader)
    (hn : nextServed (inChan n .busy s) = some n) (hp : p.length ≤ 240) (ho : op < 65536) (h0 : n ≠ 0) (hm : MemWf s) :
    Stands op ⟨n, none, none⟩ p (asking n op p s) := by
  obtain ⟨r1, r2, r3, r4, r5⟩ := request_fields op 0 0 p []
  have hl := length_request op 0 0 p []
  have hf : ∀ o k, o + k ≤ 16 + p.length → slice (requestOf (asking n op p s) n) o k = slice (request op 0 0 p []) o k := fun o k h =>
    field_of_held (reqBuf n) o k (request op 0 0 p []) (inChan n .busy s) hm (by simp at hl; omega) (by simp at hl; omega)
  exact {
    serves := hs.1, firmware := hs.2, next := hn, group := fun h => absurd h h0
    opcode := by show u16 (requestOf (asking n op p s) n) 0 = op; rw [u16, hf _ _ (by omega)]; exact r1.trans (by omega)
    length := by show u16 (requestOf (asking n op p s) n) 4 = _; rw [u16, hf _ _ (by omega)]; exact r2.trans (by omega)
    flags := by show u16 (requestOf (asking n op p s) n) 6 = 0; rw [u16, hf _ _ (by omega)]; exact r3
    payload := by show slice (requestOf (asking n op p s) n) _ _ = p; rw [hf _ _ (by omega)]; exact r5 }

/-- The fields of a request with its trailer, as the firmware reads them. -/
theorem asserting_fields (n op : Nat) (p : List Byte) (s : State) (hp : p.length ≤ 232) (ho : op < 65536) (hm : MemWf s)
    (h8 : (trailer (commandKey s) (le 2 op ++ le 2 7 ++ le 2 p.length ++ le 2 1 ++ le 4 1 ++ le 4 0) p).length = 8) :
    u16 (requestOf (asserting n op p s) n) 0 = op ∧ u16 (requestOf (asserting n op p s) n) 4 = p.length ∧
    u16 (requestOf (asserting n op p s) n) 6 = 1 ∧ u32 (requestOf (asserting n op p s) n) 8 = 1 ∧
    slice (requestOf (asserting n op p s) n) 16 p.length = p ∧ trailerOk (asserting n op p s) (requestOf (asserting n op p s) n) = true := by
  generalize ht : trailer (commandKey s) (le 2 op ++ le 2 7 ++ le 2 p.length ++ le 2 1 ++ le 4 1 ++ le 4 0) p = tr at h8
  obtain ⟨r1, r2, r3, r4, r5⟩ := request_fields op 1 1 p tr
  have hl := length_request op 1 1 p tr
  have ha : asserting n op p s = holding (reqBuf n) (request op 1 1 p tr) (inChan n .busy s) := by subst ht; rfl
  have hf : ∀ o k, o + k ≤ 16 + p.length + tr.length → slice (requestOf (asserting n op p s) n) o k = slice (request op 1 1 p tr) o k := fun o k h => by
    rw [ha]; exact field_of_held (reqBuf n) o k (request op 1 1 p tr) (inChan n .busy s) hm (by omega) (by omega)
  have h4 : u16 (requestOf (asserting n op p s) n) 4 = p.length := by rw [u16, hf _ _ (by omega)]; exact r2.trans (by omega)
  refine ⟨?_, h4, ?_, ?_, ?_, ?_⟩
  · rw [u16, hf _ _ (by omega)]; exact r1.trans (by omega)
  · rw [u16, hf _ _ (by omega)]; exact r3
  · rw [u32, hf _ _ (by omega)]; exact r4
  · rw [hf _ _ (by omega)]; exact r5
  · have e1 : slice (request op 1 1 p tr) 0 12 ++ List.replicate 4 0 = le 2 op ++ le 2 7 ++ le 2 p.length ++ le 2 1 ++ le 4 1 ++ le 4 0 := by
      simp [request, slice, le]
    have e2 : slice (request op 1 1 p tr) (16 + p.length) 8 = tr := by
      unfold request
      rw [slice_append_right _ _ _ _ (by simp [length_le]; omega),
        show 16 + p.length - (le 2 op ++ le 2 7 ++ le 2 p.length ++ le 2 1 ++ le 4 1 ++ le 4 0 ++ p).length = 0 by simp [length_le]; omega,
        slice_self _ _ h8.symm]
    simp only [trailerOk, h4, hf 0 12 (by omega), hf (16 + p.length) 8 (by omega), hf 16 p.length (by omega), e1, e2, r5]
    rw [← ht]; exact beq_self_eq_true _

/-- The request with its trailer stands, once the device serves the channel. -/
theorem standsAuth_asserting (n op : Nat) (p : List Byte) (s : State) (hs : firmwareServes s = true ∧ s.boot.stage ≠ .loader)
    (hn : nextServed (inChan n .busy s) = some n) (hp : p.length ≤ 232) (ho : op < 65536) (h0 : n ≠ 0) (hm : MemWf s)
    (hu : s.cipher.halt = false ∧ pget s.mbx.lockout (chanOwner s n) = 0 ∧ pget s.mbx.counter (chanOwner s n) = 0)
    (h8 : (trailer (commandKey s) (le 2 op ++ le 2 7 ++ le 2 p.length ++ le 2 1 ++ le 4 1 ++ le 4 0) p).length = 8) :
    StandsAuth op ⟨n, none, none⟩ p (asserting n op p s) := by
  obtain ⟨f1, f2, f3, f4, f5, f6⟩ := asserting_fields n op p s hp ho hm h8
  exact {
    serves := hs.1, firmware := hs.2, next := hn, group := fun h => absurd h h0, engine := hu.1, unlocked := hu.2.1, stored := rfl
    opcode := f1, length := f2, flags := f3, payload := f5, trailer := f6
    counter := by
      show pget s.mbx.counter (chanOwner s n) < u32 (requestOf (asserting n op p s) n) 8
      rw [f4, hu.2.2]; exact Nat.one_pos }

/-- The same on the device that has come up, channel 1 asking. -/
theorem stands_base (op : Nat) (p : List Byte) (h : p.length ≤ 240 ∧ op < 65536) : Stands op ⟨1, none, none⟩ p (asking 1 op p base) :=
  stands_asking 1 op p base (by decide) (by decide) h.1 h.2 (by decide) (by decide)


/-- A PSDU of type `type` from source 7 to address 5 in network `net`, `fc` its other control bits. -/
def psduOf (fc net : Nat) (rest : List Byte) : List Byte := le 2 fc ++ le 2 (4096 * net + 1) ++ le 4 5 ++ le 4 7 ++ rest ++ le 4 0

/-- A frame that a lane has delivered, in phase `p`. -/
def rxFrame (p : RxPhase) (psdu : List Byte) : RxFrame :=
  { id := 0, lane := 0, psdu := psdu, quality := ⟨0, 0, 0, 0, 0, 0, 0, 0, 0, 0, 0, 0, 16⟩, cells := [], phase := p, ack := .none, nbr := none,
    mic := none, dup := false, long := false, pend := false, tcorr := 0, mcs := 0, window := none }

/-- The link controller examines the frame. -/
def examining (x : RxFrame) (s : State) : State := updLink (fun l => { l with rx := [x] }) s

/-- The header of a PSDU, as the link controller parses it. -/
def headOf (psdu : List Byte) : Rxf :=
  (parseFrame psdu).getD ⟨0, false, false, false, false, false, 0, false, false, 0, 0, [], [], 0, 0, 0, 0, 0, [], [], []⟩

/-- A flight. -/
def aFlight (p : FlightPhase) : Flight :=
  { id := 0, kind := .keepalive, phase := p, nbr := none, cells := [], head := [], body := [], keySlot := none, counter := none, key := [], psdu := [],
    seq := 0, ar := false, timed := false, ret := 0, profile := 0, tune := 0, attempts := 0, begun := false, windowed := false, rdv := none, flow := none }

/-- The flight is on its way. -/
def flying (f : Flight) (s : State) : State := updLink (fun l => { l with flight := [f] }) s

/-- A join in progress. -/
def aJoin : Join := { slot := 0, token := 1, left := 2, intervalMs := 1000, nextAt := 0, endAt := 0, role := 0, data := [] }

/-- The device joins. -/
def joining : State := updLink (fun l => { l with join := some aJoin }) base

/-- What one of these makes of a state, where it makes something. -/
def made (x : Option State) : State := x.getD State.reset

/-- Flow 0 has released a packet of these bytes. -/
def releasedOf (bytes : List Byte) : Released := { flow := 0, queue := 0, rdv := false, packet := { cells := [], bytes := bytes, ue := false } }

/-- The packet waits for the link controller. -/
def releasedState (bytes : List Byte) (s : State) : State := updLink (fun l => { l with released := [releasedOf bytes] }) s

/-- The device has its own schedule, one window a second. -/
def scheduled (s : State) : State := updTiming (fun t => { t with cfg := { t.cfg with ownPeriod := 1000 } }) s

/-- An own window around MTIME 0. -/
def aWindow : OwnWindow := ⟨0, 0, 100, false⟩

/-- Neighbour 0 is a child with a rendezvous 132 units of 256 ticks after the start of each second. -/
def withChild (s : State) : State :=
  updNbr 0 (fun e => { e with state := .active, flags := 6, rdvPeriod := 1000, rdvOffset := 132 }) s

/-- The device tries to resynchronise with neighbour 0. -/
def resyncing (r : Resync) : State := updTiming (fun t => { t with resync := [r] }) base
/-- Queue 0 holds one packet of these bytes. -/
def queued (bytes : List Byte) (s : State) : State := updQueue 0 (fun x => { x with packets := [{ cells := [], bytes := bytes, ue := false }] }) s

/-- A transmission under reservation 0 of band 0, one listen left over. -/
def listening : TxReq := { sending (.frame 0) with resv := some 0, lbt := 2 }

/-- The radio listens for it before talking. -/
def listenState (phase : Nat) (s : State) : State :=
  updTally (fun t => { t with resv := [⟨0, 0, 0, false, none⟩] }) (updBand 0 (fun b => { b with cfg := { b.cfg with lbt := 1, lbtThreshold := -100 } })
    (updRadio (fun r => { r with held := some listening, lbtPhase := phase, state := .rx }) s))

/-- The cipher engine works on this. -/
def working_ (j : CipherJob) (s : State) : State := updCipher (fun c => { c with job := some j }) s

/-- A request for verification, its digest zero, its public key the base point and its signature the base point's abscissa twice. -/
def sigReq : List Byte :=
  List.replicate 32 0 ++ (be 32 p256G.1 ++ be 32 p256G.2) ++ (be 32 p256G.1 ++ be 32 p256G.1)

/-- The device goes to sleep. -/
def sleeping (p : PwrPhase) (d : Depth) (s : State) : State := updPwr (fun x => { x with phase := p, seeking := d }) s
/-- An application image of 16 zero octets, signed with private key 1. -/
def anImage : List Byte :=
  le 4 0x1A425854 ++ [1, 0, 0, 1, 2, 7] ++ List.replicate 10 0 ++ le 4 16 ++ List.replicate 8 0 ++
    be 32 0x374708fff7719dd5979ec875d56cd2286f6d3cf7ec317a3b25632aab28ec37bb ++ be 32 p256G.1 ++ be 32 p256G.2 ++
    be 32 p256G.1 ++ be 32 0x2d0f2ca4be71077f3f9b8e06224bdf0ab81e69e99a3a57cc203fe6d67c6ee4bd ++ List.replicate 60 0 ++ [0xD4, 0x31, 0x35, 0x2E] ++
    List.replicate 16 0

/-- A device whose application region is one block and which trusts the image's signer. -/
def trusting (s : State) : State :=
  let keys (t : Tab Byte) : Tab Byte := wrTab (wrTab t 0x010 (le 2 4)) 0x020 (be 32 0xd875db7def232236aec738c6b0bb3e80142f5d0fd8f4df24fed6eef5cbb50d9f)
  updBoot (fun b => { b with opt := { b.opt with bytes := keys b.opt.bytes } }) s

theorem image_ok_here : imageCheck (trusting base) 16 anImage = 0 := by decide +kernel

/-- The image passes its checks on any device with those options. -/
theorem image_ok (s : State) (l : Nat) (ho : s.boot.opt = (trusting base).boot.opt) (hv : s.dev.variant = (trusting base).dev.variant) (hl : 16 ≤ l) :
    imageCheck s l anImage = 0 := by
  have hn : u32 (slice anImage 0 256) 20 = 16 := by decide
  have ha : appKib s = appKib (trusting base) := by simp only [appKib, optU16, optByte, ho]
  refine Eq.trans ?_ image_ok_here
  simp only [imageCheck, regionRoom, ha, ho, hv, hn]
  simp only [Nat.not_lt.mpr hl, Nat.lt_irrefl]

/-- The image lies in the staging area. -/
def staged : State := flashStore (stageBase base) anImage (updUpd (fun u => { u with job := some (.check 2) }) (trusting base))

/-- The image lies at the start of the application region; the core runs the boot ROM. -/
def bootable : State := flashStore appBase anImage (updCore (fun c => { c with run := .rom }) base)

theorem tget_flashCells_below (r : List Byte) : ∀ a k, k < a → tget 255#8 k (flashCells a r) = 255#8 := by
  induction r with
  | nil => intro a k _; rfl
  | cons c r ih =>
    intro a k h
    rw [flashCells]
    split
    · exact ih (a + 1) k (by omega)
    · simp [tget, h]

theorem tget_flashCells (l : List Byte) : ∀ a k, k < l.length → tget 255#8 (a + k) (flashCells a l) = l.getD k 0 := by
  induction l with
  | nil => intro a k h; simp at h
  | cons b r ih =>
    intro a k h
    rw [flashCells]
    cases k with
    | zero =>
      split
      · next hb => rw [tget_flashCells_below r (a + 1) (a + 0) (by omega)]; exact hb.symm
      · simp [tget]
    | succ k =>
      have h' := ih (a + 1) k (by simpa using h)
      rw [show a + 1 + k = a + (k + 1) by omega] at h'
      split
      · exact h'
      · simpa [tget, show ¬ a + (k + 1) < a by omega] using h'

theorem flashBytes_of_flashByte (s : State) (l : List Byte) : ∀ a, (∀ k, k < l.length → flashByte s (a + k) = l.getD k 0) → flashBytes s a l.length = l := by
  induction l with
  | nil => intro a _; rfl
  | cons b r ih =>
    intro a h
    show flashByte s a :: flashBytes s (a + 1) r.length = b :: r
    rw [ih (a + 1) (fun k hk => by have := h (k + 1) (by simpa using hk); simpa [show a + 1 + k = a + (k + 1) by omega] using this),
      show flashByte s a = b from by simpa using h 0 (by simp)]

theorem flashBytes_append (s : State) (m n : Nat) : ∀ a, flashBytes s a (m + n) = flashBytes s a m ++ flashBytes s (a + m) n := by
  induction m with
  | zero => intro a; simp [flashBytes]
  | succ m ih => intro a; rw [Nat.succ_add]; simp [flashBytes, ih, Nat.add_assoc, Nat.add_comm 1 m]

theorem length_flashBytes (s : State) (n : Nat) : ∀ a, (flashBytes s a n).length = n := by
  induction n with
  | zero => intro a; rfl
  | succ n ih => intro a; simp [flashBytes, ih]

/-- A read of units without errors. -/
theorem flashRead_clean (s t : State) (a n : Nat) (sus : Bool) (h : serveRead (planeOf s (a / blk)) sus s = some t)
    (hu : ∀ u ∈ unitsOf a n, unitStatus t u = 0) : flashRead a n sus s = some (t, flashBytes t a n, 0) := by
  have h1 : ∀ l : List Nat, (∀ u ∈ l, unitStatus t u = 0) → l.foldl noteUnit t = t ∧ ∀ x, l.foldl (fun x u => x ||| unitStatus t u) x = x := by
    intro l
    induction l with
    | nil => intro _; exact ⟨rfl, fun _ => rfl⟩
    | cons u r ih =>
      intro hl
      have hr := ih (fun v hv => hl v (List.mem_cons_of_mem _ hv))
      have hz := hl u List.mem_cons_self
      refine ⟨?_, fun x => ?_⟩
      · simp only [List.foldl_cons, noteUnit, hz, if_true]; exact hr.1
      · simp only [List.foldl_cons, hz, Nat.or_zero]; exact hr.2 x
  simp only [flashRead, h, h1 _ hu]

/-- What is stored in an empty flash array reads back. -/
theorem flash_reads_back (a : Nat) (l : List Byte) (s : State) (h : s.flash.array = []) : flashBytes (flashStore a l s) a l.length = l :=
  flashBytes_of_flashByte _ l a fun k hk => by
    show tget 255#8 (a + k) (tsplice a l.length (flashCells a l) s.flash.array) = _
    rw [h]; simpa [tsplice] using tget_flashCells l a k hk

theorem length_anImage : anImage.length = 256 + 16 := by decide +kernel

theorem staged_file : stagedFile staged = anImage := by
  have h := flash_reads_back (stageBase base) anImage (updUpd (fun u => { u with job := some (.check 2) }) (trusting base)) rfl
  rw [length_anImage, flashBytes_append] at h
  change flashBytes staged (stageBase staged) 256 ++ flashBytes staged (stageBase staged + 256) 16 = anImage at h
  have h1 : flashBytes staged (stageBase staged) 256 = anImage.take 256 := by rw [← h, List.take_left' (length_flashBytes _ _ _)]
  have h2 : min (u32 (flashBytes staged (stageBase staged) 256) 20) stageRoom = 16 := by rw [h1]; decide
  simp only [stagedFile, h2, h]

theorem boot_reads : flashBytes bootable appBase 256 = anImage.take 256 := by
  have h := flash_reads_back appBase anImage (updCore (fun c => { c with run := .rom }) base) rfl
  rw [length_anImage, flashBytes_append] at h
  change flashBytes bootable appBase 256 ++ _ = anImage at h
  rw [← h, List.take_left' (length_flashBytes _ _ _)]

/-- The application image is broken and the SD card holds another. -/
def cardWaits : State := updUpd (fun u => { u with state := .invalid, broken := some 2 }) (trusting base)

theorem card_picks (s : State) (ho : s.boot.opt = (trusting base).boot.opt) (hv : s.dev.variant = (trusting base).dev.variant)
    (hi : installedHead s 2 ≠ some (slice anImage 0 256)) : cardPick s (.files 0 [anImage]) 2 = some anImage := by
  have h1 : Config.sdHost s.dev.variant = true := by rw [hv]; decide
  have h2 : (u8 anImage 8 == 2) = true := by decide
  have h3 : (!(ImgHead.of anImage).scheduledOnly) = true := by decide
  have h4 : imageCheck s (anImage.length - 256) anImage = 0 := image_ok s _ ho hv (by decide +kernel)
  have h5 : (installedHead s 2 != some (slice anImage 0 256)) = true := bne_iff_ne.mpr hi
  generalize anImage = f at *
  simp only [cardPick, cardFiles, h1, if_true, List.find?_cons, h2, h3, h4, h5, beq_self_eq_true, Bool.and_self]

/-- The field session stands here. -/
def inField (x : FState) (s : State) : State := updPort (fun p => { p with fstate := x }) s

/-- The commissioning application is selected, under this slot. -/
def commissioning (a : Option Nat) (s : State) : State := inField .protocol (updPort (fun p => { p with sel := .commissioning, auth := a }) s)

/-- A password of sixteen ones. -/
def aPassword : List Byte := List.replicate 16 1

/-- The application has the port, in this state of the lock. -/
def granted (l : Lock) (s : State) : State := updPort (fun p => { p with grant := true, lock := l }) s

/-- Serial engine 0 with CTL, in a phase. -/
def serial (ctl : BitVec 14) (x : SePhase) (s : State) : State := updSe 0 (fun e => { e with ctl := ctl, phase := x }) s

/-- Timer 3 with CTL. -/
def timing3 (ctl : BitVec 15) (s : State) : State := { s with tmr := s.tmr.set 3 { Tmr.reset with ctl := ctl, cmp := 5 } }

/-- The watchdog as given. -/
def watched (en lock feeding expired : Bool) (s : State) : State :=
  { s with wdg := { s.wdg with en := en, lock := lock, feeding := feeding, expired := expired } }

/-- The debug port is open at this level. -/
def debugging (n : Nat) (s : State) : State := updBoot (fun b => { b with debug := n }) s

/-- The stack of the core: not split, SPM at `a`. -/
def unsplit (a : Word) (s : State) : State := updCore (fun c => { c with split := false, spm := a }) s

/-- Unprivileged execution. -/
def userMode (s : State) : State := updCore (fun c => { c with mach := false }) s

/-- Vector `n` holds `v`. -/
def vectorAt (n v : Nat) (s : State) : State := holding (0x20000000 + 4 * n) (le 4 v) s

/-- Unprivileged execution under one region over all addresses, with these permissions. -/
def caged (perm : BitVec 6) (s : State) : State := updCore (fun c => { c with mach := false, mpuCtl := 1, mpu := [⟨true, 31, 0, perm⟩] }) s

/-- The hardware stack holds these entries. -/
def stacked (l : List HwEntry) (s : State) : State := updCore (fun c => { c with hw := l }) s

/-! ### What each obligation asks of its states can be met -/

/-- What `Obligations.EveryStepCompletes` asks is met. -/
theorem test_EveryStepCompletes :
    (∃ (s : State), s.pending = []) := by
  exact ⟨base, by decide⟩

/-- What `Obligations.StepKeepsMemWf` asks is met. -/
theorem test_StepKeepsMemWf :
    (∃ (s : State) (t : State), MemWf s ∧ step s = .next t) := by
  exact ⟨base, idle base, ⟨by decide, rfl⟩⟩

/-- What `Obligations.ChannelStates` asks is met. -/
theorem test_ChannelStates :
    (∃ (who : Who) (n : Nat) (s : State), n < 6 ∧ mayAccess s who = true ∧ chanOwner s n = whoReq who ∧ at_ .idle s.mbx.chan n = .idle) ∧
    (∃ (who : Who) (n : Nat) (s : State), n < 6 ∧ mayAccess s who = true ∧ chanOwner s n = whoReq who ∧ at_ .idle s.mbx.chan n ≠ .idle) ∧
    (∃ (who : Who) (n : Nat) (s : State), n < 6 ∧ mayAccess s who = true ∧ chanOwner s n ≠ whoReq who) ∧
    (∃ (who : Who) (n : Nat) (s : State), n < 8 ∧ mayAccess s who = true ∧ chanOwner s n = whoReq who ∧ at_ .idle s.mbx.chan n = .done ∧ s.pwr.hostWait = none) ∧
    (∃ (who : Who) (n : Nat) (s : State), n < 8 ∧ mayAccess s who = true ∧ chanOwner s n ≠ whoReq who) ∧
    (∃ (who : Who) (n : Nat) (s : State), n < 8 ∧ mayAccess s who = true ∧ chanOwner s n = whoReq who ∧ at_ .idle s.mbx.chan n ≠ .done) ∧
    (∃ (n : Nat) (s : State), n < s.mbx.chan.length) := by
  exact ⟨⟨.app, 5, base, by decide⟩,
    ⟨.app, 5, inChan 5 .done base, by decide⟩,
    ⟨.host, 5, base, by decide⟩,
    ⟨.host, 7, inChan 7 .done base, by decide⟩,
    ⟨.app, 7, base, by decide⟩,
    ⟨.app, 6, inChan 6 .busy base, by decide⟩,
    ⟨7, base, by decide⟩⟩

/-- What `Obligations.BusyRequestStands` asks is met. -/
theorem test_BusyRequestStands :
    (∃ (n : Nat) (o : Nat) (z : Size) (s : State), n < 8 ∧ o < 0x100 ∧ o % sizeBytes z = 0 ∧ mayAccess s .app = true ∧ at_ .idle s.mbx.chan n = .busy) ∧
    (∃ (n : Nat) (i : Nat) (s : State), n < 8 ∧ i < 64 ∧ mayAccess s .host = true ∧ chanOwner s n = .host ∧ at_ .idle s.mbx.chan n = .busy) ∧
    (∃ (n : Nat) (i : Nat) (s : State), n < 6 ∧ i < 64 ∧ mayAccess s .host = true ∧ s.hostp.cs = false ∧ chanOwner s n = .host ∧ at_ .idle s.mbx.chan n = .busy) ∧
    (∃ (ra : Reg) (imm : BitVec 17) (n o : Nat) (s : State), Plain s ∧ n < 8 ∧ o < 0x100 ∧ at_ .idle s.mbx.chan n = .busy ∧ (greg s ra + imm.signExtend 32).toNat = reqBuf n + o ∧ mpuAllows s.core s.core.mach 1 (greg s ra + imm.signExtend 32).toNat = true) ∧
    (∃ (i : Srv → Instr) (op : Nat) (core : CoreFn) (v : Srv) (s : State), (∀ v s, exec (i v) s = .next (serve op core v s)) ∧ at_ .idle s.mbx.chan v.ch ≠ .busy) ∧
    (∃ (n : Nat) (s : State), at_ .idle s.mbx.chan n = .done) := by
  exact ⟨⟨7, 0xFF, .b, inChan 7 .busy base, by decide⟩,
    ⟨6, 63, inChan 6 .busy (hostOwned base), by decide⟩,
    ⟨5, 63, inChan 5 .busy (hostOwned base), by decide⟩,
    ⟨1, 0xFF, 7, 0xFF, withU 1 (BitVec.ofNat 32 (reqBuf 7)) (inChan 7 .busy base), ⟨by decide, by decide, by decide, by decide⟩, by decide⟩,
    ⟨.sysInfo, 0x0100, sysInfo, ⟨1, none, none⟩, base, ⟨fun _ _ => rfl, by decide⟩⟩,
    ⟨7, inChan 7 .done base, by decide⟩⟩

/-- What `Obligations.RequestChecks` asks is met. -/
theorem test_RequestChecks :
    let served (i : Srv → Instr) (op : Nat) (core : CoreFn) : Prop := ∀ v s, exec (i v) s = .next (serve op core v s)
    let rung (v : Srv) (s : State) : Prop := firmwareServes s = true ∧ nextServed s = some v.ch
    let framed (op : Nat) (c : Cmd) (v : Srv) (s : State) : Prop :=
      u16 (requestOf s v.ch) 0 = op ∧ cmdOf op = some c ∧ (v.ch = 0 → bits op 8 8 = 1)
    let fits (c : Cmd) (v : Srv) (s : State) : Prop :=
      c.len.ok (u16 (requestOf s v.ch) 4) (slice (requestOf s v.ch) 16 (u16 (requestOf s v.ch) 4)) = true ∧
        u16 (requestOf s v.ch) 4 ≤ (if u16 (requestOf s v.ch) 6 = 1 then 232 else 240)
    (∃ (i : Srv → Instr) (op : Nat) (core : CoreFn) (v : Srv) (s : State), served i op core ∧ (firmwareServes s = false ∨ nextServed s ≠ some v.ch)) ∧
    (∃ (i : Srv → Instr) (op : Nat) (core : CoreFn) (v : Srv) (s : State), served i op core ∧ rung v s ∧ cmdOf (u16 (requestOf s v.ch) 0) = none) ∧
    (∃ (i : Srv → Instr) (op : Nat) (core : CoreFn) (c : Cmd) (v : Srv) (s : State), served i op core ∧ rung v s ∧ u16 (requestOf s v.ch) 0 = op ∧ cmdOf op = some c ∧ v.ch = 0 ∧ bits op 8 8 ≠ 1) ∧
    (∃ (i : Srv → Instr) (op : Nat) (core : CoreFn) (c : Cmd) (v : Srv) (s : State), served i op core ∧ rung v s ∧ framed op c v s ∧ 1 < u16 (requestOf s v.ch) 6) ∧
    (∃ (i : Srv → Instr) (op : Nat) (core : CoreFn) (c : Cmd) (v : Srv) (s : State), served i op core ∧ rung v s ∧ framed op c v s ∧ u16 (requestOf s v.ch) 6 ≤ 1 ∧ ¬ fits c v s) ∧
    (∃ (i : Srv → Instr) (op : Nat) (core : CoreFn) (c : Cmd) (v : Srv) (s : State), served i op core ∧ rung v s ∧ framed op c v s ∧ u16 (requestOf s v.ch) 6 = 0 ∧ fits c v s ∧ c.critical = true) ∧
    (∃ (i : Srv → Instr) (op : Nat) (core : CoreFn) (c : Cmd) (v : Srv) (s : State), served i op core ∧ rung v s ∧ framed op c v s ∧ u16 (requestOf s v.ch) 6 = 1 ∧ fits c v s ∧ s.cipher.halt = false ∧ 0 < pget s.mbx.lockout (chanOwner s v.ch)) ∧
    (∃ (i : Srv → Instr) (op : Nat) (core : CoreFn) (c : Cmd) (v : Srv) (s : State), served i op core ∧ rung v s ∧ framed op c v s ∧ u16 (requestOf s v.ch) 6 = 1 ∧ fits c v s ∧ s.cipher.halt = false ∧ pget s.mbx.lockout (chanOwner s v.ch) = 0 ∧ trailerOk s (requestOf s v.ch) = false ∧ pget s.mbx.fails (chanOwner s v.ch) < 7) ∧
    (∃ (i : Srv → Instr) (op : Nat) (core : CoreFn) (c : Cmd) (v : Srv) (s : State), served i op core ∧ rung v s ∧ framed op c v s ∧ u16 (requestOf s v.ch) 6 = 1 ∧ fits c v s ∧ s.cipher.halt = false ∧ pget s.mbx.lockout (chanOwner s v.ch) = 0 ∧ trailerOk s (requestOf s v.ch) = false ∧ pget s.mbx.fails (chanOwner s v.ch) = 7) ∧
    (∃ (i : Srv → Instr) (op : Nat) (core : CoreFn) (c : Cmd) (v : Srv) (s : State), served i op core ∧ rung v s ∧ framed op c v s ∧ u16 (requestOf s v.ch) 6 = 1 ∧ fits c v s ∧ s.cipher.halt = false ∧ pget s.mbx.lockout (chanOwner s v.ch) = 0 ∧ trailerOk s (requestOf s v.ch) = true ∧ u32 (requestOf s v.ch) 8 ≤ pget s.mbx.counter (chanOwner s v.ch)) ∧
    (∃ (i : Srv → Instr) (op : Nat) (core : CoreFn) (c : Cmd) (b : Nat) (v : Srv) (s : State), served i op core ∧ rung v s ∧ framed op c v s ∧ u16 (requestOf s v.ch) 6 = 1 ∧ fits c v s ∧ s.cipher.halt = false ∧ pget s.mbx.lockout (chanOwner s v.ch) = 0 ∧ trailerOk s (requestOf s v.ch) = true ∧ pget s.mbx.counter (chanOwner s v.ch) < u32 (requestOf s v.ch) 8 ∧ v.ctrFail = some b) ∧
    (∃ (i : Srv → Instr) (op : Nat) (core : CoreFn) (c : Cmd) (v : Srv) (s : State), served i op core ∧ rung v s ∧ framed op c v s ∧ u16 (requestOf s v.ch) 6 = 0 ∧ fits c v s ∧ c.critical = false ∧ s.boot.stage = .loader ∧ loaderServes op = false) := by
  dsimp only
  exact ⟨⟨.sysInfo, 0x0100, sysInfo, ⟨1, none, none⟩, base, ⟨fun _ _ => rfl, by decide⟩⟩,
    ⟨.sysInfo, 0x0100, sysInfo, ⟨1, none, none⟩, asking 1 0x7777 [] base, ⟨fun _ _ => rfl, by decide, by decide +kernel⟩⟩,
    ⟨.radioTuneGet, 0x0202, radioTuneGet, cmdAt 0x0202, ⟨0, none, none⟩, asking 0 0x0202 [] base, ⟨fun _ _ => rfl, by decide, by decide +kernel, rfl, rfl, by decide⟩⟩,
    ⟨.sysInfo, 0x0100, sysInfo, cmdAt 0x0100, ⟨1, none, none⟩, askingWith 0x0100 2 0 [] base, ⟨fun _ _ => rfl, by decide, ⟨by decide +kernel, rfl, by decide⟩, by decide +kernel⟩⟩,
    ⟨.sysInfo, 0x0100, sysInfo, cmdAt 0x0100, ⟨1, none, none⟩, askingWith 0x0100 0 0 [0] base, ⟨fun _ _ => rfl, by decide, ⟨by decide +kernel, rfl, by decide⟩, by decide +kernel⟩⟩,
    ⟨.modeLock, 0x0112, modeLock, cmdAt 0x0112, ⟨1, none, none⟩, askingWith 0x0112 0 0 [63, 0, 0, 0] base, ⟨fun _ _ => rfl, by decide, ⟨by decide +kernel, rfl, by decide⟩, by decide +kernel, by decide +kernel, rfl⟩⟩,
    ⟨.modeLock, 0x0112, modeLock, cmdAt 0x0112, ⟨1, none, none⟩, askingWith 0x0112 1 1 [63, 0, 0, 0] (updMbx (fun m => { m with lockout := ⟨1, 0, 0⟩ }) base), ⟨fun _ _ => rfl, by decide, ⟨by decide +kernel, rfl, by decide⟩, by decide +kernel, by decide +kernel, by decide, by decide⟩⟩,
    ⟨.modeLock, 0x0112, modeLock, cmdAt 0x0112, ⟨1, none, none⟩, askingWith 0x0112 1 1 [63, 0, 0, 0] (updMbx (fun m => { m with fails := ⟨6, 0, 0⟩ }) keyless), ⟨fun _ _ => rfl, by decide, ⟨by decide +kernel, rfl, by decide⟩, by decide +kernel, by decide +kernel, by decide, by decide, by decide +kernel, by decide⟩⟩,
    ⟨.modeLock, 0x0112, modeLock, cmdAt 0x0112, ⟨1, none, none⟩, askingWith 0x0112 1 1 [63, 0, 0, 0] (updMbx (fun m => { m with fails := ⟨7, 0, 0⟩ }) keyless), ⟨fun _ _ => rfl, by decide, ⟨by decide +kernel, rfl, by decide⟩, by decide +kernel, by decide +kernel, by decide, by decide, by decide +kernel, by decide⟩⟩,
    ⟨.modeLock, 0x0112, modeLock, cmdAt 0x0112, ⟨1, none, none⟩, asserting 1 0x0112 [63, 0, 0, 0] (updMbx (fun m => { m with counter := ⟨1, 0, 0⟩ }) base), have f := (asserting_fields 1 0x0112 [63, 0, 0, 0] (updMbx (fun m => { m with counter := ⟨1, 0, 0⟩ }) base) (by decide) (by decide) (by decide) (by decide +kernel)); ⟨fun _ _ => rfl, by decide, ⟨f.1, rfl, by decide⟩, f.2.2.1, by rw [f.2.1, f.2.2.1]; exact ⟨rfl, by decide⟩, by decide, by decide, f.2.2.2.2.2, by rw [f.2.2.2.1]; decide⟩⟩,
    ⟨.modeLock, 0x0112, modeLock, cmdAt 0x0112, 0, ⟨1, some 0, none⟩, asserting 1 0x0112 [63, 0, 0, 0] base, have f := (asserting_fields 1 0x0112 [63, 0, 0, 0] base (by decide) (by decide) (by decide) (by decide +kernel)); ⟨fun _ _ => rfl, by decide, ⟨f.1, rfl, by decide⟩, f.2.2.1, by rw [f.2.1, f.2.2.1]; exact ⟨rfl, by decide⟩, by decide, by decide, f.2.2.2.2.2, by rw [f.2.2.2.1]; decide, rfl⟩⟩,
    ⟨.radioTuneGet, 0x0202, radioTuneGet, cmdAt 0x0202, ⟨1, none, none⟩, asking 1 0x0202 [] (updBoot (fun b => { b with stage := .loader }) base), ⟨fun _ _ => rfl, by decide, ⟨by decide +kernel, rfl, by decide⟩, by decide +kernel, by decide +kernel, rfl, rfl, by decide⟩⟩⟩

/-- What `Obligations.ResponseReadsBack` asks is met. -/
theorem test_ResponseReadsBack :
    (∃ (v : Srv) (body : List Byte) (s t u : State), MemWf t ∧ body.length ≤ 240 ∧ replied v s 0 0 body t = .next u) := by
  exact ⟨⟨1, none, none⟩, List.replicate 240 0, base, base, _, by decide, Nat.le_of_eq List.length_replicate, rfl⟩

/-- What `Obligations.ReportsOfSystemAndRadio` asks is met. -/
theorem test_ReportsOfSystemAndRadio :
    (∃ (v : Srv) (p : List Byte) (s : State), Stands 0x0100 v p s ∧ p.length = 0) ∧
    (∃ (v : Srv) (p : List Byte) (s : State), Stands 0x0101 v p s ∧ p.length = 0) ∧
    (∃ (v : Srv) (p : List Byte) (s : State), Stands 0x0111 v p s ∧ p.length = 0) ∧
    (∃ (v : Srv) (p : List Byte) (s : State), Stands 0x0130 v p s ∧ p.length = 4 ∧ 1 ≤ u16 p 2 ∧ u16 p 2 ≤ 232 ∧ u16 p 0 + u16 p 2 ≤ 4096) ∧
    (∃ (v : Srv) (p : List Byte) (s : State), Stands 0x0140 v p s ∧ p.length = 0) ∧
    (∃ (v : Srv) (p : List Byte) (s : State), Stands 0x0151 v p s ∧ p.length = 4 ∧ (u8 p 0 = 6 ∨ u8 p 0 = 7) ∧ zeros p 1 3) ∧
    (∃ (v : Srv) (p : List Byte) (s : State), Stands 0x0184 v p s ∧ p.length = 0) ∧
    (∃ (v : Srv) (p : List Byte) (s : State), Stands 0x0200 v p s ∧ p.length = 0) ∧
    (∃ (v : Srv) (p : List Byte) (s : State), Stands 0x0202 v p s ∧ p.length = 0) ∧
    (∃ (v : Srv) (p : List Byte) (s : State), Stands 0x0204 v p s ∧ p.length = 0) ∧
    (∃ (v : Srv) (p : List Byte) (s : State), Stands 0x0206 v p s ∧ p.length = 0) ∧
    (∃ (v : Srv) (p : List Byte) (s : State), Stands 0x0208 v p s ∧ p.length = 0) ∧
    (∃ (v : Srv) (p : List Byte) (s : State), Stands 0x020A v p s ∧ p.length = 0) := by
  exact ⟨⟨⟨1, none, none⟩, [], asking 1 0x0100 ([]) (base), stands_base 0x0100 _ (by decide), by decide⟩,
    ⟨⟨1, none, none⟩, [], asking 1 0x0101 ([]) (base), stands_base 0x0101 _ (by decide), by decide⟩,
    ⟨⟨1, none, none⟩, [], asking 1 0x0111 ([]) (base), stands_base 0x0111 _ (by decide), by decide⟩,
    ⟨⟨1, none, none⟩, le 2 0 ++ le 2 232, asking 1 0x0130 (le 2 0 ++ le 2 232) (base), stands_base 0x0130 _ (by decide), by decide⟩,
    ⟨⟨1, none, none⟩, [], asking 1 0x0140 ([]) (base), stands_base 0x0140 _ (by decide), by decide⟩,
    ⟨⟨1, none, none⟩, [7, 0, 0, 0], asking 1 0x0151 ([7, 0, 0, 0]) (base), stands_base 0x0151 _ (by decide), by decide⟩,
    ⟨⟨1, none, none⟩, [], asking 1 0x0184 ([]) (base), stands_base 0x0184 _ (by decide), by decide⟩,
    ⟨⟨1, none, none⟩, [], asking 1 0x0200 ([]) (base), stands_base 0x0200 _ (by decide), by decide⟩,
    ⟨⟨1, none, none⟩, [], asking 1 0x0202 ([]) (base), stands_base 0x0202 _ (by decide), by decide⟩,
    ⟨⟨1, none, none⟩, [], asking 1 0x0204 ([]) (base), stands_base 0x0204 _ (by decide), by decide⟩,
    ⟨⟨1, none, none⟩, [], asking 1 0x0206 ([]) (base), stands_base 0x0206 _ (by decide), by decide⟩,
    ⟨⟨1, none, none⟩, [], asking 1 0x0208 ([]) (base), stands_base 0x0208 _ (by decide), by decide⟩,
    ⟨⟨1, none, none⟩, [], asking 1 0x020A ([]) (base), stands_base 0x020A _ (by decide), by decide⟩⟩

/-- What `Obligations.ReportsOfLanesAndCanary` asks is met. -/
theorem test_ReportsOfLanesAndCanary :
    (∃ (v : Srv) (p : List Byte) (s : State), Stands 0x0300 v p s ∧ p.length = 0) ∧
    (∃ (v : Srv) (p : List Byte) (s : State), Stands 0x0302 v p s ∧ p.length = 4 ∧ u8 p 0 < laneCount s ∧ zeros p 1 3) ∧
    (∃ (v : Srv) (p : List Byte) (s : State), Stands 0x0321 v p s ∧ p.length = 4 ∧ u8 p 0 ≤ 15 ∧ zeros p 1 3) ∧
    (∃ (v : Srv) (p : List Byte) (s : State), Stands 0x0322 v p s ∧ p.length = 4 ∧ u8 p 0 < laneCount s ∧ 1 ≤ u8 p 1 ∧ u8 p 1 ≤ 7 ∧ zeros p 2 2) ∧
    (∃ (v : Srv) (p : List Byte) (s : State), Stands 0x0400 v p s ∧ p.length = 0) ∧
    (∃ (v : Srv) (p : List Byte) (s : State), Stands 0x0402 v p s ∧ p.length = 0) := by
  exact ⟨⟨⟨1, none, none⟩, [], asking 1 0x0300 ([]) (base), stands_base 0x0300 _ (by decide), by decide⟩,
    ⟨⟨1, none, none⟩, [0, 0, 0, 0], asking 1 0x0302 ([0, 0, 0, 0]) (base), stands_base 0x0302 _ (by decide), by decide⟩,
    ⟨⟨1, none, none⟩, [15, 0, 0, 0], asking 1 0x0321 ([15, 0, 0, 0]) (base), stands_base 0x0321 _ (by decide), by decide⟩,
    ⟨⟨1, none, none⟩, [0, 7, 0, 0], asking 1 0x0322 ([0, 7, 0, 0]) (base), stands_base 0x0322 _ (by decide), by decide⟩,
    ⟨⟨1, none, none⟩, [], asking 1 0x0400 ([]) (base), stands_base 0x0400 _ (by decide), by decide⟩,
    ⟨⟨1, none, none⟩, [], asking 1 0x0402 ([]) (base), stands_base 0x0402 _ (by decide), by decide⟩⟩

/-- What `Obligations.ReportsOfLinkAndTiming` asks is met. -/
theorem test_ReportsOfLinkAndTiming :
    (∃ (v : Srv) (p : List Byte) (s : State), Stands 0x0500 v p s ∧ p.length = 0) ∧
    (∃ (v : Srv) (p : List Byte) (s : State), Stands 0x0502 v p s ∧ p.length = 0) ∧
    (∃ (v : Srv) (p : List Byte) (s : State), Stands 0x0511 v p s ∧ p.length = 4 ∧ u16 p 0 < nbrCount s ∧ 1 ≤ u8 p 2 ∧ u8 p 2 ≤ 3 ∧ zeros p 3 1) ∧
    (∃ (v : Srv) (p : List Byte) (s : State), Stands 0x0512 v p s ∧ p.length = 12 ∧ u8 p 0 ≤ 1 ∧ zeros p 1 3 ∧ (u8 p 0 = 1 ∨ (u32 p 4 < 2 ^ 25 ∧ zeros p 8 4))) ∧
    (∃ (v : Srv) (p : List Byte) (s : State), Stands 0x0521 v p s ∧ p.length = 4 ∧ (u16 p 0 = 0xFFFF ∨ u16 p 0 < Config.routeRanges s.dev.variant) ∧ zeros p 2 2) ∧
    (∃ (v : Srv) (p : List Byte) (s : State), Stands 0x0522 v p s ∧ p.length = 4 ∧ u32 p 0 < 2 ^ 25) ∧
    (∃ (v : Srv) (p : List Byte) (s : State), Stands 0x0600 v p s ∧ p.length = 0) ∧
    (∃ (v : Srv) (p : List Byte) (s : State), Stands 0x0602 v p s ∧ p.length = 0) ∧
    (∃ (v : Srv) (p : List Byte) (s : State), Stands 0x0604 v p s ∧ p.length = 4 ∧ 1 ≤ u8 p 0 ∧ u8 p 0 ≤ 15 ∧ zeros p 1 3) ∧
    (∃ (v : Srv) (p : List Byte) (s : State), Stands 0x0608 v p s ∧ p.length = 4 ∧ u16 p 0 < nbrCount s ∧ zeros p 2 2) := by
  exact ⟨⟨⟨1, none, none⟩, [], asking 1 0x0500 ([]) (base), stands_base 0x0500 _ (by decide), by decide⟩,
    ⟨⟨1, none, none⟩, [], asking 1 0x0502 ([]) (base), stands_base 0x0502 _ (by decide), by decide⟩,
    ⟨⟨1, none, none⟩, [0, 0, 3, 0], asking 1 0x0511 ([0, 0, 3, 0]) (base), stands_base 0x0511 _ (by decide), by decide⟩,
    ⟨⟨1, none, none⟩, [0, 0, 0, 0] ++ le 4 (2 ^ 25 - 1) ++ le 4 0, asking 1 0x0512 ([0, 0, 0, 0] ++ le 4 (2 ^ 25 - 1) ++ le 4 0) (base), stands_base 0x0512 _ (by decide), by decide⟩,
    ⟨⟨1, none, none⟩, [0xFF, 0xFF, 0, 0], asking 1 0x0521 ([0xFF, 0xFF, 0, 0]) (base), stands_base 0x0521 _ (by decide), by decide⟩,
    ⟨⟨1, none, none⟩, le 4 (2 ^ 25 - 1), asking 1 0x0522 (le 4 (2 ^ 25 - 1)) (base), stands_base 0x0522 _ (by decide), by decide⟩,
    ⟨⟨1, none, none⟩, [], asking 1 0x0600 ([]) (base), stands_base 0x0600 _ (by decide), by decide⟩,
    ⟨⟨1, none, none⟩, [], asking 1 0x0602 ([]) (base), stands_base 0x0602 _ (by decide), by decide⟩,
    ⟨⟨1, none, none⟩, [15, 0, 0, 0], asking 1 0x0604 ([15, 0, 0, 0]) (base), stands_base 0x0604 _ (by decide), by decide⟩,
    ⟨⟨1, none, none⟩, [0, 0, 0, 0], asking 1 0x0608 ([0, 0, 0, 0]) (base), stands_base 0x0608 _ (by decide), by decide⟩⟩

/-- What `Obligations.ReportsOfTallyQueuesAndScheduler` asks is met. -/
theorem test_ReportsOfTallyQueuesAndScheduler :
    (∃ (v : Srv) (p : List Byte) (s : State), Stands 0x0701 v p s ∧ p.length = 0) ∧
    (∃ (v : Srv) (p : List Byte) (s : State), Stands 0x0703 v p s ∧ p.length = 4 ∧ u8 p 0 ≤ 15 ∧ zeros p 1 3) ∧
    (∃ (v : Srv) (p : List Byte) (s : State), Stands 0x0710 v p s ∧ p.length = 4 ∧ u8 p 0 ≤ 15 ∧ zeros p 1 3) ∧
    (∃ (v : Srv) (p : List Byte) (s : State), Stands 0x0711 v p s ∧ p.length = 12 ∧ u8 p 8 ≤ 1 ∧ zeros p 9 3) ∧
    (∃ (v : Srv) (p : List Byte) (s : State), Stands 0x0800 v p s ∧ p.length = 0) ∧
    (∃ (v : Srv) (p : List Byte) (s : State), Stands 0x0802 v p s ∧ p.length = 4 ∧ queuePresent s (u16 p 0) ∧ zeros p 2 2) ∧
    (∃ (v : Srv) (p : List Byte) (s : State), Stands 0x0803 v p s ∧ p.length = 4 ∧ queuePresent s (u16 p 0) ∧ zeros p 2 2) ∧
    (∃ (v : Srv) (p : List Byte) (s : State), Stands 0x0805 v p s ∧ p.length = 0) ∧
    (∃ (v : Srv) (p : List Byte) (s : State), Stands 0x0900 v p s ∧ p.length = 0) ∧
    (∃ (v : Srv) (p : List Byte) (s : State), Stands 0x0902 v p s ∧ p.length = 4 ∧ u16 p 0 ≤ 255 ∧ zeros p 2 2) ∧
    (∃ (v : Srv) (p : List Byte) (s : State), Stands 0x0903 v p s ∧ p.length = 4 ∧ u16 p 0 ≤ 255 ∧ zeros p 2 2) ∧
    (∃ (v : Srv) (p : List Byte) (s : State), Stands 0x0905 v p s ∧ p.length = 4 ∧ u8 p 0 ≤ 127 ∧ zeros p 1 3) := by
  exact ⟨⟨⟨1, none, none⟩, [], asking 1 0x0701 ([]) (base), stands_base 0x0701 _ (by decide), by decide⟩,
    ⟨⟨1, none, none⟩, [15, 0, 0, 0], asking 1 0x0703 ([15, 0, 0, 0]) (base), stands_base 0x0703 _ (by decide), by decide⟩,
    ⟨⟨1, none, none⟩, [15, 0, 0, 0], asking 1 0x0710 ([15, 0, 0, 0]) (base), stands_base 0x0710 _ (by decide), by decide⟩,
    ⟨⟨1, none, none⟩, le 4 863000000 ++ le 4 100 ++ [1, 0, 0, 0], asking 1 0x0711 (le 4 863000000 ++ le 4 100 ++ [1, 0, 0, 0]) (base), stands_base 0x0711 _ (by decide), by decide⟩,
    ⟨⟨1, none, none⟩, [], asking 1 0x0800 ([]) (base), stands_base 0x0800 _ (by decide), by decide⟩,
    ⟨⟨1, none, none⟩, [0, 0, 0, 0], asking 1 0x0802 ([0, 0, 0, 0]) (base), stands_base 0x0802 _ (by decide), by decide⟩,
    ⟨⟨1, none, none⟩, [0, 0, 0, 0], asking 1 0x0803 ([0, 0, 0, 0]) (base), stands_base 0x0803 _ (by decide), by decide⟩,
    ⟨⟨1, none, none⟩, [], asking 1 0x0805 ([]) (base), stands_base 0x0805 _ (by decide), by decide⟩,
    ⟨⟨1, none, none⟩, [], asking 1 0x0900 ([]) (base), stands_base 0x0900 _ (by decide), by decide⟩,
    ⟨⟨1, none, none⟩, [0xFF, 0, 0, 0], asking 1 0x0902 ([0xFF, 0, 0, 0]) (base), stands_base 0x0902 _ (by decide), by decide⟩,
    ⟨⟨1, none, none⟩, [0xFF, 0, 0, 0], asking 1 0x0903 ([0xFF, 0, 0, 0]) (base), stands_base 0x0903 _ (by decide), by decide⟩,
    ⟨⟨1, none, none⟩, [0x7F, 0, 0, 0], asking 1 0x0905 ([0x7F, 0, 0, 0]) (base), stands_base 0x0905 _ (by decide), by decide⟩⟩

/-- What `Obligations.ReportsOfStoreAndPort` asks is met. -/
theorem test_ReportsOfStoreAndPort :
    (∃ (v : Srv) (p : List Byte) (s : State), Stands 0x0A00 v p s ∧ p.length = 0) ∧
    (∃ (v : Srv) (p : List Byte) (s : State), Stands 0x0A01 v p s ∧ p.length = 4 ∧ u8 p 0 ≤ 63 ∧ 1 ≤ u8 p 1 ∧ u8 p 1 ≤ 11 ∧ u8 p 0 + u8 p 1 ≤ 64 ∧ zeros p 2 2) ∧
    (∃ (v : Srv) (p : List Byte) (s : State), Stands 0x0F02 v p s ∧ p.length = 0) ∧
    (∃ (v : Srv) (p : List Byte) (s : State), Stands 0x0B00 v p s ∧ p.length = 0) ∧
    (∃ (v : Srv) (p : List Byte) (s : State), Stands 0x0B13 v p s ∧ p.length = 4 ∧ 1 ≤ u8 p 2 ∧ u8 p 2 ≤ 32 ∧ u16 p 0 + u8 p 2 ≤ blockCount s ∧ zeros p 3 1) ∧
    (∃ (v : Srv) (p : List Byte) (s : State), Stands 0x0C00 v p s ∧ p.length = 0) ∧
    (∃ (v : Srv) (p : List Byte) (s : State), Stands 0x0D00 v p s ∧ p.length = 0) ∧
    (∃ (v : Srv) (p : List Byte) (s : State), Stands 0x0D01 v p s ∧ p.length = 0) ∧
    (∃ (v : Srv) (p : List Byte) (s : State), Stands 0x0D04 v p s ∧ p.length = 4 ∧ u8 p 0 ≤ 1 ∧ zeros p 1 3) ∧
    (∃ (v : Srv) (p : List Byte) (s : State), Stands 0x0E02 v p s ∧ p.length = 0 ∧ s.port.lock ≠ .app ∧ s.port.lock ≠ .field) ∧
    (∃ (v : Srv) (p : List Byte) (s : State), Stands 0x0E22 v p s ∧ p.length = 4 ∧ u8 p 0 ≤ 3 ∧ zeros p 1 3 ∧ s.port.lock ≠ .app ∧ s.port.lock ≠ .field) ∧
    (∃ (v : Srv) (p : List Byte) (s : State), Stands 0x0E10 v p s ∧ p.length = 4 ∧ 8 ≤ u8 p 0 ∧ 1 ≤ u8 p 1 ∧ u8 p 1 ≤ 7 ∧ u8 p 0 + u8 p 1 ≤ 256 ∧ zeros p 2 2 ∧ s.port.grantCfg ≠ 1 ∧ s.port.lock ≠ .app ∧ s.port.lock ≠ .field) ∧
    (∃ (v : Srv) (p : List Byte) (s : State), Stands 0x0E30 v p s ∧ p.length = 0 ∧ s.port.grantCfg ≠ 1 ∧ s.port.lock ≠ .app ∧ s.port.lock ≠ .field) := by
  exact ⟨⟨⟨1, none, none⟩, [], asking 1 0x0A00 ([]) (base), stands_base 0x0A00 _ (by decide), by decide⟩,
    ⟨⟨1, none, none⟩, [53, 11, 0, 0], asking 1 0x0A01 ([53, 11, 0, 0]) (base), stands_base 0x0A01 _ (by decide), by decide⟩,
    ⟨⟨1, none, none⟩, [], asking 1 0x0F02 ([]) (base), stands_base 0x0F02 _ (by decide), by decide⟩,
    ⟨⟨1, none, none⟩, [], asking 1 0x0B00 ([]) (base), stands_base 0x0B00 _ (by decide), by decide⟩,
    ⟨⟨1, none, none⟩, [0, 0, 32, 0], asking 1 0x0B13 ([0, 0, 32, 0]) (base), stands_base 0x0B13 _ (by decide), by decide⟩,
    ⟨⟨1, none, none⟩, [], asking 1 0x0C00 ([]) (base), stands_base 0x0C00 _ (by decide), by decide⟩,
    ⟨⟨1, none, none⟩, [], asking 1 0x0D00 ([]) (base), stands_base 0x0D00 _ (by decide), by decide⟩,
    ⟨⟨1, none, none⟩, [], asking 1 0x0D01 ([]) (base), stands_base 0x0D01 _ (by decide), by decide⟩,
    ⟨⟨1, none, none⟩, [1, 0, 0, 0], asking 1 0x0D04 ([1, 0, 0, 0]) (base), stands_base 0x0D04 _ (by decide), by decide⟩,
    ⟨⟨1, none, none⟩, [], asking 1 0x0E02 ([]) (base), stands_base 0x0E02 _ (by decide), by decide⟩,
    ⟨⟨1, none, none⟩, [3, 0, 0, 0], asking 1 0x0E22 ([3, 0, 0, 0]) (base), stands_base 0x0E22 _ (by decide), by decide⟩,
    ⟨⟨1, none, none⟩, [249, 7, 0, 0], asking 1 0x0E10 ([249, 7, 0, 0]) (updPort (fun x => { x with grantCfg := 0 }) base), stands_asking 1 0x0E10 _ (updPort (fun x => { x with grantCfg := 0 }) base) (by decide) (by decide) (by decide) (by decide) (by decide) (by decide), by decide⟩,
    ⟨⟨1, none, none⟩, [], asking 1 0x0E30 ([]) (updPort (fun x => { x with grantCfg := 0 }) base), stands_asking 1 0x0E30 _ (updPort (fun x => { x with grantCfg := 0 }) base) (by decide) (by decide) (by decide) (by decide) (by decide) (by decide), by decide⟩⟩

/-- What `Obligations.CountersReadAndClear` asks is met. -/
theorem test_CountersReadAndClear :
    (∃ (v : Srv) (p : List Byte) (s : State), Stands 0x0218 v p s ∧ p.length = 4 ∧ u8 p 0 ≤ 1 ∧ zeros p 1 3) ∧
    (∃ (v : Srv) (p : List Byte) (s : State), Stands 0x0310 v p s ∧ p.length = 4 ∧ u8 p 0 < laneCount s ∧ u8 p 1 ≤ 1 ∧ zeros p 2 2) ∧
    (∃ (v : Srv) (p : List Byte) (s : State), Stands 0x0323 v p s ∧ p.length = 4 ∧ u8 p 0 < laneCount s ∧ u8 p 1 ≤ 1 ∧ zeros p 2 2) ∧
    (∃ (v : Srv) (p : List Byte) (s : State), Stands 0x0418 v p s ∧ p.length = 4 ∧ u8 p 0 ≤ 1 ∧ zeros p 1 3) ∧
    (∃ (v : Srv) (p : List Byte) (s : State), Stands 0x0540 v p s ∧ p.length = 4 ∧ u8 p 0 ≤ 1 ∧ zeros p 1 3) ∧
    (∃ (v : Srv) (p : List Byte) (s : State), Stands 0x0630 v p s ∧ p.length = 4 ∧ u8 p 0 ≤ 1 ∧ zeros p 1 3) ∧
    (∃ (v : Srv) (p : List Byte) (s : State), Stands 0x0718 v p s ∧ p.length = 4 ∧ u8 p 0 ≤ 15 ∧ u8 p 1 ≤ 1 ∧ zeros p 2 2) ∧
    (∃ (v : Srv) (p : List Byte) (s : State), Stands 0x0718 v p s ∧ p.length = 4 ∧ u8 p 0 = 0xFF ∧ u8 p 1 ≤ 1 ∧ zeros p 2 2) ∧
    (∃ (v : Srv) (p : List Byte) (s : State), Stands 0x0818 v p s ∧ p.length = 4 ∧ u8 p 0 ≤ 1 ∧ zeros p 1 3) ∧
    (∃ (v : Srv) (p : List Byte) (s : State), Stands 0x0910 v p s ∧ p.length = 4 ∧ u8 p 0 ≤ 1 ∧ zeros p 1 3) ∧
    (∃ (v : Srv) (p : List Byte) (s : State), Stands 0x0A30 v p s ∧ p.length = 4 ∧ u8 p 0 ≤ 1 ∧ zeros p 1 3) ∧
    (∃ (v : Srv) (p : List Byte) (s : State), Stands 0x0F00 v p s ∧ p.length = 4 ∧ u8 p 0 ≤ 1 ∧ zeros p 1 3) ∧
    (∃ (v : Srv) (p : List Byte) (s : State), Stands 0x0B18 v p s ∧ p.length = 4 ∧ u8 p 0 ≤ 1 ∧ zeros p 1 3) ∧
    (∃ (v : Srv) (p : List Byte) (s : State), Stands 0x0E00 v p s ∧ p.length = 4 ∧ u8 p 0 ≤ 1 ∧ zeros p 1 3) := by
  exact ⟨⟨⟨1, none, none⟩, [1, 0, 0, 0], asking 1 0x0218 ([1, 0, 0, 0]) (base), stands_base 0x0218 _ (by decide), by decide⟩,
    ⟨⟨1, none, none⟩, [0, 1, 0, 0], asking 1 0x0310 ([0, 1, 0, 0]) (base), stands_base 0x0310 _ (by decide), by decide⟩,
    ⟨⟨1, none, none⟩, [0, 1, 0, 0], asking 1 0x0323 ([0, 1, 0, 0]) (base), stands_base 0x0323 _ (by decide), by decide⟩,
    ⟨⟨1, none, none⟩, [1, 0, 0, 0], asking 1 0x0418 ([1, 0, 0, 0]) (base), stands_base 0x0418 _ (by decide), by decide⟩,
    ⟨⟨1, none, none⟩, [1, 0, 0, 0], asking 1 0x0540 ([1, 0, 0, 0]) (base), stands_base 0x0540 _ (by decide), by decide⟩,
    ⟨⟨1, none, none⟩, [1, 0, 0, 0], asking 1 0x0630 ([1, 0, 0, 0]) (base), stands_base 0x0630 _ (by decide), by decide⟩,
    ⟨⟨1, none, none⟩, [15, 1, 0, 0], asking 1 0x0718 ([15, 1, 0, 0]) (base), stands_base 0x0718 _ (by decide), by decide⟩,
    ⟨⟨1, none, none⟩, [0xFF, 1, 0, 0], asking 1 0x0718 ([0xFF, 1, 0, 0]) (base), stands_base 0x0718 _ (by decide), by decide⟩,
    ⟨⟨1, none, none⟩, [1, 0, 0, 0], asking 1 0x0818 ([1, 0, 0, 0]) (base), stands_base 0x0818 _ (by decide), by decide⟩,
    ⟨⟨1, none, none⟩, [1, 0, 0, 0], asking 1 0x0910 ([1, 0, 0, 0]) (base), stands_base 0x0910 _ (by decide), by decide⟩,
    ⟨⟨1, none, none⟩, [1, 0, 0, 0], asking 1 0x0A30 ([1, 0, 0, 0]) (base), stands_base 0x0A30 _ (by decide), by decide⟩,
    ⟨⟨1, none, none⟩, [1, 0, 0, 0], asking 1 0x0F00 ([1, 0, 0, 0]) (base), stands_base 0x0F00 _ (by decide), by decide⟩,
    ⟨⟨1, none, none⟩, [1, 0, 0, 0], asking 1 0x0B18 ([1, 0, 0, 0]) (base), stands_base 0x0B18 _ (by decide), by decide⟩,
    ⟨⟨1, none, none⟩, [1, 0, 0, 0], asking 1 0x0E00 ([1, 0, 0, 0]) (base), stands_base 0x0E00 _ (by decide), by decide⟩⟩

/-- What `Obligations.ModeSet` asks is met. -/
theorem test_ModeSet :
    let asked (m : Mode) (p : List Byte) (s : State) : Prop :=
      p.length = 4 ∧ u8 p 0 = modeCode m ∧ zeros p 1 3 ∧ (m = .wide → s.dev.variant ≠ .face) ∧ bit s.pwr.allowed (modeCode m) = true ∧
        s.pwr.drain = none ∧ s.pwr.changing = false
    let linked (m : Mode) : Prop := m = .leaf ∨ m = .relay ∨ m = .wide
    (∃ (m : Mode), (∃ (v : Srv) (p : List Byte) (s : State), Stands 0x0110 v p s ∧ Unhindered 0x0110 s ∧ asked m p s ∧ s.pwr.mode = m)) ∧
    (∃ (m : Mode), (∃ (v : Srv) (p : List Byte) (s : State), Stands 0x0110 v p s ∧ Unhindered 0x0110 s ∧ asked m p s ∧ s.pwr.mode ≠ m ∧ linked s.pwr.mode ∧ linked m)) ∧
    (∃ (m : Mode), (∃ (v : Srv) (p : List Byte) (s : State), Stands 0x0110 v p s ∧ Unhindered 0x0110 s ∧ freeSlot s ≠ none ∧ asked m p s ∧ linked s.pwr.mode ∧ ¬ linked m)) ∧
    (∃ (m : Mode), (∃ (v : Srv) (p : List Byte) (s : State), Stands 0x0110 v p s ∧ Unhindered 0x0110 s ∧ asked m p s ∧ m = .service ∧ (s.pwr.mode = .shelf ∨ s.pwr.mode = .watch))) ∧
    (∃ (m : Mode), (∃ (v : Srv) (p : List Byte) (s : State), Stands 0x0110 v p s ∧ Unhindered 0x0110 s ∧ asked m p s ∧ m ≠ .service ∧ s.pwr.mode = .service)) ∧
    (∃ (m : Mode), (∃ (v : Srv) (p : List Byte) (s : State), Stands 0x0110 v p s ∧ Unhindered 0x0110 s ∧ asked m p s ∧ m ≠ .service ∧ s.pwr.mode ≠ m ∧ (s.pwr.mode = .shelf ∨ s.pwr.mode = .watch))) := by
  dsimp only
  exact ⟨⟨.leaf, ⟨⟨1, none, none⟩, [2, 0, 0, 0], asking 1 0x0110 ([2, 0, 0, 0]) (base), stands_base 0x0110 _ (by decide), by decide⟩⟩,
    ⟨.relay, ⟨⟨1, none, none⟩, [3, 0, 0, 0], asking 1 0x0110 ([3, 0, 0, 0]) (base), stands_base 0x0110 _ (by decide), by decide⟩⟩,
    ⟨.shelf, ⟨⟨1, none, none⟩, [0, 0, 0, 0], asking 1 0x0110 ([0, 0, 0, 0]) (base), stands_base 0x0110 _ (by decide), by decide⟩⟩,
    ⟨.service, ⟨⟨1, none, none⟩, [5, 0, 0, 0], asking 1 0x0110 ([5, 0, 0, 0]) (updPwr (fun w => { w with mode := .watch }) base), stands_asking 1 0x0110 _ (updPwr (fun w => { w with mode := .watch }) base) (by decide) (by decide) (by decide) (by decide) (by decide) (by decide), by decide⟩⟩,
    ⟨.shelf, ⟨⟨1, none, none⟩, [0, 0, 0, 0], asking 1 0x0110 ([0, 0, 0, 0]) (updPwr (fun w => { w with mode := .service }) base), stands_asking 1 0x0110 _ (updPwr (fun w => { w with mode := .service }) base) (by decide) (by decide) (by decide) (by decide) (by decide) (by decide), by decide⟩⟩,
    ⟨.wide, ⟨⟨1, none, none⟩, [4, 0, 0, 0], asking 1 0x0110 ([4, 0, 0, 0]) (updPwr (fun w => { w with mode := .watch }) base), stands_asking 1 0x0110 _ (updPwr (fun w => { w with mode := .watch }) base) (by decide) (by decide) (by decide) (by decide) (by decide) (by decide), by decide⟩⟩⟩

/-- What `Obligations.SystemAndRadioSettings` asks is met. -/
theorem test_SystemAndRadioSettings :
    (∃ (v : Srv) (p : List Byte) (s : State), Stands 0x0150 v p s ∧ Unhindered 0x0150 s ∧ p.length = 4 ∧ (u8 p 0 = 6 ∨ u8 p 0 = 7) ∧ zeros p 1 1 ∧ u16 p 2 % 2 = 0) ∧
    (∃ (v : Srv) (p : List Byte) (s : State), Stands 0x0103 v p s ∧ Unhindered 0x0103 s ∧ p.length = 4 ∧ u8 p 0 ≤ 1 ∧ zeros p 1 3) ∧
    (∃ (v : Srv) (p : List Byte) (s : State), Stands 0x0102 v p s ∧ Unhindered 0x0102 s ∧ p.length = 8 ∧ u16 p 0 ≤ 1 ∧ u16 p 2 ≤ 5000 ∧ u32 p 4 < 65536 ∧ u32 p 4 % 2 = 0 ∧ s.mbx.survey = none ∧ s.shots.buf.any (fun b => b.state == .quiescing) = false) ∧
    (∃ (v : Srv) (p : List Byte) (s : State), Stands 0x0F10 v p s ∧ Unhindered 0x0F10 s ∧ p.length = 4 ∧ chanOwner s v.ch = .host ∧ 1 ≤ u8 p 0 ∧ u8 p 0 ≤ 3 ∧ zeros p 1 3) ∧
    (∃ (v : Srv) (p : List Byte) (s : State), Stands 0x0201 v p s ∧ Unhindered 0x0201 s ∧ p.length = 8 ∧ freqOk (u32 p 0) ∧ (u8 p 4 = 0 ∨ u8 p 4 = 1 ∨ u8 p 4 = 4 ∨ u8 p 4 = 6) ∧ zeros p 5 3) ∧
    (∃ (v : Srv) (p : List Byte) (s : State), Stands 0x0203 v p s ∧ Unhindered 0x0203 s ∧ p.length = 4 ∧ -40 ≤ i8 p 0 ∧ i8 p 0 ≤ 40 ∧ u8 p 1 ≤ 2 ∧ zeros p 2 2) ∧
    (∃ (v : Srv) (p : List Byte) (s : State), Stands 0x0205 v p s ∧ Unhindered 0x0205 s ∧ p.length = 36 ∧ zeros p 1 3 ∧ (u8 p 0 = 0 ∨ (u8 p 0 = 1 ∧ zeros p 4 32))) ∧
    (∃ (v : Srv) (p : List Byte) (s : State), Stands 0x0207 v p s ∧ Unhindered 0x0207 s ∧ p.length = 8 ∧ u8 p 0 ≤ 1 ∧ (s.dev.variant = .shaft → u8 p 0 = 0) ∧ u8 p 1 ≤ 1 ∧ u8 p 2 ≤ 1 ∧ u8 p 3 ≤ 1 ∧ u8 p 4 ≤ 20 ∧ zeros p 5 3) ∧
    (∃ (v : Srv) (p : List Byte) (s : State), Stands 0x0209 v p s ∧ Unhindered 0x0209 s ∧ p.length = 8 ∧ u8 p 0 &&& 0x88 = 0 ∧ u8 p 1 ≤ 20 ∧ u8 p 2 ≤ 10 ∧ zeros p 3 1 ∧ zeros p 6 2) := by
  exact ⟨⟨⟨1, none, none⟩, [7, 0, 0xFE, 0xFF], asking 1 0x0150 ([7, 0, 0xFE, 0xFF]) (base), stands_base 0x0150 _ (by decide), by decide⟩,
    ⟨⟨1, none, none⟩, [1, 0, 0, 0], asking 1 0x0103 ([1, 0, 0, 0]) (base), stands_base 0x0103 _ (by decide), by decide⟩,
    ⟨⟨1, none, none⟩, le 2 1 ++ le 2 5000 ++ le 4 65534, asking 1 0x0102 (le 2 1 ++ le 2 5000 ++ le 4 65534) (base), stands_base 0x0102 _ (by decide), by decide⟩,
    ⟨⟨1, none, none⟩, [3, 0, 0, 0], asking 1 0x0F10 ([3, 0, 0, 0]) (hostOwned base), stands_asking 1 0x0F10 _ (hostOwned base) (by decide) (by decide) (by decide) (by decide) (by decide) (by decide), by decide⟩,
    ⟨⟨1, none, none⟩, le 4 960000000 ++ [6, 0, 0, 0], asking 1 0x0201 (le 4 960000000 ++ [6, 0, 0, 0]) (base), stands_base 0x0201 _ (by decide), by decide⟩,
    ⟨⟨1, none, none⟩, [0xD8, 2, 0, 0], asking 1 0x0203 ([0xD8, 2, 0, 0]) (base), stands_base 0x0203 _ (by decide), by decide⟩,
    ⟨⟨1, none, none⟩, [1] ++ List.replicate 35 0, asking 1 0x0205 ([1] ++ List.replicate 35 0) (base), stands_base 0x0205 _ (by decide), by decide⟩,
    ⟨⟨1, none, none⟩, [0, 1, 1, 1, 20, 0, 0, 0], asking 1 0x0207 ([0, 1, 1, 1, 20, 0, 0, 0]) (base), stands_base 0x0207 _ (by decide), by decide⟩,
    ⟨⟨1, none, none⟩, [0x77, 20, 10, 0, 0x80, 0x7F, 0, 0], asking 1 0x0209 ([0x77, 20, 10, 0, 0x80, 0x7F, 0, 0]) (base), stands_base 0x0209 _ (by decide), by decide⟩⟩

/-- What `Obligations.ShotCommands` asks is met. -/
theorem test_ShotCommands :
    let named (n : Nat) (v : Srv) (p : List Byte) (s : State) : Prop :=
      u8 p 0 = n ∧ n ≤ 3 ∧ (shotOf s n).owner = some (chanOwner s v.ch)
    (∃ (n : Nat), (∃ (v : Srv) (p : List Byte) (s : State), Stands 0x0180 v p s ∧ Unhindered 0x0180 s ∧ p.length = 0 ∧ (List.range 4).find? (fun k => (shotOf s k).state == .free) = some n)) ∧
    (∃ (n : Nat) (es : List Entry) (k : Nat), (∃ (v : Srv) (p : List Byte) (s : State), Stands 0x0181 v p s ∧ Unhindered 0x0181 s ∧ 8 ≤ p.length ∧ p.length ≤ 236 ∧ named n v p s ∧ (shotOf s n).state = .opened ∧ 1 ≤ u8 p 1 ∧ u8 p 1 ≤ 14 ∧ zeros p 2 2 ∧ parseEntries p (u8 p 1) 4 (shotOf s n).entries (shotOf s n).bytes = .inr (es, k))) ∧
    (∃ (n : Nat), (∃ (v : Srv) (p : List Byte) (s : State), Stands 0x0182 v p s ∧ Unhindered 0x0182 s ∧ freeSlot s ≠ none ∧ p.length = 16 ∧ named n v p s ∧ (shotOf s n).state = .opened ∧ (shotOf s n).entries ≠ [] ∧ u8 p 1 ≤ 4 ∧ u16 p 2 ≤ 3 ∧ u16 p 4 ≤ 5000 ∧ zeros p 6 2 ∧ shotWhenOk s (u8 p 1) p = true ∧ (u8 p 1 = 4 → s.rtc.osf = false) ∧ shotWalk (chanOwner s v.ch) [] (shotOf s n).entries 0 (taken s) = none)) ∧
    (∃ (n : Nat), (∃ (v : Srv) (p : List Byte) (s : State), Stands 0x0183 v p s ∧ Unhindered 0x0183 s ∧ p.length = 4 ∧ named n v p s ∧ ((shotOf s n).state = .opened ∨ (shotOf s n).state = .armed) ∧ zeros p 1 3)) := by
  dsimp only
  exact ⟨⟨0, ⟨⟨1, none, none⟩, [], asking 1 0x0180 ([]) (base), stands_base 0x0180 _ (by decide), by decide⟩⟩,
    ⟨3, [.mbx 0x0201 (le 4 868000000 ++ [0, 0, 0, 0])], 16, ⟨⟨1, none, none⟩, [3, 1, 0, 0] ++ [0, 0] ++ le 2 8 ++ le 2 0x0201 ++ [0, 0] ++ le 4 868000000 ++ [0, 0, 0, 0], asking 1 0x0181 ([3, 1, 0, 0] ++ [0, 0] ++ le 2 8 ++ le 2 0x0201 ++ [0, 0] ++ le 4 868000000 ++ [0, 0, 0, 0]) (opened 3 [] base), stands_asking 1 0x0181 _ (opened 3 [] base) (by decide) (by decide) (by decide) (by decide) (by decide) (by decide), by decide⟩⟩,
    ⟨3, ⟨⟨1, none, none⟩, [3, 1] ++ le 2 3 ++ le 2 5000 ++ [0, 0] ++ le 8 0, asking 1 0x0182 ([3, 1] ++ le 2 3 ++ le 2 5000 ++ [0, 0] ++ le 8 0) (opened 3 [.reg 0x40000000 0 0] base), stands_asking 1 0x0182 _ (opened 3 [.reg 0x40000000 0 0] base) (by decide) (by decide) (by decide) (by decide) (by decide) (by decide), by decide⟩⟩,
    ⟨3, ⟨⟨1, none, none⟩, [3, 0, 0, 0], asking 1 0x0183 ([3, 0, 0, 0]) (opened 3 [] base), stands_asking 1 0x0183 _ (opened 3 [] base) (by decide) (by decide) (by decide) (by decide) (by decide) (by decide), by decide⟩⟩⟩

/-- What `Obligations.RadioWork` asks is met. -/
theorem test_RadioWork :
    let measures (p : List Byte) (s : State) : Prop :=
      freqOk (u32 p 0) ∧ 2000 ≤ u32 p 4 ∧ u32 p 4 ≤ 1600000 ∧ s.pwr.mode ≠ .shelf ∧ s.pwr.mode ≠ .watch ∧
        (s.pwr.mode = .relay ∨ s.pwr.mode = .wide → inWindow s (u32 p 0) 0 = true ∧ inWindow s (u32 p 0) (u32 p 4) = true)
    let carrier (p : List Byte) : Nat := hzTune (u32 p 0)
    (∃ (v : Srv) (p : List Byte) (s : State), Stands 0x0210 v p s ∧ Unhindered 0x0210 s ∧ freeSlot s ≠ none ∧ p.length = 4 ∧ u8 p 0 ≤ 2 ∧ zeros p 1 3 ∧ s.pwr.mode ≠ .shelf ∧ s.pwr.mode ≠ .watch) ∧
    (∃ (v : Srv) (p : List Byte) (s : State), Stands 0x0211 v p s ∧ Unhindered 0x0211 s ∧ freeSlot s ≠ none ∧ p.length = 12 ∧ measures p s ∧ 20 ≤ u16 p 8 ∧ u16 p 8 ≤ 10000 ∧ u8 p 10 ≤ 1 ∧ zeros p 11 1) ∧
    (∃ (v : Srv) (p : List Byte) (s : State), Stands 0x0212 v p s ∧ Unhindered 0x0212 s ∧ freeSlot s ≠ none ∧ p.length = 16 ∧ measures p s ∧ 20 ≤ u16 p 8 ∧ u8 p 12 ≤ 2 ∧ (s.dev.variant = .shaft → u8 p 12 = 0) ∧ zeros p 13 3) ∧
    (∃ (resv : Option Nat), (∃ (v : Srv) (p : List Byte) (s : State), Stands 0x0220 v p s ∧ Unhindered 0x0220 s ∧ freeSlot s ≠ none ∧ p.length = 12 ∧ freqOk (u32 p 0) ∧ u8 p 4 ≤ 1 ∧ -40 ≤ i8 p 5 ∧ i8 p 5 ≤ 40 ∧ u8 p 6 ≤ 1 ∧ zeros p 7 1 ∧ 1 ≤ u32 p 8 ∧ u32 p 8 ≤ 60000 ∧ s.pwr.mode = .service ∧ (tallyTake (tuneExact (carrier p)) (u32 p 8 * 1000) false (taken s)).2.2 = some resv)) ∧
    (∃ (w : TestTx) (q : TxReq), (∃ (v : Srv) (p : List Byte) (s : State), Stands 0x0221 v p s ∧ Unhindered 0x0221 s ∧ p.length = 0 ∧ s.radio.test = some w ∧ s.radio.onAir = some q ∧ q.who = .test)) ∧
    (∃ (w : TestTx) (q : TxReq), (∃ (v : Srv) (p : List Byte) (s : State), Stands 0x0221 v p s ∧ Unhindered 0x0221 s ∧ p.length = 0 ∧ s.radio.test = some w ∧ s.radio.onAir = none ∧ s.radio.held = some q ∧ q.who = .test)) := by
  dsimp only
  exact ⟨⟨⟨1, none, none⟩, [2, 0, 0, 0], asking 1 0x0210 ([2, 0, 0, 0]) (base), stands_base 0x0210 _ (by decide), by decide⟩,
    ⟨⟨1, none, none⟩, le 4 480000000 ++ le 4 1600000 ++ le 2 10000 ++ [1, 0], asking 1 0x0211 (le 4 480000000 ++ le 4 1600000 ++ le 2 10000 ++ [1, 0]) (base), stands_base 0x0211 _ (by decide), by decide⟩,
    ⟨⟨1, none, none⟩, le 4 410000000 ++ le 4 2000 ++ le 2 20 ++ le 2 0 ++ [0, 0, 0, 0], asking 1 0x0212 (le 4 410000000 ++ le 4 2000 ++ le 2 20 ++ le 2 0 ++ [0, 0, 0, 0]) (base), stands_base 0x0212 _ (by decide), by decide⟩,
    ⟨none, ⟨⟨1, none, none⟩, le 4 868000000 ++ [1, 40, 1, 0] ++ le 4 60000, asking 1 0x0220 (le 4 868000000 ++ [1, 40, 1, 0] ++ le 4 60000) (outsideOk (updPwr (fun w => { w with mode := .service }) base)), stands_asking 1 0x0220 _ (outsideOk (updPwr (fun w => { w with mode := .service }) base)) (by decide) (by decide) (by decide) (by decide) (by decide) (by decide), by decide⟩⟩,
    ⟨⟨0, some 0, 5⟩, sending .test, ⟨⟨1, none, none⟩, [], asking 1 0x0221 ([]) (updRadio (fun r => { r with test := some ⟨0, some 0, 5⟩, onAir := some (sending .test) }) base), stands_asking 1 0x0221 _ (updRadio (fun r => { r with test := some ⟨0, some 0, 5⟩, onAir := some (sending .test) }) base) (by decide) (by decide) (by decide) (by decide) (by decide) (by decide), by decide⟩⟩,
    ⟨⟨0, none, 5⟩, sending .test, ⟨⟨1, none, none⟩, [], asking 1 0x0221 ([]) (updRadio (fun r => { r with test := some ⟨0, none, 5⟩, held := some (sending .test) }) base), stands_asking 1 0x0221 _ (updRadio (fun r => { r with test := some ⟨0, none, 5⟩, held := some (sending .test) }) base) (by decide) (by decide) (by decide) (by decide) (by decide) (by decide), by decide⟩⟩⟩

/-- What `Obligations.LanesAndCanarySettings` asks is met. -/
theorem test_LanesAndCanarySettings :
    let lane (p : List Byte) : LaneCfg :=
      { enable := u8 p 1, phy := u8 p 2, path := u8 p 3, offset := i32 p 4, chan := u32 p 8, rate := u32 p 12, phycfg := u32 p 16 }
    let fits (p : List Byte) (s : State) : Prop :=
      p.length = 20 ∧ u8 p 0 < laneCount s ∧ u8 p 1 ≤ 1 ∧ 1 ≤ u8 p 2 ∧ u8 p 2 ≤ 3 ∧ u8 p 3 ≤ (if Config.pathB s.dev.variant then 2 else 0) ∧
      (if Config.wideband s.dev.variant then -7200000 ≤ 2 * i32 p 4 - (u32 p 8 : Int) ∧ 2 * i32 p 4 + (u32 p 8 : Int) ≤ 7200000 else i32 p 4 = 0) ∧
      chanOk (u8 p 2) (u32 p 12) (u32 p 8) (u32 p 16) ∧ rateOk (u8 p 2) (u32 p 12) ∧ phycfgOk (u8 p 2) (u32 p 16) ∧
      (u8 p 1 = 0 ∨ Config.wideband s.dev.variant = false ∨ unitsWith s (u8 p 0) (lane p) ≤ Config.laneBudget s.dev.variant)
    (∃ (v : Srv) (p : List Byte) (s : State), Stands 0x0301 v p s ∧ Unhindered 0x0301 s ∧ fits p s) ∧
    (∃ (v : Srv) (p : List Byte) (s : State), Stands 0x0320 v p s ∧ Unhindered 0x0320 s ∧ p.length = 16 ∧ u8 p 0 ≤ 15 ∧ u8 p 1 = 0 ∧ zeros p 3 1 ∧ zeros p 6 2) ∧
    (∃ (v : Srv) (p : List Byte) (s : State), Stands 0x0320 v p s ∧ Unhindered 0x0320 s ∧ p.length = 16 ∧ u8 p 0 ≤ 15 ∧ 1 ≤ u8 p 1 ∧ u8 p 1 ≤ 3 ∧ zeros p 3 1 ∧ zeros p 6 2 ∧ rateOk (u8 p 1) (u32 p 8) ∧ phycfgOk (u8 p 1) (u32 p 12) ∧ (if u8 p 1 = 2 then 0 < ndbps (u32 p 8) (u8 p 2) else u8 p 2 = 0) ∧ (if u8 p 1 = 1 then 4 ≤ u16 p 4 ∧ u16 p 4 ≤ 1000 else u16 p 4 = 0)) ∧
    (∃ (v : Srv) (p : List Byte) (s : State), Stands 0x0401 v p s ∧ Unhindered 0x0401 s ∧ p.length = 36 ∧ u8 p 0 ≤ 1 ∧ u8 p 1 ≤ 3 ∧ (u8 p 0 = 0 ∨ u32 p (4 + 4 * u8 p 1) ≠ 0) ∧ u8 p 2 < 16 ∧ u8 p 3 ≤ 30 ∧ canarySlotOk (u32 p 4) ∧ canarySlotOk (u32 p 8) ∧ canarySlotOk (u32 p 12) ∧ canarySlotOk (u32 p 16) ∧ unle (slice p 20 16) % 2 = 0) ∧
    (∃ (v : Srv) (p : List Byte) (s : State), Stands 0x0410 v p s ∧ Unhindered 0x0410 s ∧ freeSlot s ≠ none ∧ p.length = 24 ∧ u32 p 0 < 2 ^ 25 ∧ u8 p 4 ≤ 127 ∧ 1 ≤ u8 p 5 ∧ u8 p 5 ≤ 8 ∧ -40 ≤ i8 p 6 ∧ i8 p 6 ≤ 40 ∧ u8 p 7 ≤ 2 ∧ freqOk (wakeHz s (u32 p 8)) ∧ zeros p 12 4 ∧ u64 p 16 < 2 ^ 56 ∧ linkModes s ∧ s.canary.send = none) := by
  dsimp only
  exact ⟨⟨⟨1, none, none⟩, [0, 1, 1, 0] ++ le 4 0 ++ le 4 200000 ++ le 4 50000 ++ le 4 0, asking 1 0x0301 ([0, 1, 1, 0] ++ le 4 0 ++ le 4 200000 ++ le 4 50000 ++ le 4 0) (base), stands_base 0x0301 _ (by decide), by decide⟩,
    ⟨⟨1, none, none⟩, [15] ++ List.replicate 15 0, asking 1 0x0320 ([15] ++ List.replicate 15 0) (base), stands_base 0x0320 _ (by decide), by decide⟩,
    ⟨⟨1, none, none⟩, [15, 1, 0, 0] ++ le 2 1000 ++ [0, 0] ++ le 4 400000 ++ le 4 2, asking 1 0x0320 ([15, 1, 0, 0] ++ le 2 1000 ++ [0, 0] ++ le 4 400000 ++ le 4 2) (base), stands_base 0x0320 _ (by decide), by decide⟩,
    ⟨⟨1, none, none⟩, [1, 3, 15, 30] ++ le 4 0 ++ le 4 0 ++ le 4 0 ++ le 4 868000000 ++ List.replicate 16 0, asking 1 0x0401 ([1, 3, 15, 30] ++ le 4 0 ++ le 4 0 ++ le 4 0 ++ le 4 868000000 ++ List.replicate 16 0) (base), stands_base 0x0401 _ (by decide), by decide⟩,
    ⟨⟨1, none, none⟩, le 4 (2 ^ 25 - 1) ++ [127, 8, 40, 2] ++ le 4 868000000 ++ List.replicate 4 0 ++ le 8 (2 ^ 56 - 1), asking 1 0x0410 (le 4 (2 ^ 25 - 1) ++ [127, 8, 40, 2] ++ le 4 868000000 ++ List.replicate 4 0 ++ le 8 (2 ^ 56 - 1)) (base), stands_base 0x0410 _ (by decide), by decide⟩⟩

/-- What `Obligations.LinkSettings` asks is met. -/
theorem test_LinkSettings :
    (∃ (v : Srv) (p : List Byte) (s : State), Stands 0x0501 v p s ∧ Unhindered 0x0501 s ∧ (p.length = 56 ∧ (u32 p 0 = unassigned ∨ (assignable (u32 p 0) ∧ findShort s (u32 p 0) = none)) ∧ u8 p 4 ≤ 15 ∧ u8 p 5 ≤ 15 ∧ u8 p 6 ≤ 1 ∧ u8 p 7 ≤ 15 ∧ 1 ≤ u16 p 8 ∧ 1 ≤ u16 p 10 ∧ queuePresent s (u16 p 12) ∧ queuePresent s (u16 p 14) ∧ linkSlot (u8 p 16) ∧ u8 p 17 ≤ 2 ∧ (∀ i, i < 8 → u32 p (20 + 4 * i) = 0 ∨ isGroup (u32 p (20 + 4 * i))) ∧ zeros p 53 3) ∧ Savable 52 v p ∧ exchange s = false) ∧ (∃ (v : Srv) (p : List Byte) (s : State), Stands 0x0501 v p s ∧ Unhindered 0x0501 s ∧ (p.length = 56 ∧ (u32 p 0 = unassigned ∨ (assignable (u32 p 0) ∧ findShort s (u32 p 0) = none)) ∧ u8 p 4 ≤ 15 ∧ u8 p 5 ≤ 15 ∧ u8 p 6 ≤ 1 ∧ u8 p 7 ≤ 15 ∧ 1 ≤ u16 p 8 ∧ 1 ≤ u16 p 10 ∧ queuePresent s (u16 p 12) ∧ queuePresent s (u16 p 14) ∧ linkSlot (u8 p 16) ∧ u8 p 17 ≤ 2 ∧ (∀ i, i < 8 → u32 p (20 + 4 * i) = 0 ∨ isGroup (u32 p (20 + 4 * i))) ∧ zeros p 53 3) ∧ u8 p 52 = 0 ∧ exchange s = true) ∧
    (∃ (v : Srv) (p : List Byte) (s : State), Stands 0x0510 v p s ∧ Unhindered 0x0510 s ∧ (p.length = 72 ∧ Pass (nbrChecks s p) ∧ zeros p 3 1) ∧ Savable 2 v p ∧ exchange s = false) ∧ (∃ (v : Srv) (p : List Byte) (s : State), Stands 0x0510 v p s ∧ Unhindered 0x0510 s ∧ (p.length = 72 ∧ Pass (nbrChecks s p) ∧ zeros p 3 1) ∧ u8 p 2 = 0 ∧ exchange s = true) ∧
    (∃ (v : Srv) (p : List Byte) (s : State), Stands 0x0520 v p s ∧ Unhindered 0x0520 s ∧ (p.length = 16 ∧ zeros p 3 1 ∧ zeros p 7 1 ∧ zeros p 14 2 ∧ (u16 p 0 < Config.routeRanges s.dev.variant ∧ u8 p 4 ≤ 1 ∧ u32 p 8 < 2 ^ 25 ∧ (u8 p 4 = 1 → u8 p 5 ≤ 25 ∧ 1 ≤ u8 p 6 ∧ u8 p 6 ≤ 63 ∧ u32 p 8 % 2 ^ u8 p 5 = 0 ∧ u16 p 12 < nbrCount s ∧ s.link.route.any (fun y => y.1 != u16 p 0 && y.2.valid == 1 && y.2.base == u32 p 8 && y.2.size == u8 p 5) = false)) ∧ u16 p 0 ≠ 0xFFFF) ∧ Savable 2 v p ∧ exchange s = false) ∧ (∃ (v : Srv) (p : List Byte) (s : State), Stands 0x0520 v p s ∧ Unhindered 0x0520 s ∧ (p.length = 16 ∧ zeros p 3 1 ∧ zeros p 7 1 ∧ zeros p 14 2 ∧ (u16 p 0 < Config.routeRanges s.dev.variant ∧ u8 p 4 ≤ 1 ∧ u32 p 8 < 2 ^ 25 ∧ (u8 p 4 = 1 → u8 p 5 ≤ 25 ∧ 1 ≤ u8 p 6 ∧ u8 p 6 ≤ 63 ∧ u32 p 8 % 2 ^ u8 p 5 = 0 ∧ u16 p 12 < nbrCount s ∧ s.link.route.any (fun y => y.1 != u16 p 0 && y.2.valid == 1 && y.2.base == u32 p 8 && y.2.size == u8 p 5) = false)) ∧ u16 p 0 ≠ 0xFFFF) ∧ u8 p 2 = 0 ∧ exchange s = true) ∧
    (∃ (v : Srv) (p : List Byte) (s : State), Stands 0x0520 v p s ∧ Unhindered 0x0520 s ∧ (p.length = 16 ∧ zeros p 3 1 ∧ zeros p 7 1 ∧ zeros p 14 2 ∧ u16 p 0 = 0xFFFF ∧ u8 p 4 = 1 ∧ u8 p 5 = 0 ∧ 1 ≤ u8 p 6 ∧ u8 p 6 ≤ 63 ∧ u32 p 8 = 0 ∧ u16 p 12 < nbrCount s) ∧ Savable 2 v p ∧ exchange s = false) ∧ (∃ (v : Srv) (p : List Byte) (s : State), Stands 0x0520 v p s ∧ Unhindered 0x0520 s ∧ (p.length = 16 ∧ zeros p 3 1 ∧ zeros p 7 1 ∧ zeros p 14 2 ∧ u16 p 0 = 0xFFFF ∧ u8 p 4 = 1 ∧ u8 p 5 = 0 ∧ 1 ≤ u8 p 6 ∧ u8 p 6 ≤ 63 ∧ u32 p 8 = 0 ∧ u16 p 12 < nbrCount s) ∧ u8 p 2 = 0 ∧ exchange s = true) := by
  exact ⟨⟨⟨1, none, none⟩, le 4 0x1FFFFFE ++ [15, 15, 1, 15] ++ le 2 1 ++ le 2 1 ++ le 2 0 ++ le 2 0 ++ [0xFF, 2, 0, 0] ++ le 4 0x1FF0000 ++ List.replicate 32 0, asking 1 0x0501 _ (base), stands_asking 1 0x0501 _ (base) (by decide) (by decide) (by decide) (by decide) (by decide) (by decide), by decide⟩, ⟨⟨1, none, none⟩, le 4 0x1FFFFFE ++ [15, 15, 1, 15] ++ le 2 1 ++ le 2 1 ++ le 2 0 ++ le 2 0 ++ [0xFF, 2, 0, 0] ++ le 4 0x1FF0000 ++ List.replicate 32 0, asking 1 0x0501 _ (onAirNow base), stands_asking 1 0x0501 _ (onAirNow base) (by decide) (by decide) (by decide) (by decide) (by decide) (by decide), by decide⟩,
    ⟨⟨1, none, none⟩, le 2 0 ++ [0, 0] ++ le 4 1 ++ le 4 0x1FEFFFF ++ List.replicate 60 0, asking 1 0x0510 _ (base), stands_asking 1 0x0510 _ (base) (by decide) (by decide) (by decide) (by decide) (by decide) (by decide), by decide⟩, ⟨⟨1, none, none⟩, le 2 0 ++ [0, 0] ++ le 4 1 ++ le 4 0x1FEFFFF ++ List.replicate 60 0, asking 1 0x0510 _ (onAirNow base), stands_asking 1 0x0510 _ (onAirNow base) (by decide) (by decide) (by decide) (by decide) (by decide) (by decide), by decide⟩,
    ⟨⟨1, none, none⟩, le 2 0 ++ [0, 0] ++ [1, 25, 63, 0] ++ le 4 0 ++ le 2 0 ++ [0, 0], asking 1 0x0520 _ (base), stands_asking 1 0x0520 _ (base) (by decide) (by decide) (by decide) (by decide) (by decide) (by decide), by decide⟩, ⟨⟨1, none, none⟩, le 2 0 ++ [0, 0] ++ [1, 25, 63, 0] ++ le 4 0 ++ le 2 0 ++ [0, 0], asking 1 0x0520 _ (onAirNow base), stands_asking 1 0x0520 _ (onAirNow base) (by decide) (by decide) (by decide) (by decide) (by decide) (by decide), by decide⟩,
    ⟨⟨1, none, none⟩, le 2 0xFFFF ++ [0, 0] ++ [1, 0, 1, 0] ++ le 4 0 ++ le 2 0 ++ [0, 0], asking 1 0x0520 _ (base), stands_asking 1 0x0520 _ (base) (by decide) (by decide) (by decide) (by decide) (by decide) (by decide), by decide⟩, ⟨⟨1, none, none⟩, le 2 0xFFFF ++ [0, 0] ++ [1, 0, 1, 0] ++ le 4 0 ++ le 2 0 ++ [0, 0], asking 1 0x0520 _ (onAirNow base), stands_asking 1 0x0520 _ (onAirNow base) (by decide) (by decide) (by decide) (by decide) (by decide) (by decide), by decide⟩⟩

/-- What `Obligations.LinkWork` asks is met. -/
theorem test_LinkWork :
    let join (slot : Nat) (p : List Byte) (s : State) : Join :=
      { slot := slot, token := u32 p 0, left := u8 p 4 - 1, intervalMs := u16 p 6, nextAt := mtAdd s.clk.mtime (usTicks (1000 * u16 p 6) : Nat),
        endAt := mtAdd s.clk.mtime (u16 p 8 * 2 ^ 24 : Nat), role := u8 p 5, data := slice p 16 (u8 p 12) }
    let joinReply (slot : Nat) (p : List Byte) (s : State) : Option State :=
      let eui := slice p 0 8
      let i := findEui s eui
      let seq := match i with | some k => (nbrOf s k).txSeq | none => s.link.bcastSeq
      let body := le 1 2 ++ le 1 (u8 p 12) ++ le 1 s.link.cfg.net ++ le 1 (u8 p 13) ++ slice p 8 4 ++ le 4 (u32 p 16) ++ le 4 s.link.cfg.ownShort ++
        le 1 (u8 p 20) ++ le 3 0 ++ slice p 24 (u8 p 20)
      (originate (.joinReply slot) i (frameHead (frameFc 2 false i.isSome true true false 0 false) seq s.link.cfg.net eui s.dev.eui64) body none seq i.isSome false
        (replyProfile s eui) s.radio.home false s).map (fun t => match i with
          | some k => updNbr k (fun e => { e with txSeq := (e.txSeq + 1) % 4096 }) t
          | none => updLink (fun l => { l with bcastSeq := (l.bcastSeq + 1) % 4096 }) t)
    (∃ (t' : State), (∃ (v : Srv) (p : List Byte) (s : State), Stands 0x0530 v p s ∧ Unhindered 0x0530 s ∧ freeSlot s ≠ none ∧ p.length = 16 + u8 p 12 ∧ u8 p 12 ≤ 32 ∧ (profileOf s s.link.cfg.bcastProfile).phy ≠ 0 ∧ 1 ≤ u8 p 4 ∧ u8 p 4 ≤ 16 ∧ u8 p 5 ≤ 1 ∧ 100 ≤ u16 p 6 ∧ u16 p 6 ≤ 60000 ∧ 1 ≤ u16 p 8 ∧ u16 p 8 ≤ 3600 ∧ zeros p 10 2 ∧ zeros p 13 3 ∧ linkModes s ∧ ¬ ownAssigned s ∧ s.link.join = none ∧ sendJoinReq (join 0 p (taken s)) (taken s) = some t')) ∧
    (∃ (t' : Nat → State), (∃ (v : Srv) (p : List Byte) (s : State), Stands 0x0531 v p s ∧ Unhindered 0x0531 s ∧ freeSlot s ≠ none ∧ p.length = 24 + u8 p 20 ∧ u8 p 20 ≤ 64 ∧ (profileOf s (replyProfile s (slice p 0 8))).phy ≠ 0 ∧ u8 p 12 ≤ 1 ∧ 1 ≤ u8 p 13 ∧ u8 p 13 ≤ 63 ∧ zeros p 14 2 ∧ (if u8 p 12 = 0 then assignable (u32 p 16) = true else u32 p 16 < 2 ^ 25) ∧ zeros p 21 3 ∧ ∀ k, joinReply k p (taken s) = some (t' k))) ∧
    (∃ (t' : Nat → State), (∃ (v : Srv) (p : List Byte) (s : State), Stands 0x0611 v p s ∧ Unhindered 0x0611 s ∧ freeSlot s ≠ none ∧ p.length = 4 ∧ zeros p 2 2 ∧ linkModes s ∧ (u16 p 0 = 0xFFFF ∨ (u16 p 0 < nbrCount s ∧ (nbrOf s (u16 p 0)).state ≠ .free)) ∧ ∀ k, beaconTo (.beacon k) (if u16 p 0 = 0xFFFF then none else some (u16 p 0)) s.radio.home (u16 p 0 != 0xFFFF && (nbrOf s (u16 p 0)).rdv) (taken s) = some (t' k))) ∧
    (∃ (v : Srv) (p : List Byte) (s : State), Stands 0x0612 v p s ∧ Unhindered 0x0612 s ∧ freeSlot s ≠ none ∧ p.length = 4 ∧ u16 p 0 < nbrCount s ∧ (nbrOf s (u16 p 0)).state ≠ .free ∧ zeros p 2 2 ∧ linkModes s) := by
  dsimp only
  exact ⟨⟨_, ⟨⟨1, none, none⟩, le 4 0 ++ [16, 1] ++ le 2 60000 ++ le 2 3600 ++ [0, 0, 32, 0, 0, 0] ++ List.replicate 32 0, asking 1 0x0530 (le 4 0 ++ [16, 1] ++ le 2 60000 ++ le 2 3600 ++ [0, 0, 32, 0, 0, 0] ++ List.replicate 32 0) (unassignedOwn base), stands_asking 1 0x0530 _ (unassignedOwn base) (by decide) (by decide) (by decide) (by decide) (by decide) (by decide), ⟨by decide, by decide, by decide, by decide, by decide, by decide, by decide, by decide, by decide, by decide, by decide, by decide, by decide, by decide, by decide, by decide, by decide, rfl⟩⟩⟩,
    ⟨_, ⟨⟨1, none, none⟩, List.replicate 8 0 ++ List.replicate 4 0 ++ [1, 63, 0, 0] ++ le 4 (2 ^ 25 - 1) ++ [0, 0, 0, 0], asking 1 0x0531 (List.replicate 8 0 ++ List.replicate 4 0 ++ [1, 63, 0, 0] ++ le 4 (2 ^ 25 - 1) ++ [0, 0, 0, 0]) (unassignedOwn base), stands_asking 1 0x0531 _ (unassignedOwn base) (by decide) (by decide) (by decide) (by decide) (by decide) (by decide), ⟨by decide, by decide, by decide, by decide, by decide, by decide, by decide, by decide, by decide, by decide, by decide, fun _ => rfl⟩⟩⟩,
    ⟨_, ⟨⟨1, none, none⟩, [0xFF, 0xFF, 0, 0], asking 1 0x0611 ([0xFF, 0xFF, 0, 0]) (base), stands_base 0x0611 _ (by decide), ⟨by decide, by decide, by decide, by decide, by decide, by decide, fun _ => rfl⟩⟩⟩,
    ⟨⟨1, none, none⟩, [0, 0, 0, 0], asking 1 0x0612 ([0, 0, 0, 0]) (withNbr 0 base), stands_asking 1 0x0612 _ (withNbr 0 base) (by decide) (by decide) (by decide) (by decide) (by decide) (by decide), by decide⟩⟩

/-- What `Obligations.TimingAndTallySettings` asks is met. -/
theorem test_TimingAndTallySettings :
    (∃ (v : Srv) (p : List Byte) (s : State), Stands 0x0601 v p s ∧ Unhindered 0x0601 s ∧ p.length = 44 ∧ ((timingCfgOf p).ownPeriod = 0 ∨ 100 ≤ (timingCfgOf p).ownPeriod) ∧ u8 p 3 ≤ 15 ∧ ((timingCfgOf p).ownPeriod = 0 ∨ u32 p 4 * 256000 < (timingCfgOf p).ownPeriod * 2 ^ 24) ∧ 10 ≤ u16 p 8 ∧ u16 p 10 ≤ 1000 ∧ 1000 ≤ u32 p 12 ∧ u32 p 12 ≤ 1000000 ∧ u8 p 16 < 8 ∧ 1 ≤ u8 p 17 ∧ u8 p 17 ≤ 8 ∧ 10 ≤ u16 p 18 ∧ u16 p 18 ≤ 5000 ∧ 100 ≤ u16 p 20 ∧ u16 p 20 ≤ 10000 ∧ 1 ≤ u16 p 22 ∧ u16 p 22 ≤ 3600 ∧ (u32 p 24 = 0 ∨ freqOk (u32 p 24)) ∧ -100000 ≤ i32 p 28 ∧ i32 p 28 ≤ 100000 ∧ dateOk (dateOf p 32) ∧ zeros p 39 1 ∧ Savable 40 v p ∧ zeros p 41 3) ∧
    (∃ (v : Srv) (p : List Byte) (s : State), Stands 0x0603 v p s ∧ Unhindered 0x0603 s ∧ p.length = 4 + 4 * u8 p 1 ∧ 1 ≤ u8 p 0 ∧ u8 p 0 ≤ 15 ∧ 1 ≤ u8 p 1 ∧ u8 p 1 ≤ 16 ∧ Savable 2 v p ∧ zeros p 3 1 ∧ ∀ i, i < u8 p 1 → freqOk (u32 p (4 + 4 * i))) ∧
    (∃ (v : Srv) (p : List Byte) (s : State), Stands 0x0610 v p s ∧ Unhindered 0x0610 s ∧ p.length = 12 ∧ (u8 p 8 = 0 ∧ u64 p 0 < 2 ^ 56 ∨ u8 p 8 = 1 ∧ s.rtc.osf = false) ∧ zeros p 9 3 ∧ bit s.timing.cfg.flags 0 = true) ∧
    (∃ (v : Srv) (p : List Byte) (s : State), Stands 0x0620 v p s ∧ p.length = 0 ∧ s.clk.sync = true ∧ networkTime s / 2 ^ 24 ≤ lastSecond) ∧
    (∃ (v : Srv) (p : List Byte) (s : State), Stands 0x0700 v p s ∧ Unhindered 0x0700 s ∧ p.length = 4 ∧ u8 p 0 ≤ 1 ∧ Savable 1 v p ∧ zeros p 2 2) ∧
    (∃ (v : Srv) (p : List Byte) (s : State), Stands 0x0702 v p s ∧ Unhindered 0x0702 s ∧ p.length = 40 ∧ u8 p 0 ≤ 15 ∧ u8 p 1 ≤ 1 ∧ u8 p 2 ≤ 1 ∧ Savable 3 v p ∧ freqOk (u32 p 4) ∧ freqOk (u32 p 8) ∧ u32 p 4 ≤ u32 p 8 ∧ 1 ≤ u32 p 12 ∧ u32 p 12 ≤ 1000000 ∧ u32 p 16 ≤ u32 p 12 ∧ u32 p 20 ≤ 3600000 ∧ 2000 ≤ u32 p 24 ∧ u32 p 24 ≤ 1600000 ∧ 20 ≤ u16 p 30 ∧ u16 p 32 ≤ u16 p 34 ∧ 1 ≤ u8 p 36 ∧ u8 p 36 ≤ 15 ∧ zeros p 37 3) ∧
    (∃ (v : Srv) (p : List Byte) (s : State), Stands 0x0720 v p s ∧ Unhindered 0x0720 s ∧ p.length = 4 ∧ (u8 p 0 ≤ 15 ∨ u8 p 0 = 0xFF) ∧ zeros p 1 3 ∧ s.pwr.mode = .service) := by
  exact ⟨⟨⟨1, none, none⟩, le 3 100 ++ [15] ++ le 4 0 ++ le 2 10 ++ le 2 1000 ++ le 4 1000000 ++ [7, 8] ++ le 2 5000 ++ le 2 10000 ++ le 2 3600 ++ le 4 960000000 ++ le 4 100000 ++ le 2 2199 ++ [12, 31, 23, 59, 59, 0, 1, 0, 0, 0], asking 1 0x0601 (le 3 100 ++ [15] ++ le 4 0 ++ le 2 10 ++ le 2 1000 ++ le 4 1000000 ++ [7, 8] ++ le 2 5000 ++ le 2 10000 ++ le 2 3600 ++ le 4 960000000 ++ le 4 100000 ++ le 2 2199 ++ [12, 31, 23, 59, 59, 0, 1, 0, 0, 0]) (base), stands_base 0x0601 _ (by decide), by decide⟩,
    ⟨⟨1, none, none⟩, [15, 1, 1, 0] ++ le 4 750000000, asking 1 0x0603 ([15, 1, 1, 0] ++ le 4 750000000) (base), stands_base 0x0603 _ (by decide), by decide⟩,
    ⟨⟨1, none, none⟩, le 8 (2 ^ 56 - 1) ++ [0, 0, 0, 0], asking 1 0x0610 (le 8 (2 ^ 56 - 1) ++ [0, 0, 0, 0]) (updTiming (fun x => { x with cfg := { x.cfg with flags := 1 } }) base), stands_asking 1 0x0610 _ (updTiming (fun x => { x with cfg := { x.cfg with flags := 1 } }) base) (by decide) (by decide) (by decide) (by decide) (by decide) (by decide), by decide⟩,
    ⟨⟨1, none, none⟩, [], asking 1 0x0620 ([]) (updClk (fun c => { c with sync := true }) base), stands_asking 1 0x0620 _ (updClk (fun c => { c with sync := true }) base) (by decide) (by decide) (by decide) (by decide) (by decide) (by decide), by decide⟩,
    ⟨⟨1, none, none⟩, [1, 1, 0, 0], asking 1 0x0700 ([1, 1, 0, 0]) (base), stands_base 0x0700 _ (by decide), by decide⟩,
    ⟨⟨1, none, none⟩, [15, 1, 1, 1] ++ le 4 410000000 ++ le 4 960000000 ++ le 4 1000000 ++ le 4 1000000 ++ le 4 3600000 ++ le 4 1600000 ++ le 2 0 ++ le 2 20 ++ le 2 0 ++ le 2 0 ++ [15, 0, 0, 0], asking 1 0x0702 ([15, 1, 1, 1] ++ le 4 410000000 ++ le 4 960000000 ++ le 4 1000000 ++ le 4 1000000 ++ le 4 3600000 ++ le 4 1600000 ++ le 2 0 ++ le 2 20 ++ le 2 0 ++ le 2 0 ++ [15, 0, 0, 0]) (base), stands_base 0x0702 _ (by decide), by decide⟩,
    ⟨⟨1, none, none⟩, [0xFF, 0, 0, 0], asking 1 0x0720 ([0xFF, 0, 0, 0]) (updPwr (fun w => { w with mode := .service }) base), stands_asking 1 0x0720 _ (updPwr (fun w => { w with mode := .service }) base) (by decide) (by decide) (by decide) (by decide) (by decide) (by decide), by decide⟩⟩

/-- What `Obligations.QueueAndFlowSettings` asks is met. -/
theorem test_QueueAndFlowSettings :
    (∃ (v : Srv) (p : List Byte) (s : State), Stands 0x0801 v p s ∧ Unhindered 0x0801 s ∧ p.length = 8 ∧ queuePresent s (u16 p 0) ∧ u8 p 2 ≤ 1 ∧ Savable 3 v p ∧ u16 p 4 ≤ 8191) ∧
    (∃ (v : Srv) (p : List Byte) (s : State), Stands 0x0804 v p s ∧ Unhindered 0x0804 s ∧ p.length = 4 ∧ u16 p 0 ≤ Config.cells s.dev.variant / 4 ∧ Savable 2 v p ∧ zeros p 3 1) ∧
    (∃ (v : Srv) (p : List Byte) (s : State), Stands 0x0810 v p s ∧ Unhindered 0x0810 s ∧ p.length = 4 ∧ queuePresent s (u16 p 0) ∧ zeros p 2 2) ∧
    (∃ (v : Srv) (p : List Byte) (s : State), Stands 0x0901 v p s ∧ Unhindered 0x0901 s ∧ p.length = 12 ∧ u16 p 0 ≤ 255 ∧ u8 p 2 ≤ 1 ∧ u8 p 3 ≤ 1 ∧ 1 ≤ u16 p 4 ∧ (u16 p 6 = 0xFFFF ∨ queuePresent s (u16 p 6)) ∧ (u8 p 2 = 1 → queueTaken s (u16 p 0) (u16 p 6) = false) ∧ (u8 p 8 ≤ 127 ∨ u8 p 8 = 0xFF) ∧ Savable 9 v p ∧ zeros p 10 2) ∧
    (∃ (v : Srv) (p : List Byte) (s : State), Stands 0x0904 v p s ∧ Unhindered 0x0904 s ∧ p.length = 12 ∧ u8 p 0 ≤ 127 ∧ u8 p 1 ≤ 1 ∧ Savable 2 v p ∧ zeros p 3 1 ∧ zeros p 6 2 ∧ 1 ≤ u32 p 8 ∧ u32 p 8 < 2 ^ 20) := by
  exact ⟨⟨⟨1, none, none⟩, [0, 0, 1, 1] ++ le 2 8191 ++ [0, 0], asking 1 0x0801 ([0, 0, 1, 1] ++ le 2 8191 ++ [0, 0]) (base), stands_base 0x0801 _ (by decide), by decide⟩,
    ⟨⟨1, none, none⟩, [0, 0, 1, 0], asking 1 0x0804 ([0, 0, 1, 0]) (base), stands_base 0x0804 _ (by decide), by decide⟩,
    ⟨⟨1, none, none⟩, [0, 0, 0, 0], asking 1 0x0810 ([0, 0, 0, 0]) (base), stands_base 0x0810 _ (by decide), by decide⟩,
    ⟨⟨1, none, none⟩, [255, 0, 1, 1] ++ le 2 1 ++ le 2 0 ++ [127, 1, 0, 0], asking 1 0x0901 ([255, 0, 1, 1] ++ le 2 1 ++ le 2 0 ++ [127, 1, 0, 0]) (base), stands_base 0x0901 _ (by decide), by decide⟩,
    ⟨⟨1, none, none⟩, [127, 1, 1, 0] ++ le 2 0 ++ [0, 0] ++ le 4 (2 ^ 20 - 1), asking 1 0x0904 ([127, 1, 1, 0] ++ le 2 0 ++ [0, 0] ++ le 4 (2 ^ 20 - 1)) (base), stands_base 0x0904 _ (by decide), by decide⟩⟩

/-- What `Obligations.CipherCommands` asks is met. -/
theorem test_CipherCommands :
    (∃ (v : Srv) (p : List Byte) (s : State), Stands 0x0A02 v p s ∧ Unhindered 0x0A02 s ∧ p.length = 4 ∧ 2 ≤ u8 p 0 ∧ u8 p 0 ≤ 63 ∧ (slotOf s (u8 p 0)).state ≠ 0 ∧ (u8 p 1 = 1 ∨ u8 p 1 = 2) ∧ within (BitVec.ofNat 8 (u8 p 2)) (slotOf s (u8 p 0)).allowed ∧ zeros p 3 1 ∧ v.wFail = none) ∧
    (∃ (v : Srv) (p : List Byte) (s : State), Stands 0x0A12 v p s ∧ Unhindered 0x0A12 s ∧ p.length = 24 ∧ 3 ≤ u8 p 0 ∧ u8 p 0 ≤ 63 ∧ (slotOf s (u8 p 0)).state = 0 ∧ (u8 p 1 = 1 ∨ u8 p 1 = 2) ∧ u8 p 2 ≤ 1 ∧ within (BitVec.ofNat 8 (u8 p 3)) 0x38 ∧ within (BitVec.ofNat 8 (u8 p 4)) (BitVec.ofNat 8 (u8 p 3)) ∧ zeros p 5 3 ∧ (if u8 p 2 = 0 then zeros p 8 16 = true else u8 p 8 ≠ 0xFF) ∧ s.cipher.halt = false ∧ v.wFail = none) ∧
    (∃ (v : Srv) (p : List Byte) (s : State), Stands 0x0A20 v p s ∧ Unhindered 0x0A20 s ∧ freeSlot s ≠ none ∧ p.length = 48 ∧ Pass (runChecks s p) ∧ s.cipher.halt = false) ∧
    (∃ (v : Srv) (p : List Byte) (s : State), Stands 0x0A21 v p s ∧ p.length = 4 ∧ 1 ≤ u8 p 0 ∧ u8 p 0 ≤ 224 ∧ zeros p 1 3 ∧ s.cipher.halt = false) ∧
    (∃ (v : Srv) (p : List Byte) (s : State), Stands 0x0A22 v p s ∧ Unhindered 0x0A22 s ∧ freeSlot s ≠ none ∧ p.length = 12 ∧ zeros p 1 3 ∧ (u8 p 0 = 0 ∧ 0x1000 ≤ u32 p 4 ∧ u32 p 4 + u32 p 8 ≤ 0x8000 ∨ u8 p 0 = 1 ∧ u32 p 8 ≤ 0x1000000 ∧ xipRange s (u32 p 4) (min (u32 p 8) 1) ∧ xipRange s (u32 p 4) (u32 p 8))) ∧
    (∃ (v : Srv) (p : List Byte) (s : State), Stands 0x0A23 v p s ∧ Unhindered 0x0A23 s ∧ freeSlot s ≠ none ∧ p.length = 160) := by
  exact ⟨⟨⟨1, none, none⟩, [63, 2, 0x3F, 0], asking 1 0x0A02 ([63, 2, 0x3F, 0]) (withKey 63 base), stands_asking 1 0x0A02 _ (withKey 63 base) (by decide) (by decide) (by decide) (by decide) (by decide) (by decide), by decide⟩,
    ⟨⟨1, none, none⟩, [63, 2, 0, 0x38, 0x38, 0, 0, 0] ++ List.replicate 16 0, asking 1 0x0A12 ([63, 2, 0, 0x38, 0x38, 0, 0, 0] ++ List.replicate 16 0) (base), stands_base 0x0A12 _ (by decide), by decide⟩,
    ⟨⟨1, none, none⟩, [2, 4, 16, 0] ++ le 2 0 ++ le 2 0 ++ le 2 0x400 ++ le 2 16 ++ List.replicate 4 0 ++ List.replicate 32 0, asking 1 0x0A20 ([2, 4, 16, 0] ++ le 2 0 ++ le 2 0 ++ le 2 0x400 ++ le 2 16 ++ List.replicate 4 0 ++ List.replicate 32 0) (withKey 2 base), stands_asking 1 0x0A20 _ (withKey 2 base) (by decide) (by decide) (by decide) (by decide) (by decide) (by decide), by decide⟩,
    ⟨⟨1, none, none⟩, [224, 0, 0, 0], asking 1 0x0A21 ([224, 0, 0, 0]) (base), stands_base 0x0A21 _ (by decide), by decide⟩,
    ⟨⟨1, none, none⟩, [0, 0, 0, 0] ++ le 4 0x1000 ++ le 4 0x7000, asking 1 0x0A22 ([0, 0, 0, 0] ++ le 4 0x1000 ++ le 4 0x7000) (base), stands_base 0x0A22 _ (by decide), by decide⟩,
    ⟨⟨1, none, none⟩, List.replicate 160 0, asking 1 0x0A23 (List.replicate 160 0) (base), stands_base 0x0A23 _ (by decide +kernel), ⟨by decide, by decide, List.length_replicate⟩⟩⟩

/-- What `Obligations.PowerAndFlashCommands` asks is met. -/
theorem test_PowerAndFlashCommands :
    (∃ (v : Srv) (p : List Byte) (s : State), Stands 0x0F01 v p s ∧ Unhindered 0x0F01 s ∧ p.length = 16 ∧ u8 p 0 < 16 ∧ u8 p 1 &&& Config.nbrBanks s.dev.variant = u8 p 1 ∧ u8 p 2 &&& Config.poolBanks s.dev.variant = u8 p 2 ∧ 1 ≤ u8 p 3 ∧ u8 p 3 ≤ 5 ∧ u8 p 4 < 8 ∧ u8 p 5 ≤ 1 ∧ u8 p 6 ≤ 1 ∧ zeros p 7 1 ∧ 1 ≤ u16 p 8 ∧ u16 p 8 ≤ 60000 ∧ u16 p 10 < 1024 ∧ Savable 12 v p ∧ zeros p 13 3) ∧
    (∃ (v : Srv) (p : List Byte) (s : State), Stands 0x0B10 v p s ∧ p.length = 8 ∧ 1 ≤ u16 p 4 ∧ u16 p 4 ≤ 224 ∧ zeros p 6 2 ∧ mailboxReads s (u32 p 0) (u16 p 4)) ∧
    (∃ (v : Srv) (p : List Byte) (s : State), Stands 0x0B11 v p s ∧ Unhindered 0x0B11 s ∧ freeSlot s ≠ none ∧ p.length = 8 + u16 p 4 ∧ u32 p 0 % 16 = 0 ∧ mailboxBlock s (u32 p 0 / blk) ∧ 16 ≤ u16 p 4 ∧ u16 p 4 ≤ 224 ∧ u16 p 4 % 16 = 0 ∧ u32 p 0 % blk + u16 p 4 ≤ blk ∧ u8 p 6 ≤ 1 ∧ zeros p 7 1) ∧
    (∃ (v : Srv) (p : List Byte) (s : State), Stands 0x0B12 v p s ∧ Unhindered 0x0B12 s ∧ freeSlot s ≠ none ∧ p.length = 4 ∧ 1 ≤ u8 p 2 ∧ u8 p 2 ≤ 16 ∧ u8 p 3 ≤ 1 ∧ (List.range (u8 p 2)).all (fun i => mailboxBlock s (u16 p 0 + i))) := by
  exact ⟨⟨⟨1, none, none⟩, [15, 0, 0, 5, 7, 1, 1, 0] ++ le 2 60000 ++ le 2 1023 ++ [1, 0, 0, 0], asking 1 0x0F01 ([15, 0, 0, 5, 7, 1, 1, 0] ++ le 2 60000 ++ le 2 1023 ++ [1, 0, 0, 0]) (base), stands_base 0x0F01 _ (by decide), by decide⟩,
    ⟨⟨1, none, none⟩, le 4 (16383 * 4096) ++ le 2 224 ++ [0, 0], asking 1 0x0B10 (le 4 (16383 * 4096) ++ le 2 224 ++ [0, 0]) (base), stands_base 0x0B10 _ (by decide), by decide⟩,
    ⟨⟨1, none, none⟩, le 4 (16383 * 4096 + 4080) ++ le 2 16 ++ [1, 0] ++ List.replicate 16 0, asking 1 0x0B11 (le 4 (16383 * 4096 + 4080) ++ le 2 16 ++ [1, 0] ++ List.replicate 16 0) (base), stands_base 0x0B11 _ (by decide), by decide⟩,
    ⟨⟨1, none, none⟩, le 2 16383 ++ [1, 1], asking 1 0x0B12 (le 2 16383 ++ [1, 1]) (base), stands_base 0x0B12 _ (by decide), by decide⟩⟩

/-- What `Obligations.UpdateCommands` asks is met. -/
theorem test_UpdateCommands :
    let owned (v : Srv) (s : State) : Prop := s.upd.owner = some (chanOwner s v.ch)
    (∃ (v : Srv) (p : List Byte) (s : State), Stands 0x0C10 v p s ∧ Unhindered 0x0C10 s ∧ freeSlot s ≠ none ∧ p.length = 8 ∧ 257 ≤ u32 p 0 ∧ u32 p 0 ≤ 4186112 ∧ zeros p 4 4 ∧ (s.upd.state = .empty ∨ s.upd.state = .verified ∨ s.upd.state = .invalid)) ∧
    (∃ (v : Srv) (p : List Byte) (s : State), Stands 0x0C11 v p s ∧ Unhindered 0x0C11 s ∧ p.length = 8 + u16 p 4 ∧ u32 p 0 % 16 = 0 ∧ 16 ≤ u16 p 4 ∧ u16 p 4 ≤ 224 ∧ u16 p 4 % 16 = 0 ∧ zeros p 6 2 ∧ owned v s ∧ (s.upd.state = .receiving ∨ s.upd.state = .verified) ∧ u32 p 0 + u16 p 4 ≤ (s.upd.size + 15) / 16 * 16 ∧ v.wFail = none ∧ (List.range (u16 p 4 / 16)).all (fun i => unitAgrees s (u32 p 0) (slice p 8 (u16 p 4)) i) ∧ (List.range (u16 p 4 / 16)).any (fun i => !tget false (u32 p 0 / 16 + i) s.upd.units)) ∧
    (∃ (v : Srv) (p : List Byte) (s : State), Stands 0x0C12 v p s ∧ Unhindered 0x0C12 s ∧ freeSlot s ≠ none ∧ p.length = 0 ∧ owned v s ∧ s.upd.state = .receiving) ∧
    (∃ (v : Srv) (p : List Byte) (s : State), Stands 0x0C22 v p s ∧ Unhindered 0x0C22 s ∧ p.length = 4 ∧ u8 p 0 = 0 ∧ zeros p 1 3 ∧ owned v s ∧ (s.upd.state = .committed ∨ s.upd.state = .scheduled) ∧ v.wFail = none) ∧
    (∃ (v : Srv) (p : List Byte) (s : State), Stands 0x0C22 v p s ∧ Unhindered 0x0C22 s ∧ p.length = 4 ∧ u8 p 0 = 1 ∧ zeros p 1 3 ∧ owned v s ∧ s.upd.state ≠ .installing ∧ s.upd.state ≠ .empty ∧ v.wFail = none) := by
  dsimp only
  exact ⟨⟨⟨1, none, none⟩, le 4 4186112 ++ [0, 0, 0, 0], asking 1 0x0C10 (le 4 4186112 ++ [0, 0, 0, 0]) (base), stands_base 0x0C10 _ (by decide), by decide⟩,
    ⟨⟨1, none, none⟩, le 4 0 ++ le 2 16 ++ [0, 0] ++ List.replicate 16 0, asking 1 0x0C11 (le 4 0 ++ le 2 16 ++ [0, 0] ++ List.replicate 16 0) (staging .receiving base), stands_asking 1 0x0C11 _ (staging .receiving base) (by decide) (by decide) (by decide) (by decide) (by decide) (by decide), by decide⟩,
    ⟨⟨1, none, none⟩, [], asking 1 0x0C12 ([]) (staging .receiving base), stands_asking 1 0x0C12 _ (staging .receiving base) (by decide) (by decide) (by decide) (by decide) (by decide) (by decide), by decide⟩,
    ⟨⟨1, none, none⟩, [0, 0, 0, 0], asking 1 0x0C22 ([0, 0, 0, 0]) (staging .committed base), stands_asking 1 0x0C22 _ (staging .committed base) (by decide) (by decide) (by decide) (by decide) (by decide) (by decide), by decide⟩,
    ⟨⟨1, none, none⟩, [1, 0, 0, 0], asking 1 0x0C22 ([1, 0, 0, 0]) (staging .scheduled base), stands_asking 1 0x0C22 _ (staging .scheduled base) (by decide) (by decide) (by decide) (by decide) (by decide) (by decide), by decide⟩⟩

/-- What `Obligations.RtcCommands` asks is met. -/
theorem test_RtcCommands :
    let given (p : List Byte) : RtcTime :=
      { subsec := u16 p 12, sec := u8 p 10, min := u8 p 9, hour := u8 p 8, wday := u8 p 14, day := u8 p 7, mon := u8 p 6, year := u16 p 4 }
    (∃ (v : Srv) (p : List Byte) (s : State), Stands 0x0D02 v p s ∧ Unhindered 0x0D02 s ∧ p.length = 16 ∧ u8 p 0 ≠ 0 ∧ zeros p 1 3 ∧ zeros p 11 1 ∧ zeros p 15 1 ∧ ((if s.rtc.run then s.rtc.now.tick else (s.rtc.now, false, false)).1.compose (given p) (BitVec.ofNat 8 (u8 p 0))).bad = none) ∧
    (∃ (v : Srv) (p : List Byte) (s : State), Stands 0x0D03 v p s ∧ Unhindered 0x0D03 s ∧ p.length = 12 ∧ u8 p 0 ≤ 1 ∧ u8 p 1 ≤ 1 ∧ u8 p 2 < 64 ∧ zeros p 3 1 ∧ Pass (alarmChecks p) ∧ zeros p 11 1) ∧
    (∃ (v : Srv) (p : List Byte) (s : State), Stands 0x0D05 v p s ∧ Unhindered 0x0D05 s ∧ p.length = 4 ∧ u8 p 0 < 16 ∧ zeros p 1 3) := by
  dsimp only
  exact ⟨⟨⟨1, none, none⟩, [0xFF, 0, 0, 0] ++ le 2 2199 ++ [12, 31, 23, 59, 59, 0] ++ le 2 32767 ++ [6, 0], asking 1 0x0D02 ([0xFF, 0, 0, 0] ++ le 2 2199 ++ [12, 31, 23, 59, 59, 0] ++ le 2 32767 ++ [6, 0]) (base), stands_base 0x0D02 _ (by decide), by decide⟩,
    ⟨⟨1, none, none⟩, [1, 1, 63, 0] ++ le 2 2199 ++ [12, 31, 23, 59, 59, 0], asking 1 0x0D03 ([1, 1, 63, 0] ++ le 2 2199 ++ [12, 31, 23, 59, 59, 0]) (base), stands_base 0x0D03 _ (by decide), by decide⟩,
    ⟨⟨1, none, none⟩, [15, 0, 0, 0], asking 1 0x0D05 ([15, 0, 0, 0]) (base), stands_base 0x0D05 _ (by decide), by decide⟩⟩

/-- What `Obligations.PortCommands` asks is met. -/
theorem test_PortCommands :
    let unheld (s : State) : Prop := s.port.lock ≠ .app ∧ s.port.lock ≠ .field
    (∃ (v : Srv) (p : List Byte) (s : State), Stands 0x0E01 v p s ∧ Unhindered 0x0E01 s ∧ p.length = 4 ∧ u8 p 0 ≤ 1 ∧ 1 ≤ u8 p 1 ∧ u8 p 1 ≤ 59 ∧ u8 p 2 < 4 ∧ zeros p 3 1 ∧ unheld s ∧ v.wFail = none) ∧
    (∃ (v : Srv) (p : List Byte) (s : State), Stands 0x0E11 v p s ∧ Unhindered 0x0E11 s ∧ freeSlot s ≠ none ∧ p.length = 4 + 32 * u8 p 1 ∧ 8 ≤ u8 p 0 ∧ 1 ≤ u8 p 1 ∧ u8 p 1 ≤ 7 ∧ u8 p 0 + u8 p 1 ≤ 256 ∧ zeros p 2 2 ∧ s.port.grantCfg ≠ 1) ∧
    (∃ (v : Srv) (p : List Byte) (s : State), Stands 0x0E31 v p s ∧ Unhindered 0x0E31 s ∧ p.length = 0 ∧ unheld s ∧ s.port.grantCfg ≠ 1 ∧ v.wFail = none) := by
  dsimp only
  exact ⟨⟨⟨1, none, none⟩, [1, 59, 3, 0], asking 1 0x0E01 ([1, 59, 3, 0]) (base), stands_base 0x0E01 _ (by decide), by decide⟩,
    ⟨⟨1, none, none⟩, [249, 7, 0, 0] ++ List.replicate 224 0, asking 1 0x0E11 ([249, 7, 0, 0] ++ List.replicate 224 0) (updPort (fun x => { x with grantCfg := 0 }) base), stands_asking 1 0x0E11 _ (updPort (fun x => { x with grantCfg := 0 }) base) (by decide) (by decide) (by decide +kernel) (by decide) (by decide) (by decide), by decide +kernel⟩,
    ⟨⟨1, none, none⟩, [], asking 1 0x0E31 ([]) (updPort (fun x => { x with grantCfg := 0 }) base), stands_asking 1 0x0E31 _ (updPort (fun x => { x with grantCfg := 0 }) base) (by decide) (by decide) (by decide) (by decide) (by decide) (by decide), by decide⟩⟩

/-- What `Obligations.CriticalSystemAndKeys` asks is met. -/
theorem test_CriticalSystemAndKeys :
    (∃ (v : Srv) (p : List Byte) (s₀ : State), StandsAuth 0x0112 v p s₀ ∧ Unhindered 0x0112 s₀ ∧ p.length = 4 ∧ u8 p 0 < 64 ∧ (u8 p 0).testBit 5 ∧ (u8 p 0).testBit (modeCode (accepted v s₀).pwr.mode) ∧ zeros p 1 3 ∧ v.wFail = none) ∧
    (∃ (v : Srv) (p : List Byte) (s : State), StandsAuth 0x0120 v p s ∧ Unhindered 0x0120 s ∧ p.length = 4 ∧ 1 ≤ u8 p 0 ∧ u8 p 0 ≤ 2 ∧ zeros p 1 3) ∧
    (∃ (v : Srv) (p : List Byte) (s₀ : State), StandsAuth 0x0131 v p s₀ ∧ Unhindered 0x0131 s₀ ∧ p.length = 4 + u16 p 2 ∧ 5 ≤ p.length ∧ p.length ≤ 232 ∧ u16 p 0 < 4096 ∧ v.wFail = none ∧ optOffends (accepted v s₀) (u16 p 0) (u16 p 2) (optionBase (accepted v s₀)) { oPut (optionBase (accepted v s₀)) (u16 p 0) (slice p 4 (min (u16 p 2) (0xFFC - u16 p 0))) with crcOk := true } = none) ∧
    (∃ (r : Requester), (∃ (v : Srv) (p : List Byte) (s₀ : State), StandsAuth 0x0141 v p s₀ ∧ Unhindered 0x0141 s₀ ∧ p.length = 8 ∧ u8 p 0 ≤ 2 ∧ r = codeReq (u8 p 0) ∧ zeros p 1 3 ∧ pget (accepted v s₀).mbx.counter r < u32 p 4 ∧ v.wFail = none)) ∧
    (∃ (x : List Byte), (∃ (v : Srv) (p : List Byte) (s₀ : State), StandsAuth 0x0A10 v p s₀ ∧ Unhindered 0x0A10 s₀ ∧ p.length = 56 ∧ zeros p 3 1 ∧ zeros p 5 3 ∧ 1 ≤ u8 p 0 ∧ u8 p 0 ≤ 63 ∧ (u8 p 0 = 1 ∨ (slotOf (accepted v s₀) (u8 p 0)).state = 0) ∧ u8 p 1 ≠ u8 p 0 ∧ slotPermits (accepted v s₀) (u8 p 1) 2 ∧ (u8 p 4 = 32 ∨ u8 p 4 = 48 ∧ (slotOf (accepted v s₀) (u8 p 1)).type = 2) ∧ zeros p (8 + u8 p 4) (48 - u8 p 4) ∧ (accepted v s₀).cipher.halt = false ∧ keyUnwrap (slotOf (accepted v s₀) (u8 p 1)).key (slice p 8 (u8 p 4)) = some x ∧ u8 x (u8 p 4 - 16) = (if u8 p 4 = 32 then 1 else 2) ∧ zeros x (u8 p 4 - 14) 2 ∧ unbe (slice x (u8 p 4 - 12) 4) ≠ 0xFFFFFFFF ∧ within (BitVec.ofNat 8 (u8 x (u8 p 4 - 15))) (usageLimit (u8 x (u8 p 4 - 16)) (u8 p 0)) ∧ (u8 p 0 = 1 → u8 x (u8 p 4 - 16) = 1 ∧ BitVec.ofNat 8 (u8 x (u8 p 4 - 15)) = 0x40#8) ∧ within (BitVec.ofNat 8 (u8 p 2)) (BitVec.ofNat 8 (u8 x (u8 p 4 - 15))) ∧ v.wFail = none)) ∧
    (∃ (v : Srv) (p : List Byte) (s₀ : State), StandsAuth 0x0A11 v p s₀ ∧ Unhindered 0x0A11 s₀ ∧ p.length = 4 ∧ 2 ≤ u8 p 0 ∧ u8 p 0 ≤ 63 ∧ (slotOf (accepted v s₀) (u8 p 0)).state ≠ 0 ∧ zeros p 1 3 ∧ v.wFail = none) := by
  exact ⟨⟨⟨1, none, none⟩, [63, 0, 0, 0], asserting 1 0x0112 ([63, 0, 0, 0]) (base), standsAuth_asserting 1 0x0112 _ (base) (by decide) (by decide) (by decide) (by decide) (by decide) (by decide) (by decide) (by decide +kernel), by decide⟩,
    ⟨⟨1, none, none⟩, [2, 0, 0, 0], asserting 1 0x0120 ([2, 0, 0, 0]) (base), standsAuth_asserting 1 0x0120 _ (base) (by decide) (by decide) (by decide) (by decide) (by decide) (by decide) (by decide) (by decide +kernel), by decide⟩,
    ⟨⟨1, none, none⟩, le 2 0xD00 ++ le 2 1 ++ [0], asserting 1 0x0131 (le 2 0xD00 ++ le 2 1 ++ [0]) (base), standsAuth_asserting 1 0x0131 _ (base) (by decide) (by decide) (by decide) (by decide) (by decide) (by decide) (by decide) (by decide +kernel), by decide⟩,
    ⟨.port, ⟨⟨1, none, none⟩, [2, 0, 0, 0] ++ le 4 1, asserting 1 0x0141 ([2, 0, 0, 0] ++ le 4 1) (base), standsAuth_asserting 1 0x0141 _ (base) (by decide) (by decide) (by decide) (by decide) (by decide) (by decide) (by decide) (by decide +kernel), by decide⟩⟩,
    ⟨[0, 1, 2, 3, 4, 5, 6, 7, 8, 9, 10, 11, 12, 13, 14, 15, 1, 63, 0, 0, 0, 0, 0, 0], ⟨⟨1, none, none⟩, [63, 2, 63, 0, 32, 0, 0, 0, 145, 22, 175, 90, 75, 145, 82, 176, 245, 226, 48, 96, 239, 141, 229, 10, 42, 154, 115, 239, 220, 204, 169, 73, 238, 116, 131, 113, 225, 181, 161, 86, 0, 0, 0, 0, 0, 0, 0, 0, 0, 0, 0, 0, 0, 0, 0, 0], asserting 1 0x0A10 ([63, 2, 63, 0, 32, 0, 0, 0, 145, 22, 175, 90, 75, 145, 82, 176, 245, 226, 48, 96, 239, 141, 229, 10, 42, 154, 115, 239, 220, 204, 169, 73, 238, 116, 131, 113, 225, 181, 161, 86, 0, 0, 0, 0, 0, 0, 0, 0, 0, 0, 0, 0, 0, 0, 0, 0]) (withKey 2 base), standsAuth_asserting 1 0x0A10 _ (withKey 2 base) (by decide) (by decide) (by decide) (by decide) (by decide) (by decide) (by decide) (by decide +kernel), by decide +kernel⟩⟩,
    ⟨⟨1, none, none⟩, [63, 0, 0, 0], asserting 1 0x0A11 ([63, 0, 0, 0]) (withKey 63 base), standsAuth_asserting 1 0x0A11 _ (withKey 63 base) (by decide) (by decide) (by decide) (by decide) (by decide) (by decide) (by decide) (by decide +kernel), by decide⟩⟩

/-- What `Obligations.CriticalUpdateAndPort` asks is met. -/
theorem test_CriticalUpdateAndPort :
    let owned (v : Srv) (s : State) : Prop := s.upd.owner = some (chanOwner s v.ch)
    let unheld (s : State) : Prop := s.port.lock ≠ .app ∧ s.port.lock ≠ .field
    (∃ (v : Srv) (p : List Byte) (s₀ : State), StandsAuth 0x0C20 v p s₀ ∧ Unhindered 0x0C20 s₀ ∧ p.length = 4 ∧ u8 p 0 ≤ 1 ∧ (u8 p 1 ≤ 5 ∨ u8 p 1 = 0xFF) ∧ zeros p 2 2 ∧ owned v (accepted v s₀) ∧ (accepted v s₀).upd.state = .verified ∧ ((accepted v s₀).upd.head.map ImgHead.scheduledOnly).getD false = false ∧ (accepted v s₀).upd.broken = none ∧ v.wFail = none) ∧
    (∃ (v : Srv) (p : List Byte) (s₀ : State), StandsAuth 0x0C21 v p s₀ ∧ Unhindered 0x0C21 s₀ ∧ p.length = 12 ∧ (u8 p 0 ≤ 5 ∨ u8 p 0 = 0xFF) ∧ zeros p 1 3 ∧ zeros p 11 1 ∧ owned v (accepted v s₀) ∧ ((accepted v s₀).upd.state = .verified ∨ (accepted v s₀).upd.state = .scheduled) ∧ (accepted v s₀).rtc.osf = false ∧ dateOk (dateOf p 4) ∧ dateSeconds (accepted v s₀).rtc.now.date < dateSeconds (dateOf p 4) ∧ v.wFail = none) ∧
    (∃ (v : Srv) (p : List Byte) (s₀ : State), StandsAuth 0x0E20 v p s₀ ∧ Unhindered 0x0E20 s₀ ∧ p.length = 20 ∧ u8 p 0 ≤ 3 ∧ 1 ≤ u8 p 1 ∧ u8 p 1 ≤ 15 ∧ zeros p 2 2 ∧ unheld (accepted v s₀) ∧ v.wFail = none) ∧
    (∃ (v : Srv) (p : List Byte) (s₀ : State), StandsAuth 0x0E21 v p s₀ ∧ Unhindered 0x0E21 s₀ ∧ p.length = 4 ∧ u8 p 0 ≤ 3 ∧ (pwOf (accepted v s₀) (u8 p 0)).state ≠ 0 ∧ zeros p 1 3 ∧ unheld (accepted v s₀) ∧ v.wFail = none) := by
  dsimp only
  exact ⟨⟨⟨1, none, none⟩, [1, 0xFF, 0, 0], asserting 1 0x0C20 ([1, 0xFF, 0, 0]) (staging .verified base), standsAuth_asserting 1 0x0C20 _ (staging .verified base) (by decide) (by decide) (by decide) (by decide) (by decide) (by decide) (by decide) (by decide +kernel), by decide⟩,
    ⟨⟨1, none, none⟩, [5, 0, 0, 0] ++ le 2 2199 ++ [12, 31, 23, 59, 59, 0], asserting 1 0x0C21 ([5, 0, 0, 0] ++ le 2 2199 ++ [12, 31, 23, 59, 59, 0]) (updRtc (fun r => { r with osf := false }) (staging .verified base)), standsAuth_asserting 1 0x0C21 _ (updRtc (fun r => { r with osf := false }) (staging .verified base)) (by decide) (by decide) (by decide) (by decide) (by decide) (by decide) (by decide) (by decide +kernel), by decide⟩,
    ⟨⟨1, none, none⟩, [3, 15, 0, 0] ++ List.replicate 16 0, asserting 1 0x0E20 ([3, 15, 0, 0] ++ List.replicate 16 0) (base), standsAuth_asserting 1 0x0E20 _ (base) (by decide) (by decide) (by decide) (by decide) (by decide) (by decide) (by decide) (by decide +kernel), by decide⟩,
    ⟨⟨1, none, none⟩, [3, 0, 0, 0], asserting 1 0x0E21 ([3, 0, 0, 0]) (updPw 3 (fun x => { x with pw := List.replicate 16 1 }) base), standsAuth_asserting 1 0x0E21 _ (updPw 3 (fun x => { x with pw := List.replicate 16 1 }) base) (by decide) (by decide) (by decide) (by decide) (by decide) (by decide) (by decide) (by decide +kernel), by decide⟩⟩

/-- What `Obligations.MailboxSteps` asks is met. -/
theorem test_MailboxSteps :
    (∃ (n : Nat) (i : Nat) (s : State), n < 8 ∧ i < 64 ∧ mayAccess s .app = true ∧ at_ .idle s.mbx.chan n ≠ .busy) ∧
    (∃ (n : Nat) (i : Nat) (s : State), n < 8 ∧ i < 64 ∧ mayAccess s .host = true ∧ at_ .idle s.mbx.chan n ≠ .busy ∧ chanOwner s n = .host) ∧
    (∃ (who : Who) (s : State), mayAccess s who = true) ∧
    (∃ (n : Nat) (i : Nat) (s : State), n < 6 ∧ i < 128 ∧ mayAccess s .host = true ∧ s.hostp.cs = false ∧ chanOwner s n = .host ∧ at_ .idle s.mbx.chan n ≠ .busy) ∧
    (∃ (n : Nat) (i : Nat) (s : State), n < 8 ∧ i < 128 ∧ mayAccess s .host = true ∧ s.hostp.cs = false ∧ chanOwner s n = .host) ∧
    (∃ (e : Ev) (r : List Ev) (s : State), s.mbx.q6.events = e :: r ∧ firmwareServes s = true ∧ at_ .idle s.mbx.chan 6 = .idle) ∧
    (∃ (e : Ev) (r : List Ev) (s : State), s.mbx.q7.events = e :: r ∧ ch7Active s = true ∧ firmwareServes s = true ∧ at_ .idle s.mbx.chan 7 = .idle) := by
  exact ⟨⟨7, 63, base, by decide⟩,
    ⟨6, 63, hostOwned base, by decide⟩,
    ⟨.app, base, by decide⟩,
    ⟨5, 127, hostOwned base, by decide⟩,
    ⟨7, 127, hostOwned base, by decide⟩,
    ⟨⟨0x0381, .ordinary, [], none⟩, [], updMbx (fun m => { m with q6 := { m.q6 with events := [⟨0x0381, .ordinary, [], none⟩] } }) base, by decide⟩,
    ⟨⟨0x0381, .ordinary, [], none⟩, [], updMbx (fun m => { m with mirror := true, q7 := { m.q7 with events := [⟨0x0381, .ordinary, [], none⟩] } }) base, by decide⟩⟩

/-- What `Obligations.SurveyShotAndDrainSteps` asks is met. -/
theorem test_SurveyShotAndDrainSteps :
    (∃ (v : SurveyRun) (s : State), s.mbx.survey = some v ∧ v.captured = true ∧ firmwareServes s = true ∧ (evq s (evChan7 s v.req)).events.length < 32 ∧ v.units = []) ∧
    (∃ (v : SurveyRun) (us : List Nat) (s : State), s.mbx.survey = some v ∧ v.captured = true ∧ firmwareServes s = true ∧ (evq s (evChan7 s v.req)).events.length < 32 ∧ v.units = 5 :: us ∧ v.part = 0 ∧ v.consistent = false ∧ (linkSurvey s).length ≤ 216) ∧
    (∃ (v : SurveyRun) (s : State), s.mbx.survey = some v ∧ v.consistent = true ∧ v.captured = false ∧ netRuns s = true ∧ v.units = [2, 5] ∧ unitQuiesced s none 2 = true ∧ unitQuiesced s none 5 = true) ∧
    (∃ (v : SurveyRun) (u : Nat) (us : List Nat) (s : State), s.mbx.survey = some v ∧ v.consistent = true ∧ v.captured = false ∧ netRuns s = true ∧ v.units = u :: us ∧ unitQuiesced s none u = false) ∧
    (∃ (s : State), s.boot.delayed = some .sys) ∧
    (∃ (s : State), s.boot.delayed = some .ldr) ∧
    (∃ (s : State), s.boot.delayed = some .act) ∧
    (∃ (d : ModeDrain) (s : State), s.pwr.drain = some d ∧ inFlight s = 0 ∧ exchange s = false ∧ d.target ≠ .service) ∧
    (∃ (d : ModeDrain) (s : State), s.pwr.drain = some d) ∧
    (∃ (n : Nat) (s : State), (shotOf s n).state = .armed ∧ shotDue s (radioIdle s) (shotOf s n) = true ∧ netRuns s = true) ∧
    (∃ (n : Nat) (s : State), (shotOf s n).state = .armed ∧ (shotOf s n).trigger = 1 ∧ netRuns s = true) ∧
    (∃ (n : Nat) (s : State), shotNext s n = true ∧ shotWalk (shotOf s n).req [] (shotOf s n).entries 0 s = none) ∧
    (∃ (n : Nat) (a : Nat) (m : Nat) (v : Nat) (s : State), shotOf s n = { shotOf s n with state := .quiescing, begun := true, saving := false, rxCut := false, persist := false, entries := [.reg a m v] }) ∧
    (∃ (n : Nat) (s : State), (shotOf s n).state = .quiescing ∧ (shotOf s n).saving = false ∧ netRuns s = true) ∧
    (∃ (n : Nat) (s : State), (shotOf s n).state = .quiescing ∧ (shotOf s n).saving = true) := by
  exact ⟨⟨surveyOf [] false true, surveying [] false true base, by decide⟩,
    ⟨surveyOf [5] false true, [], surveying [5] false true base, by decide +kernel⟩,
    ⟨surveyOf [2, 5] true false, surveying [2, 5] true false base, by decide⟩,
    ⟨surveyOf [2] true false, 2, [], surveying [2] true false (onAirNow base), by decide⟩,
    ⟨updBoot (fun b => { b with delayed := some .sys }) base, by decide⟩,
    ⟨updBoot (fun b => { b with delayed := some .ldr }) base, by decide⟩,
    ⟨updBoot (fun b => { b with delayed := some .act }) base, by decide⟩,
    ⟨⟨.shelf, 0⟩, updPwr (fun w => { w with drain := some ⟨.shelf, 0⟩ }) base, by decide⟩,
    ⟨⟨.shelf, 0⟩, updPwr (fun w => { w with drain := some ⟨.shelf, 0⟩ }) base, by decide⟩,
    ⟨3, withShot 3 { Shot.reset with state := .armed } base, by decide⟩,
    ⟨3, withShot 3 { Shot.reset with state := .armed, trigger := 1 } base, by decide⟩,
    ⟨3, withShot 3 { Shot.reset with state := .quiescing } base, by decide⟩,
    ⟨3, 0, 0, 0, withShot 3 { Shot.reset with state := .quiescing, begun := true, entries := [.reg 0 0 0] } base, by decide⟩,
    ⟨3, withShot 3 { Shot.reset with state := .quiescing } base, by decide⟩,
    ⟨3, withShot 3 { Shot.reset with state := .quiescing, saving := true } base, by decide⟩⟩

/-- What `Obligations.RadioSteps` asks is met. -/
theorem test_RadioSteps :
    (∃ (slot : Nat) (n : Nat) (s : State), s.radio.calJob = some (slot, [], n)) ∧
    (∃ (m : Measure) (raw : Int) (s : State), s.radio.rssi = some m ∧ s.radio.state = .rx ∧ s.radio.goal = none ∧ m.ant = 0 ∧ -280 ≤ raw - s.radio.ext.offA ∧ raw - s.radio.ext.offA ≤ -20) ∧
    (∃ (m : Measure) (raw : Int) (s : State), s.radio.rssi = some m ∧ s.radio.state = .rx ∧ s.radio.goal = none ∧ m.ant = 0 ∧ raw - s.radio.ext.offA < -280) ∧
    (∃ (m : Measure) (rawA : Int) (s : State), s.radio.cca = some m ∧ s.radio.state = .rx ∧ s.radio.goal = none ∧ s.dev.variant ≠ .shaft ∧ m.ant = 0 ∧ -280 ≤ rawA - s.radio.ext.offA ∧ rawA - s.radio.ext.offA ≤ -20) ∧
    (∃ (t : TestTx) (q : TxReq) (s : State), s.radio.test = some t ∧ s.radio.onAir = some q ∧ q.who = .test) ∧
    (∃ (g : RadioState) (s : State), s.radio.goal = some g ∧ g ≠ .sleep ∧ g ≠ .rx) ∧
    (∃ (slot : Nat) (seg : Nat) (n : Nat) (s : State), s.radio.state = .cal ∧ s.radio.calJob = some (slot, [seg], n)) ∧
    (∃ (s : State), s.radio.state = .cal ∧ s.radio.calJob = none) ∧
    (∃ (s : State), locking s = true ∧ s.radio.second = false) ∧
    (∃ (s : State), locking s = true ∧ s.radio.second = true) ∧
    (∃ (s : State), s.radio.state ≠ .sleep ∧ s.radio.state ≠ .rx) ∧
    (∃ (s : State), recalDue s = true ∧ exchange s = false) ∧
    (∃ (s : State), recalDue s = true ∧ s.radio.recalWait = true) ∧
    (∃ (s : State), s.radio.retune = true ∧ exchange s = false) ∧
    (∃ (q : TxReq) (id : Nat) (vbat : Nat) (s : State), s.radio.held = some q ∧ canStart s q = true ∧ q.who = .ack id ∧ vbat < 65536) ∧
    (∃ (q : TxReq) (id : Nat) (vbat : Nat) (s : State), s.radio.held = some q ∧ canStart s q = true ∧ q.who = .frame id ∧ vbat < 65536) ∧
    (∃ (q : TxReq) (id : Nat) (s : State), s.radio.onAir = some q ∧ q.who = .frame id ∧ q.ar = false) ∧
    (∃ (q : TxReq) (id : Nat) (s : State), s.radio.onAir = some q ∧ q.who = .frame id ∧ q.ar = true) ∧
    (∃ (q : TxReq) (id : Nat) (s : State), s.radio.onAir = some q ∧ q.who = .ack id) ∧
    (∃ (q : TxReq) (s : State), s.radio.held = some q ∧ lateNow s q = true) ∧
    (∃ (lane : Nat) (a : Nat) (s : State), s.dev.variant ≠ .shaft ∧ s.radio.div.mode ≠ 0 ∧ s.radio.state = .rx ∧ (laneOf s lane).cfg.phy ≠ 2 ∧ ((List.range 16).any fun i => i != lane && (laneOf s i).frame.isSome) = false ∧ a < 2) ∧
    (∃ (lane : Nat) (rssiA : Int) (rssiB : Int) (s : State), s.dev.variant ≠ .shaft ∧ s.radio.div.mode ≠ 0 ∧ s.radio.state = .rx ∧ (laneOf s lane).cfg.phy ≠ 2 ∧ ((List.range 16).any fun i => i != lane && (laneOf s i).frame.isSome) = false ∧ s.radio.ant = 0 ∧ (rssiAt s 0 rssiA).1 + (s.radio.div.hyst : Int) < (rssiAt s 1 rssiB).1) := by
  exact ⟨⟨0, 1, updRadio (fun r => { r with calJob := some (0, [], 1) }) base, by decide⟩,
    ⟨⟨0, 0, 0, 0, 0⟩, -280, hearing (updRadio (fun r => { r with rssi := some ⟨0, 0, 0, 0, 0⟩ }) base), by decide⟩,
    ⟨⟨0, 0, 0, 0, 0⟩, -281, hearing (updRadio (fun r => { r with rssi := some ⟨0, 0, 0, 0, 0⟩ }) base), by decide⟩,
    ⟨⟨0, 0, 0, 0, 0⟩, -20, hearing (updRadio (fun r => { r with cca := some ⟨0, 0, 0, 0, 0⟩ }) (ofVariant .face base)), by decide⟩,
    ⟨⟨0, some 0, 5⟩, sending .test, updRadio (fun r => { r with test := some ⟨0, some 0, 5⟩ }) (onAirNow base), by decide⟩,
    ⟨.idle, updRadio (fun r => { r with goal := some .idle }) base, by decide⟩,
    ⟨0, 7, 0, updRadio (fun r => { r with state := .cal, calJob := some (0, [7], 0) }) base, by decide⟩,
    ⟨updRadio (fun r => { r with state := .cal }) base, by decide⟩,
    ⟨updRadio (fun r => { r with goal := some .locked }) base, by decide⟩,
    ⟨updRadio (fun r => { r with goal := some .locked, second := true }) base, by decide⟩,
    ⟨updRadio (fun r => { r with state := .idle }) base, by decide⟩,
    ⟨hearing base, by decide⟩,
    ⟨hearing (updRadio (fun r => { r with recalWait := true }) base), by decide⟩,
    ⟨updRadio (fun r => { r with retune := true }) base, by decide⟩,
    ⟨sending (.ack 0), 0, 65535, holdingTx (sending (.ack 0)) (updRadio (fun r => { r with state := .txready, tune := 0 }) base), by decide⟩,
    ⟨sending (.frame 0), 0, 65535, holdingTx (sending (.frame 0)) (updRadio (fun r => { r with state := .txready, tune := 0 }) base), by decide⟩,
    ⟨sending (.frame 0), 0, onAir (sending (.frame 0)) base, by decide⟩,
    ⟨({ sending (.frame 0) with ar := true }), 0, onAir { sending (.frame 0) with ar := true } base, by decide⟩,
    ⟨sending (.ack 0), 0, onAir (sending (.ack 0)) base, by decide⟩,
    ⟨({ sending (.frame 0) with timed := some 0 }), holdingTx { sending (.frame 0) with timed := some 0 } (updClk (fun c => { c with mtime := 9 }) base), by decide⟩,
    ⟨15, 1, hearing (updRadio (fun r => { r with div := { r.div with mode := 1 } }) (ofVariant .face base)), by decide⟩,
    ⟨15, -100, -80, hearing (updRadio (fun r => { r with div := { r.div with mode := 1, hyst := 0 } }) (ofVariant .face base)), by decide⟩⟩

/-- What `Obligations.ClockAndSupplySteps` asks is met. -/
theorem test_ClockAndSupplySteps :
    (∃ (s : State), s.clk.rootsrc = true ∧ s.radio.onAir = none ∧ s.radio.held = none ∧ s.radio.awaiting = none ∧ s.radio.owed = none) ∧
    (∃ (s : State), s.clk.refFailed = true ∧ netRuns s = true) ∧
    (∃ (s : State), s.boot.stage = .reference) ∧
    (∃ (s : State), s.boot.stage ≠ .pll ∧ s.clk.refFailed = true ∧ s.clk.xordy = true ∧ s.clk.rootsrc = false) ∧
    (∃ (s : State), s.boot.stage = .pll ∧ s.boot.kind ≠ .wake) ∧
    (∃ (s : State), s.boot.aonLost = false ∧ s.pwr.mode ≠ .shelf) ∧
    (∃ (count : Nat) (s : State), s.clk.rootsrc = true ∧ s.clk.lfxrdy = true ∧ count < 2 ^ 24) ∧
    (∃ (s : State), mayAccess s .app = true) ∧
    (∃ (s : State), s.boot.backup = true) ∧
    (∃ (s : State), s.boot.backup = false) ∧
    (∃ (s : State), s.clk.lfxrdy = true ∧ mtimeRuns s = true ∧ s.clk.xordy = true ∧ s.pwr.phase = .awake) ∧
    (∃ (s : State), s.clk.lfxrdy = true ∧ mtimeRuns s = true ∧ s.clk.xordy = false ∧ s.clk.unstarted = false ∧ s.pwr.phase = .awake) ∧
    (∃ (plane : Nat) (o : FOp) (r : Nat) (s : State), planeSt s plane = .erasing o r) := by
  exact ⟨⟨updClk (fun c => { c with rootsrc := true }) base, by decide⟩,
    ⟨updClk (fun c => { c with refFailed := true }) base, by decide⟩,
    ⟨State.reset, by decide⟩,
    ⟨updClk (fun c => { c with refFailed := true }) base, by decide⟩,
    ⟨updBoot (fun b => { b with stage := .pll }) base, by decide⟩,
    ⟨base, by decide⟩,
    ⟨2 ^ 24 - 1, updClk (fun c => { c with rootsrc := true }) base, by decide⟩,
    ⟨base, by decide⟩,
    ⟨updBoot (fun b => { b with backup := true }) base, by decide⟩,
    ⟨base, by decide⟩,
    ⟨base, by decide⟩,
    ⟨updClk (fun c => { c with xordy := false, rate := .slow }) base, by decide⟩,
    ⟨1, ⟨.app, true, 0, [], none, 0⟩, 0, updFlash (fun f => { f with p1 := .erasing ⟨.app, true, 0, [], none, 0⟩ 0 }) base, by decide⟩⟩

/-- What `Obligations.LaneAndCanarySteps` asks is met. -/
theorem test_LaneAndCanarySteps :
    (∃ (lane : Nat) (stamp : Nat) (s : State), s.dev.variant = .face ∧ laneState s lane = 2 ∧ laneStopped s lane = false ∧ pathFrozen s 0 = true ∧ stamp < mtMod) ∧
    (∃ (lane : Nat) (f : LaneFrame) (len : BitVec 11) (s : State), (laneOf s lane).frame = some f ∧ (laneOf s lane).cfg.phy = 1 ∧ f.len = none ∧ 5 ≤ len.toNat) ∧
    (∃ (lane : Nat) (f : LaneFrame) (s : State), (laneOf s lane).frame = some f ∧ (laneOf s lane).cfg.phy = 1 ∧ f.len = none) ∧
    (∃ (lane : Nat) (f : LaneFrame) (s : State), (laneOf s lane).frame = some f ∧ (laneOf s lane).cfg.phy = 3 ∧ 3 ≤ f.weak) ∧
    (∃ (lane : Nat) (f : LaneFrame) (s : State), (laneOf s lane).frame = some f ∧ (laneOf s lane).cfg.phy = 3 ∧ (laneOf s lane).cfg.phycfg.testBit 3 = false) ∧
    (∃ (lane : Nat) (f : LaneFrame) (r : LaneRes) (s : State), (laneOf s lane).frame = some f ∧ f.len = some r.psdu.length ∧ fcsOk r.psdu = false ∧ damagedAck s r.psdu = none) ∧
    (∃ (lane : Nat) (f : LaneFrame) (r : LaneRes) (s : State), (laneOf s lane).frame = some f ∧ f.len = some r.psdu.length ∧ fcsOk r.psdu = true ∧ s.dev.variant ≠ .shaft ∧ isCopy s (unle (r.psdu.drop (r.psdu.length - 4))) f.stamp = false) ∧
    (∃ (s : State), pathRuns s 0 = true) ∧
    (∃ (path : Nat) (s : State), pathRuns s path = true ∧ path ≠ 0) ∧
    (∃ (q : TxReq) (w : WakeSend) (s : State), s.radio.onAir = some q ∧ s.canary.send = some w ∧ q.who = .wake ∧ w.resync = none) ∧
    (∃ (s : State), canaryRuns s = true ∧ s.canary.phase = .listen ∧ quiescing s 4 = false) ∧
    (∃ (s : State), canaryRuns s = true ∧ s.canary.phase = .sequence) ∧
    (∃ (r : WakeSeq) (s : State), canaryRuns s = true ∧ s.canary.phase = .sequence ∧ wakeCrc (r.address % 2 ^ 25) (r.group % 128) ≠ r.crc) ∧
    (∃ (r : WakeSeq) (s : State), canaryRuns s = true ∧ s.canary.phase = .sequence ∧ wakeCrc (r.address % 2 ^ 25) (r.group % 128) = r.crc ∧ wakeRepeats s r = true) ∧
    (∃ (r : WakeSeq) (s : State), canaryRuns s = true ∧ s.canary.phase = .sequence ∧ wakeCrc (r.address % 2 ^ 25) (r.group % 128) = r.crc ∧ wakeRepeats s r = false ∧ wakeKind s (r.address % 2 ^ 25) (r.group % 128) = 1) ∧
    (∃ (s : State), s.canary.eventDue = true ∧ netRuns s = true ∧ s.canary.mKind ≠ 1 ∧ s.canary.cfg.matchBits.testBit 3 = true) ∧
    (∃ (s : State), s.canary.phase = .blanked ∧ s.radio.onAir = none) := by
  exact ⟨⟨0, 2 ^ 56 - 1, updRadio (fun r => { r with state := .rx, tune := r.home }) (updLane 1 (fun l => { l with frame := some laneFrame }) (updLane 0 (fun l => { l with cfg := { l.cfg with enable := 1 } }) (ofVariant .face base))), by decide⟩,
    ⟨0, laneFrame, 5, receiving 1 laneFrame base, by decide⟩,
    ⟨0, laneFrame, receiving 1 laneFrame base, by decide⟩,
    ⟨0, { laneFrame with weak := 3 }, receiving 3 { laneFrame with weak := 3 } base, by decide⟩,
    ⟨0, laneFrame, receiving 3 laneFrame base, by decide⟩,
    ⟨0, { laneFrame with len := some 13 }, laneRes (List.replicate 13 0), receiving 1 { laneFrame with len := some 13 } base, by decide +kernel⟩,
    ⟨0, { laneFrame with len := some 13 }, laneRes goodPsdu, receiving 1 { laneFrame with len := some 13 } (ofVariant .face base), by decide +kernel⟩,
    ⟨hearing base, by decide⟩,
    ⟨1, hearing (updPwr (fun w => { w with mode := .wide }) (ofVariant .shaft base)), by decide⟩,
    ⟨sending .wake, ⟨some 0, none, 0, 0, 1, 0, none, 0, 0, true, some 0⟩, updCanary (fun c => { c with send := some ⟨some 0, none, 0, 0, 1, 0, none, 0, 0, true, some 0⟩ }) (onAir (sending .wake) base), by decide⟩,
    ⟨canaryDevice .listen, by decide⟩,
    ⟨canaryDevice .sequence, by decide⟩,
    ⟨⟨0, 0, (wakeCrc 0 0 + 1) % 256, 0⟩, canaryDevice .sequence, by decide +kernel⟩,
    ⟨⟨5, 0, wakeCrc 5 0, 0⟩, updCanary (fun c => { c with repeatOf := some (5, 0, wakeCrc 5 0, 0) }) (canaryDevice .sequence), by decide +kernel⟩,
    ⟨⟨5, 0, wakeCrc 5 0, 0⟩, canaryDevice .sequence, by decide +kernel⟩,
    ⟨updCanary (fun c => { c with eventDue := true, mKind := 2, cfg := { c.cfg with matchBits := 15 } }) base, by decide⟩,
    ⟨updCanary (fun c => { c with phase := .blanked }) base, by decide⟩⟩

/-- What `Obligations.LinkAndTimingSteps` asks is met. -/
theorem test_LinkAndTimingSteps :
    (∃ (j : Join) (t : State) (s : State), s.link.join = some j ∧ j.left ≠ 0 ∧ mtReached j.nextAt s.clk.mtime = true ∧ sendJoinReq j s = some t) ∧
    (∃ (j : Join) (s : State), s.link.join = some j ∧ mtReached j.endAt s.clk.mtime = true ∧ s.link.flight = []) ∧
    (∃ (n : Nat) (x : RxFrame) (s : State), rxOf s n = some x ∧ x.phase = .fresh ∧ isAckFrame x.psdu = false ∧ parseFrame x.psdu = none) ∧
    (∃ (n : Nat) (x : RxFrame) (f : Rxf) (s : State), rxOf s n = some x ∧ x.phase = .fresh ∧ isAckFrame x.psdu = false ∧ parseFrame x.psdu = some f ∧ joinReqOk s f = false ∧ joinReplyOk s f = false ∧ f.net ≠ s.link.cfg.net) ∧
    (∃ (n : Nat) (x : RxFrame) (f : Rxf) (s : State), rxOf s n = some x ∧ parseFrame x.psdu = some f ∧ x.ack = .due ∧ x.phase ≠ .closed ∧ ackCollides s = true) ∧
    (∃ (n : Nat) (x : RxFrame) (f : Rxf) (g : List Byte) (s : State), rxOf s n = some x ∧ parseFrame x.psdu = some f ∧ x.phase = .micPending ∧ quiescing s 5 = false ∧ f.sec = true ∧ openFrame s x f = (g, true)) ∧
    (∃ (n : Nat) (x : RxFrame) (f : Rxf) (g : List Byte) (s : State), rxOf s n = some x ∧ parseFrame x.psdu = some f ∧ x.phase = .micPending ∧ quiescing s 5 = false ∧ f.sec = true ∧ x.ack = .none ∧ openFrame s x f = (g, false)) ∧
    (∃ (h : Nat × Nat) (s : State), s.radio.pendHold = some h ∧ mtReached h.1 s.clk.mtime = true) ∧
    (∃ (flow : Nat) (r : Released) (s : State), (s.link.released.find? fun r => r.flow == flow) = some r ∧ linkModes s = true ∧ working s 5 = true ∧ r.packet.ue = false ∧ (hopOf (updLink (fun l => { l with released := l.released.erase r }) s) r.packet.bytes) = .badDesc) ∧
    (∃ (flow i : Nat) (lim : Option Nat) (r : Released) (s : State), (s.link.released.find? fun r => r.flow == flow) = some r ∧ linkModes s = true ∧ working s 5 = true ∧ r.packet.ue = false ∧ hopOf (updLink (fun l => { l with released := l.released.erase r }) s) r.packet.bytes = .nbr i lim) ∧
    (∃ (n : Nat) (id : Nat) (x : RxFrame) (s : State), rxOf s n = some x ∧ s.radio.awaiting = some id ∧ x.phase = .fresh ∧ isAckFrame x.psdu = true) ∧
    (∃ (id : Nat) (s : State), s.radio.awaiting = some id) ∧
    (∃ (n : Nat) (t : Nat) (f : Flight) (s : State), flightOf s n = some f ∧ f.phase = .backoff t ∧ mtReached t s.clk.mtime = true) ∧
    (∃ (s : State), s.link.drop.noRoute ≠ 0 ∧ secondPast s.link.dropEvent s = true) ∧
    (∃ (d : Int) (src : Nat) (s : State), s.timing.pendingStep = [(d, src)] ∧ exchange s = false) ∧
    (∃ (s : State), quiescing s 6 = false ∧ calWanted s = []) ∧
    (∃ (at_ : Nat) (k : CalKind) (s : State), quiescing s 6 = false ∧ calWanted s = [(at_, k)] ∧ mtReached (mtAdd at_ (-(calHorizon : Int))) s.clk.mtime = true) ∧
    (∃ (k : Nat) (s : State), ownNext s = some k ∧ s.timing.window = none ∧ s.timing.listen = none ∧ working s 6 = true ∧ s.pwr.drain = none ∧ exchange s = false ∧ mtLater (openFrom s ((ownSched s).centre k)) s.clk.mtime = false ∧ mtLater s.clk.mtime (mtAdd ((ownSched s).centre k) (usTicks (guardUs s (timeSource s) ((ownSched s).centre k)) : Nat)) = false) ∧
    (∃ (k : Nat) (s : State), ownNext s = some k ∧ s.timing.window = none ∧ s.timing.listen = none ∧ working s 6 = true ∧ s.pwr.drain = none ∧ exchange s = true ∧ mtLater (openFrom s ((ownSched s).centre k)) s.clk.mtime = false ∧ mtLater s.clk.mtime (mtAdd ((ownSched s).centre k) (usTicks (guardUs s (timeSource s) ((ownSched s).centre k)) : Nat)) = false) ∧
    (∃ (w : OwnWindow) (s : State), s.timing.window = some w ∧ mtLater (mtAdd w.ck (usTicks w.guardUs : Nat)) s.clk.mtime = false ∧ exchange s = false ∧ s.link.rx = [] ∧ bit s.timing.cfg.flags 1 = false) ∧
    (∃ (i : Nat) (t : State) (s : State), bit s.timing.cfg.flags 1 = true ∧ (nbrOf s i).state = .active ∧ (nbrOf s i).rdv = true ∧ bit (nbrOf s i).flags 1 = true ∧ (nbrSched (nbrOf s i)).period ≠ 0 ∧ linkModes s = true ∧ working s 6 = true ∧ nbrBusy s i = false ∧ s.link.flight = [] ∧ mtReached ((nbrSched (nbrOf s i)).centre ((nbrSched (nbrOf s i)).first (s.clk.mtime + ms2))) (mtAdd (s.clk.mtime + ms2) (periodTicks : Nat)) = true ∧ beaconTo .keepalive (some i) s.radio.home true s = some t) ∧
    (∃ (i : Nat) (r : Resync) (t : State) (s : State), resyncOf s i = some r ∧ r.stage = 2 ∧ mtReached r.due s.clk.mtime = true ∧ r.beacons < 3 ∧ linkModes s = true ∧ working s 6 = true ∧ s.link.flight = [] ∧ beaconTo .resyncBeacon (some i) (seqTune s (nbrSched (nbrOf s i)).seq 0 s.clk.mtime) false (putResync { r with beacons := r.beacons + 1 } s) = some t) ∧
    (∃ (i : Nat) (r : Resync) (s : State), resyncOf s i = some r ∧ r.stage = 0 ∧ mtReached r.due s.clk.mtime = true ∧ working s 6 = true) ∧
    (∃ (l : Nat × Nat) (s : State), s.timing.listen = some l ∧ mtReached l.1 s.clk.mtime = true) := by
  exact ⟨⟨aJoin, made (sendJoinReq aJoin joining), joining, by decide +kernel⟩,
    ⟨aJoin, joining, by decide⟩,
    ⟨0, rxFrame .fresh [], examining (rxFrame .fresh []) base, by decide⟩,
    ⟨0, rxFrame .fresh (psduOf 0 1 []), headOf (psduOf 0 1 []), examining (rxFrame .fresh (psduOf 0 1 [])) base, by decide⟩,
    ⟨0, ({ rxFrame .micPending (psduOf 16 0 []) with ack := .due }), headOf (psduOf 16 0 []), examining { rxFrame .micPending (psduOf 16 0 []) with ack := .due } (onAirNow base), by decide⟩,
    ⟨0, rxFrame .micPending (psduOf 8 0 ([1] ++ le 4 1 ++ [0x9f, 0x61, 0xd8, 0xbf])), headOf (psduOf 8 0 ([1] ++ le 4 1 ++ [0x9f, 0x61, 0xd8, 0xbf])), [], examining (rxFrame .micPending (psduOf 8 0 ([1] ++ le 4 1 ++ [0x9f, 0x61, 0xd8, 0xbf]))) base, by decide +kernel⟩,
    ⟨0, rxFrame .micPending (psduOf 8 0 ([1] ++ le 4 1 ++ [0, 0, 0, 0])), headOf (psduOf 8 0 ([1] ++ le 4 1 ++ [0, 0, 0, 0])), [], examining (rxFrame .micPending (psduOf 8 0 ([1] ++ le 4 1 ++ [0, 0, 0, 0]))) base, by decide +kernel⟩,
    ⟨(0, 0), updRadio (fun r => { r with pendHold := some (0, 0) }) base, by decide⟩,
    ⟨0, releasedOf [], releasedState [] base, by decide⟩,
    ⟨0, 0, none, releasedOf (le 2 0 ++ le 2 0 ++ le 4 0), releasedState (le 2 0 ++ le 2 0 ++ le 4 0) (unassignedOwn (withNbr 0 base)), by decide⟩,
    ⟨0, 0, rxFrame .fresh [1, 0], examining (rxFrame .fresh [1, 0]) (updRadio (fun r => { r with awaiting := some 0 }) base), by decide⟩,
    ⟨0, updRadio (fun r => { r with awaiting := some 0 }) base, by decide⟩,
    ⟨0, 0, aFlight (.backoff 0), flying (aFlight (.backoff 0)) base, by decide⟩,
    ⟨updLink (fun l => { l with drop := { l.drop with noRoute := 1 } }) base, by decide⟩,
    ⟨5, 0xFFFF, updTiming (fun t => { t with pendingStep := [(5, 0xFFFF)] }) base, by decide⟩,
    ⟨base, by decide⟩,
    ⟨0, .ownWindow 0, scheduled base, by decide +kernel⟩,
    ⟨0, scheduled base, by decide⟩,
    ⟨0, scheduled (onAirNow base), by decide⟩,
    ⟨aWindow, updTiming (fun t => { t with window := some aWindow, cfg := { t.cfg with flags := 0 } }) (updClk (fun c => { c with mtime := 99999 }) base), by decide⟩,
    ⟨0, made (beaconTo .keepalive (some 0) (withChild base).radio.home true (withChild base)), withChild base, by decide +kernel⟩,
    ⟨0, ⟨0, none, 2, 0, 0⟩, made (beaconTo .resyncBeacon (some 0) (seqTune (resyncing ⟨0, none, 2, 0, 0⟩) 0 0 0) false (putResync ⟨0, none, 2, 1, 0⟩ (resyncing ⟨0, none, 2, 0, 0⟩))), resyncing ⟨0, none, 2, 0, 0⟩, by decide +kernel⟩,
    ⟨0, ⟨0, none, 0, 0, 0⟩, resyncing ⟨0, none, 0, 0, 0⟩, by decide⟩,
    ⟨(0, 0), updTiming (fun t => { t with listen := some (0, 0) }) base, by decide⟩⟩

/-- What `Obligations.FlowSteps` asks is met. -/
theorem test_FlowSteps :
    (∃ (s : State), s.clk.lfxrdy = true ∧ bucketPeriods ≤ s.tally.clock + 1) ∧
    (∃ (q : TxReq) (b : Nat) (rssiA : Int) (rssiB : Int) (s : State), s.radio.held = some q ∧ s.radio.lbtPhase = 1 ∧ s.radio.state = .rx ∧ s.radio.goal = none ∧ lbtBand s q = some b ∧ (ccaMean s q.ant rssiA rssiB).1 < (bandOf s b).cfg.lbtThreshold) ∧
    (∃ (q : TxReq) (b : Nat) (rssiA : Int) (rssiB : Int) (s : State), s.radio.held = some q ∧ s.radio.lbtPhase = 1 ∧ s.radio.state = .rx ∧ s.radio.goal = none ∧ lbtBand s q = some b ∧ q.timed = none ∧ 2 ≤ q.lbt ∧ (bandOf s b).cfg.lbtThreshold ≤ (ccaMean s q.ant rssiA rssiB).1) ∧
    (∃ (q : TxReq) (s : State), s.radio.held = some q ∧ s.radio.lbtPhase = 2 ∧ mtReached s.radio.lbtUntil s.clk.mtime = true) ∧
    (∃ (s : State), s.tally.refBands ≠ 0 ∧ secondPast s.tally.refEvent s = true) ∧
    (∃ (who : Who) (q : Nat) (waddr : Nat) (n : Nat) (s : State), mayAccess s who = true ∧ q < Config.queues s.dev.variant ∧ 0x400 ≤ waddr ∧ waddr < 8192 ∧ 8 ≤ n ∧ n ≤ 2112 ∧ waddr * 4 + n ≤ 0x8000 ∧ (queueOf s q).broken = false ∧ admits s q (cellsFor n) = true ∧ s.qm.stalls = []) ∧
    (∃ (who : Who) (q : Nat) (waddr : Nat) (n : Nat) (s : State), mayAccess s who = true ∧ q < Config.queues s.dev.variant ∧ waddr < 0x400 ∧ n < 4096) ∧
    (∃ (who : Who) (q : Nat) (waddr : Nat) (cap : Nat) (p : Packet) (rest : List Packet) (s : State), mayAccess s who = true ∧ q < Config.queues s.dev.variant ∧ (queueOf s q).kind ≠ 1 ∧ (queueOf s q).broken = false ∧ (queueOf s q).packets = p :: rest ∧ landing s (whoMaster who) q = some (waddr, cap) ∧ p.bytes.length ≤ cap ∧ p.ue = false) ∧
    (∃ (who : Who) (q : Nat) (waddr : Nat) (n : Nat) (s : State), mayAccess s who = true ∧ q < Config.queues s.dev.variant ∧ 0x400 ≤ waddr ∧ waddr < 8192 ∧ 1 ≤ n ∧ n < 4096 ∧ waddr * 4 + n ≤ 0x8000) ∧
    (∃ (x : Stall) (s : State), s.qm.stalls = [x] ∧ x.master = .app ∧ (queueOf s x.queue).stall ≠ 0) ∧
    (∃ (s : State), releasing s = true ∧ atLimit s = false ∧ schedPick (schedScan s) = none) ∧
    (∃ (i : Nat) (p : Packet) (s : State), releasing s = true ∧ atLimit s = false ∧ schedPick (schedScan s) = some i ∧ flowHead (schedScan s) (flowOf (schedScan s) i) = some p ∧ packetUs (schedScan s) p = none) ∧
    (∃ (s : State), netRuns s = true) ∧
    (∃ (i : Nat) (t : Nat) (s : State), (flowOf s i).eligible = some t ∧ mtReached t s.clk.mtime = true ∧ (flowOf s i).block = 4) ∧
    (∃ (s : State), s.sched.blkCount ≠ 0 ∧ secondPast s.sched.blkEvent s = true) := by
  exact ⟨⟨updTally (fun t => { t with clock := bucketPeriods - 1 }) base, by decide⟩,
    ⟨listening, 0, -101, -101, listenState 1 base, by decide⟩,
    ⟨listening, 0, -100, -100, listenState 1 base, by decide⟩,
    ⟨listening, listenState 2 base, by decide⟩,
    ⟨updTally (fun t => { t with refBands := 1 }) base, by decide⟩,
    ⟨.app, 0, 0x400, 8, base, by decide⟩,
    ⟨.app, 0, 0x3FF, 8, base, by decide⟩,
    ⟨.app, 0, 0x400, 8, ⟨[], [1, 2, 3, 4, 5, 6, 7, 8], false⟩, [], updQueue 0 (fun x => { x with landApp := some (0x400, 8) }) (queued [1, 2, 3, 4, 5, 6, 7, 8] base), by decide⟩,
    ⟨.host, 0, 8191, 4, base, by decide⟩,
    ⟨⟨.app, 0, 0, some 1⟩, updQm (fun m => { m with stalls := [⟨.app, 0, 0, some 1⟩] }) base, by decide⟩,
    ⟨base, by decide⟩,
    ⟨0, ⟨[], [], false⟩, updSched (fun x => { x with flow := [(0, { Flow.reset with cfg := ⟨1, 0, 1, 0, 0xFF⟩ })] }) (queued [] (updQueue 0 (fun x => { x with kind := 1 }) base)), by decide⟩,
    ⟨base, by decide⟩,
    ⟨0, 0, updSched (fun x => { x with flow := [(0, { Flow.reset with block := 4, eligible := some 0 })] }) base, by decide⟩,
    ⟨updSched (fun x => { x with blkCount := 1 }) base, by decide⟩⟩

/-- What `Obligations.CipherAndPowerSteps` asks is met. -/
theorem test_CipherAndPowerSteps :
    (∃ (n : Nat) (key : List Byte) (p : List Byte) (s : State), s.cipher.job = some (.run n key p) ∧ u8 p 1 = 0) ∧
    (∃ (n : Nat) (key : List Byte) (p : List Byte) (s : State), s.cipher.job = some (.run n key p) ∧ u8 p 1 = 4) ∧
    (∃ (slot : Nat) (a : Nat) (n : Nat) (s : State), s.cipher.job = some (.hash slot false a n) ∧ cryptoOn s = true) ∧
    (∃ (n : Nat) (p : List Byte) (s : State), s.cipher.job = some (.verify n p) ∧ ecdsaVerify (slice p 0 32) (slice p 32 64) (slice p 96 64) = 0) ∧
    (∃ (k : Nat) (s : State), cryptoOn s = true ∧ (ctrOf s k).writing = true) ∧
    (∃ (k : Nat) (s : State), cryptoOn s = true ∧ (ctrOf s k).writing = true ∧ (ctrOf s k).faulted = false) ∧
    (∃ (s : State), cryptoOn s = true) ∧
    (∃ (s : State), cryptoOn s = true ∧ s.cipher.source ≠ .fault ∧ s.cipher.halt = false) ∧
    (∃ (s : State), cryptoOn s = true ∧ s.cipher.halt = false ∧ 2 ^ 20 ≤ s.cipher.maskReq) ∧
    (∃ (s : State), cryptoOn s = true ∧ s.cipher.source = .running) ∧
    (∃ (s : State), cryptoOn s = true ∧ s.cipher.source ≠ .running) ∧
    (∃ (s : State), cryptoOn s = true ∧ s.cipher.source = .restarting ∧ 2 ≤ s.cipher.restarts) ∧
    (∃ (v : Word) (s : State), mayAccess s .app = true ∧ bit v 8 = false) ∧
    (∃ (v : Word) (s : State), mayAccess s .app = true ∧ bit v 8 = true ∧ codeDepth (v.toNat % 4) ≠ .none) ∧
    (∃ (d : Depth) (s : State), netRuns s = true ∧ s.pwr.phase = .awake ∧ 2 ≤ depthCode (modeDepth s.pwr.mode (shallower d (shallower (sideDepth s) (netLimit s))))) ∧
    (∃ (s : State), s.pwr.phase = .preparing ∧ unitsDone s = true ∧ s.pwr.seeking = .nap ∧ s.pwr.latch = 0) ∧
    (∃ (s : State), s.pwr.phase = .preparing ∧ unitsDone s = true ∧ s.pwr.seeking = .hibernate ∧ s.pwr.mode ≠ .shelf ∧ s.pwr.latch = 0) ∧
    (∃ (s : State), s.pwr.phase = .preparing ∧ unitsDone s = true ∧ s.pwr.seeking = .nap ∧ s.pwr.latch ≠ 0) ∧
    (∃ (s : State), s.pwr.phase = .committed ∧ s.pwr.seeking = .nap ∧ s.core.run ≠ .stalledSleep) ∧
    (∃ (s : State), s.pwr.phase = .committed ∧ s.pwr.seeking = .hibernate ∧ s.core.run = .stalledSleep) ∧
    (∃ (s : State), s.pwr.phase = .asleep ∧ s.pwr.seeking = .nap ∧ s.pwr.latch ≠ 0) ∧
    (∃ (s : State), pinsSeen s = true) ∧
    (∃ (pin : Nat) (s : State), pin < Config.gpio s.dev.variant ∧ bit s.pads.wakeEn pin = false) ∧
    (∃ (pin : Nat) (s : State), pin < Config.gpio s.dev.variant ∧ pinsSeen s = true ∧ bit s.pads.wakeEn pin = true ∧ bit s.pads.wakePol pin = true ∧ isAin s pin = false ∧ s.pads.wakeFlag = 0) ∧
    (∃ (t : Nat) (s : State), s.pwr.netTimer = some t ∧ mtReached t s.clk.mtime = true) ∧
    (∃ (v : Word) (s : State), mayAccess s .app = true ∧ mtReached (v.toNat + 2 ^ 32 * s.pwr.wakeAtHi) s.clk.mtime = false) ∧
    (∃ (s : State), s.pwr.armed = true ∧ mtReached s.pwr.wakeAt s.clk.mtime = true ∧ wakeEnabled s 7 = true) ∧
    (∃ (s : State), mayAccess s .app = true ∧ s.pwr.armed = false ∧ s.pwr.latch = 0) ∧
    (∃ (v : Word) (s : State), mayAccess s .app = true ∧ bit v 0 = true) ∧
    (∃ (v : Word) (r : PadRegs) (s : State), mayAccess s .app = true ∧ s.pads.shadow = some r ∧ bit v 0 = true) ∧
    (∃ (s : State), mayAccess s .app = true ∧ s.pads.shadow = none) := by
  exact ⟨⟨2, [], [0, 0], working_ (.run 2 [] [0, 0]) base, by decide⟩,
    ⟨2, [], [0, 4], working_ (.run 2 [] [0, 4]) base, by decide⟩,
    ⟨2, 0, 0, working_ (.hash 2 false 0 0) base, by decide⟩,
    ⟨2, sigReq, working_ (.verify 2 sigReq) base, ⟨rfl, by decide +kernel⟩⟩,
    ⟨63, updCipher (fun c => { c with ctr := [(63, { KeyCounter.zero with writing := true })] }) base, by decide⟩,
    ⟨63, updCipher (fun c => { c with ctr := [(63, { KeyCounter.zero with writing := true })] }) base, by decide⟩,
    ⟨base, by decide⟩,
    ⟨base, by decide⟩,
    ⟨updCipher (fun c => { c with maskReq := 2 ^ 20 }) base, by decide⟩,
    ⟨base, by decide⟩,
    ⟨updCipher (fun c => { c with source := .fault }) base, by decide⟩,
    ⟨updCipher (fun c => { c with source := .restarting, restarts := 2 }) base, by decide⟩,
    ⟨3, base, by decide⟩,
    ⟨0x103, base, by decide⟩,
    ⟨.nap, updPwr (fun p => { p with appDepth := .nap }) base, by decide⟩,
    ⟨sleeping .preparing .nap base, by decide⟩,
    ⟨sleeping .preparing .hibernate base, by decide⟩,
    ⟨sleeping .preparing .nap (updPwr (fun p => { p with latch := 1 }) base), by decide⟩,
    ⟨sleeping .committed .nap base, by decide⟩,
    ⟨sleeping .committed .hibernate (updCore (fun c => { c with run := .stalledSleep }) base), by decide⟩,
    ⟨sleeping .asleep .nap (updPwr (fun p => { p with latch := 1 }) base), by decide⟩,
    ⟨base, by decide⟩,
    ⟨11, ofVariant .face base, by decide⟩,
    ⟨19, { base with pads := { base.pads with wakeEn := 0x80000, wakePol := 0x80000 } }, by decide⟩,
    ⟨0, updPwr (fun p => { p with netTimer := some 0 }) base, by decide⟩,
    ⟨1, base, by decide⟩,
    ⟨updPwr (fun p => { p with armed := true, wakeEn := 0x3FF }) base, by decide⟩,
    ⟨base, by decide⟩,
    ⟨1, base, by decide⟩,
    ⟨1, ⟨1, 1, 1, 1⟩, { base with pads := { base.pads with shadow := some ⟨1, 1, 1, 1⟩ } }, by decide⟩,
    ⟨base, by decide⟩⟩

/-- What `Obligations.ResetSteps` asks is met. -/
theorem test_ResetSteps :
    (∃ (s : State), s.boot.aonLost = true ∧ s.upd.state ≠ .scheduled) ∧
    (∃ (s : State), s.boot.bor = false ∧ s.boot.aonLost = false) ∧
    (∃ (s : State), s.boot.bor = true ∧ s.boot.aonLost = false ∧ s.boot.backup = false ∧ s.boot.stage = .held ∧ s.port.field = true ∧ s.boot.nrst = false) ∧
    (∃ (s : State), s.boot.bor = true ∧ s.boot.aonLost = false ∧ s.boot.backup = false ∧ s.rtc.bksw = true) ∧
    (∃ (s : State), s.boot.bor = true ∧ s.boot.aonLost = false ∧ s.boot.backup = false ∧ s.rtc.bksw = false) ∧
    (∃ (s : State), s.boot.backup = true) ∧
    (∃ (s : State), s.boot.bor = true ∧ s.boot.aonLost = false ∧ s.boot.backup = false) ∧
    (∃ (s : State), s.boot.nrst = false ∧ s.boot.aonLost = false) ∧
    (∃ (s : State), s.boot.nrst = true ∧ s.boot.stage = .held ∧ s.boot.bor = true) ∧
    (∃ (s : State), s.boot.nrst = true ∧ s.boot.stage = .held ∧ s.boot.bor = false ∧ s.boot.backup = false ∧ s.boot.aonLost = false) ∧
    (∃ (s : State), netRuns s = true) ∧
    (∃ (v : Word) (s : State), mayAccess s .app = true ∧ v.extractLsb' 0 16 = 0xC0E5#16) ∧
    (∃ (v : Word) (s : State), mayAccess s .app = true ∧ v.extractLsb' 0 16 ≠ 0xC0E5#16) ∧
    (∃ (s : State), s.boot.coreRestart = true) ∧
    (∃ (s : State), s.pwr.phase = .asleep ∧ s.pwr.seeking = .hibernate ∧ s.pwr.latch ≠ 0 ∧ s.pwr.mode ≠ .shelf) ∧
    (∃ (t : State) (h : List Byte) (st : Nat) (s : State), s.core.run = .rom ∧ started s = true ∧ flashRead appBase 256 s.flash.autosus s = some (t, h, st) ∧ u32 h 0 = 0x1A425854 ∧ u32 h 252 = crc32 (slice h 0 252) ∧ u8 h 8 = 2) := by
  exact ⟨⟨updBoot (fun b => { b with aonLost := true }) base, by decide⟩,
    ⟨base, by decide⟩,
    ⟨updPort (fun p => { p with field := true }) (updBoot (fun b => { b with bor := true, stage := .held }) base), by decide⟩,
    ⟨updRtc (fun r => { r with bksw := true }) (updBoot (fun b => { b with bor := true }) base), by decide⟩,
    ⟨updRtc (fun r => { r with bksw := false }) (updBoot (fun b => { b with bor := true }) base), by decide⟩,
    ⟨updBoot (fun b => { b with backup := true }) base, by decide⟩,
    ⟨updBoot (fun b => { b with bor := true }) base, by decide⟩,
    ⟨base, by decide⟩,
    ⟨updBoot (fun b => { b with nrst := true, stage := .held, bor := true }) base, by decide⟩,
    ⟨updBoot (fun b => { b with nrst := true, stage := .held }) base, by decide⟩,
    ⟨base, by decide⟩,
    ⟨0xFFFFC0E5, base, by decide⟩,
    ⟨0xC0E4, base, by decide⟩,
    ⟨updBoot (fun b => { b with coreRestart := true }) base, by decide⟩,
    ⟨updPwr (fun p => { p with latch := 1 }) (sleeping .asleep .hibernate base), by decide⟩,
    ⟨bootable, flashBytes bootable appBase 256, 0, bootable, ⟨by decide, by decide, flashRead_clean _ _ _ _ _ rfl (by decide), by rw [boot_reads]; decide +kernel⟩⟩⟩

/-- What `Obligations.FlashSteps` asks is met. -/
theorem test_FlashSteps :
    (∃ (s : State), mayAccess s .app = true ∧ opOf s .app = false ∧ programAligned s.flash.addr s.flash.len = true ∧ regionError s .app (s.flash.addr / blk) = 0 ∧ 0x400 ≤ s.flash.waddr ∧ 4 * s.flash.waddr + s.flash.len ≤ 0x8000) ∧
    (∃ (s : State), mayAccess s .app = true ∧ opOf s .app = false ∧ s.flash.addr % blk = 0 ∧ regionError s .app (s.flash.addr / blk) = 0) ∧
    (∃ (s : State), mayAccess s .app = true ∧ opOf s .app = true) ∧
    (∃ (v : Word) (s : State), mayAccess s .app = true ∧ v.extractLsb' 16 16 ≠ 0xF1A5#16) ∧
    (∃ (plane : Nat) (o : FOp) (s : State), planeSt s plane = .idle ∧ (s.flash.waiting.find? fun o => planeOf s (o.addr / blk) == plane) = some o) ∧
    (∃ (o : FOp) (s : State), s.flash.p0 = .programming o ∧ o.master = .app) ∧
    (∃ (o : FOp) (at_ : Nat) (s : State), s.flash.p1 = .erasing o at_ ∧ o.master = .app) ∧
    (∃ (a : Nat) (o : Nat) (s : State), s.core.run = .running ∧ placeOf a = .xip ∧ xipRange s a 4 = true ∧ a % 4 = 0 ∧ a - xipBase = o ∧ planeSt s (planeOf s (o / blk)) = .idle ∧ (∀ u ∈ unitsOf o 4, unitStatus s u = 0)) ∧
    (∃ (o : FOp) (s : State), s.flash.p1 = .suspended o) ∧
    (∃ (s : State), mayAccess s .app = true) ∧
    (∃ (s : State), s.flash.query = true) := by
  exact ⟨⟨updFlash (fun f => { f with addr := 4096 * 561 - 16, len := 16, waddr := 0x400 }) base, by decide⟩,
    ⟨updFlash (fun f => { f with addr := 4096 * 560 }) base, by decide⟩,
    ⟨updFlash (fun f => { f with waiting := [⟨.app, true, 0, [], none, 0⟩] }) base, by decide⟩,
    ⟨0xF1A40001, base, by decide⟩,
    ⟨1, ⟨.app, true, 4096 * 8192, [], none, 0⟩, updFlash (fun f => { f with waiting := [⟨.app, true, 0, [], none, 0⟩, ⟨.app, true, 4096 * 8192, [], none, 0⟩] }) base, by decide⟩,
    ⟨⟨.app, false, 0, [], none, 0⟩, updFlash (fun f => { f with p0 := .programming ⟨.app, false, 0, [], none, 0⟩ }) base, by decide⟩,
    ⟨⟨.app, true, 0, [], none, 0⟩, 0, updFlash (fun f => { f with p1 := .erasing ⟨.app, true, 0, [], none, 0⟩ 0 }) base, by decide⟩,
    ⟨0x08230000, 0x230000, base, by decide⟩,
    ⟨⟨.app, true, 0, [], none, 0⟩, updFlash (fun f => { f with p1 := .suspended ⟨.app, true, 0, [], none, 0⟩ }) base, by decide⟩,
    ⟨base, by decide⟩,
    ⟨updFlash (fun f => { f with query := true }) base, by decide⟩⟩

/-- What `Obligations.UpdateAndRtcSteps` asks is met. -/
theorem test_UpdateAndRtcSteps :
    (∃ (slot : Nat) (s : State), s.upd.job = some (.begin slot) ∧ stageBlocks s = []) ∧
    (∃ (slot : Nat) (b : Nat) (c : Nat) (s : State), s.upd.job = some (.begin slot) ∧ stageBlocks s = [b] ∧ blockState s b ≠ 0 ∧ c < 65536) ∧
    (∃ (slot : Nat) (t : State) (d : List Byte) (st : Nat) (s : State), s.upd.job = some (.check slot) ∧ flashRead (stageBase s) (stagedFile s).length true s = some (t, d, st) ∧ imageCheck s stageRoom (stagedFile s) = 0) ∧
    (∃ (env : BootEnv) (s : State), started s = true ∧ s.upd.state = .invalid ∧ Config.sdHost s.dev.variant = true ∧ cardPick (updUpd (fun u => { u with card := env.card }) s) env.card (s.upd.broken.getD 1) = none) ∧
    (∃ (env : BootEnv) (f : List Byte) (s : State), started s = true ∧ s.upd.state = .invalid ∧ Config.sdHost s.dev.variant = true ∧ s.upd.broken = some 2 ∧ cardPick (updUpd (fun u => { u with card := env.card }) s) env.card 2 = some f ∧ (install env.badBlock false true f (updUpd (fun u => { u with card := env.card }) s)).upd.broken = none ∧ (install env.badBlock false true f (updUpd (fun u => { u with card := env.card }) s)).boot.stage ≠ .loader) ∧
    (∃ (k : Nat) (s : State), mayAccess s .app = true ∧ k < 7 ∧ s.rtc.app.frz = false) ∧
    (∃ (s : State), netRuns s = true ∧ s.rtc.net.frz = true) ∧
    (∃ (s : State), mayAccess s .app = true ∧ s.rtc.app.fields = 0) ∧
    (∃ (v : Word) (s : State), netRuns s = true ∧ bit v 0 = true) ∧
    (∃ (s : State), s.rtc.run = true ∧ s.boot.aonLost = false ∧ s.rtc.app.fields ≠ 0 ∧ s.rtc.net.fields = 0 ∧ s.rtc.now.tick.2.1 = false ∧ (s.rtc.now.tick.1.compose s.rtc.app.stage s.rtc.app.fields).bad.isSome = true) ∧
    (∃ (s : State), s.rtc.run = true ∧ s.boot.aonLost = false ∧ s.rtc.app.fields ≠ 0 ∧ s.rtc.net.fields = 0 ∧ s.rtc.now.tick.2.2 = false ∧ s.rtc.act = none ∧ fullCommit s.rtc.app.fields = true ∧ (s.rtc.now.tick.1.compose s.rtc.app.stage s.rtc.app.fields).bad = none) ∧
    (∃ (s : State), s.rtc.run = true ∧ s.boot.aonLost = false ∧ s.rtc.now.roll.2 = false ∧ s.rtc.act = none) ∧
    (∃ (s : State), s.clk.lfxrdy = true ∧ s.boot.aonLost = false) ∧
    (∃ (s : State), s.rtc.app.frz = true) := by
  exact ⟨⟨2, updUpd (fun u => { u with job := some (.begin 2) }) base, by decide⟩,
    ⟨2, stageBase base / blk, 65535, setWritten (256 * (stageBase base / blk)) 1 (updUpd (fun u => { u with job := some (.begin 2), size := 4096 }) base), by decide⟩,
    ⟨2, staged, anImage, 0, staged, ⟨by decide, by rw [staged_file]; decide +kernel, by rw [staged_file]; exact image_ok _ _ rfl rfl (by decide)⟩⟩,
    ⟨⟨.none, none, false, false, false⟩, updUpd (fun u => { u with state := .invalid }) base, by decide⟩,
    ⟨⟨.files 0 [anImage], none, false, false, false⟩, anImage, cardWaits, by decide, by decide, by decide, by decide, card_picks _ rfl rfl (by decide), by decide +kernel, by decide +kernel⟩,
    ⟨6, base, by decide⟩,
    ⟨updRtc (fun r => { r with net := { r.net with frz := true } }) base, by decide⟩,
    ⟨base, by decide⟩,
    ⟨1, base, by decide⟩,
    ⟨updRtc (fun r => { r with run := true, app := { r.app with fields := 8, stage := { r.app.stage with hour := 24 } } }) base, by decide⟩,
    ⟨updRtc (fun r => { r with run := true, app := { r.app with fields := 0xEE, stage := { r.app.stage with mon := 1, day := 1, year := 2000 } } }) base, by decide⟩,
    ⟨updRtc (fun r => { r with run := true }) base, by decide⟩,
    ⟨base, by decide⟩,
    ⟨updRtc (fun r => { r with app := { r.app with frz := true } }) base, by decide⟩⟩

/-- What `Obligations.PortFieldAndWireSteps` asks is met. -/
theorem test_PortFieldAndWireSteps :
    (∃ (s : State), s.port.field = false ∧ s.boot.bor = false) ∧
    (∃ (s : State), s.port.field = true ∧ s.boot.bor = false ∧ s.port.lock ≠ .field) ∧
    (∃ (s : State), s.port.field = true ∧ s.boot.bor = false ∧ s.port.lock = .field ∧ s.port.prio = true) ∧
    (∃ (s : State), s.port.fstate = .idle) ∧
    (∃ (s : State), s.port.fstate = .halt) ∧
    (∃ (s : State), s.port.fstate = .ready1) ∧
    (∃ (s : State), s.port.fstate = .ready2) ∧
    (∃ (s : State), s.port.fstate = .active) ∧
    (∃ (fsdi : Nat) (cid : Nat) (s : State), s.port.fstate = .active ∧ fsdi ≤ 8 ∧ cid < 15) ∧
    (∃ (s : State), s.port.fstate = .protocol ∧ s.port.cid < 15) ∧
    (∃ (s : State), s.port.fstate = .protocol ∧ s.port.lock ≠ .field) ∧
    (∃ (wtxm : Nat) (s : State), s.port.wait ≠ none ∧ 1 ≤ wtxm ∧ wtxm ≤ 59) ∧
    (∃ (n : Byte) (s : State), s.port.fstate = .protocol ∧ s.port.wait = none ∧ n.toNat < 2) ∧
    (∃ (n : Byte) (s : State), s.port.fstate = .protocol ∧ s.port.wait = none ∧ n.toNat < 2 ∧ s.port.chainOut ≠ []) ∧
    (∃ (s : State), mayAccess s .app = true ∧ s.port.grant = true ∧ s.port.lock = .free) ∧
    (∃ (s : State), mayAccess s .app = true ∧ s.port.grant = true ∧ s.port.lock = .field) ∧
    (∃ (s : State), mayAccess s .app = true ∧ s.port.grant = true ∧ s.port.lock = .app ∧ s.port.wait = none) ∧
    (∃ (s : State), mayAccess s .app = true ∧ s.port.grant = false) ∧
    (∃ (s : State), mayAccess s .app = true ∧ s.port.grant = true ∧ s.port.cmd = none ∧ s.port.lock = .app ∧ 8 ≤ s.port.block) ∧
    (∃ (s : State), mayAccess s .app = true ∧ s.port.grant = true ∧ s.port.cmd = none ∧ s.port.lock ≠ .app) ∧
    (∃ (s : State), s.port.cmd = some true ∧ s.port.lock = .app) ∧
    (∃ (s : State), s.port.cmd = some false ∧ s.port.lock = .app) ∧
    (∃ (j : PortJob) (b : List Byte) (c : List Byte) (r : List (List Byte)) (s : State), s.port.job = some j ∧ netRuns s = true ∧ s.port.lock = .net ∧ j.blocks = b :: c :: r) ∧
    (∃ (j : PortJob) (b : List Byte) (s : State), s.port.job = some j ∧ netRuns s = true ∧ s.port.lock = .net ∧ j.blocks = [b] ∧ s.port.wait = none) := by
  exact ⟨⟨base, by decide⟩,
    ⟨updPort (fun p => { p with field := true }) base, by decide⟩,
    ⟨granted .field (updPort (fun p => { p with field := true, prio := true }) base), by decide⟩,
    ⟨inField .idle base, by decide⟩,
    ⟨inField .halt base, by decide⟩,
    ⟨inField .ready1 base, by decide⟩,
    ⟨inField .ready2 base, by decide⟩,
    ⟨inField .active base, by decide⟩,
    ⟨8, 14, inField .active base, by decide⟩,
    ⟨inField .protocol base, by decide⟩,
    ⟨inField .protocol base, by decide⟩,
    ⟨59, updPort (fun p => { p with wait := some ([], 1) }) base, by decide⟩,
    ⟨1, inField .protocol base, by decide⟩,
    ⟨1, inField .protocol (updPort (fun p => { p with chainOut := [1] }) base), by decide⟩,
    ⟨granted .free base, by decide⟩,
    ⟨granted .field base, by decide⟩,
    ⟨granted .app base, by decide⟩,
    ⟨base, by decide⟩,
    ⟨granted .app (updPort (fun p => { p with block := 255 }) base), by decide⟩,
    ⟨granted .free base, by decide⟩,
    ⟨granted .app (updPort (fun p => { p with cmd := some true }) base), by decide⟩,
    ⟨granted .app (updPort (fun p => { p with cmd := some false }) base), by decide⟩,
    ⟨⟨2, 8, [[1], [2]], 0⟩, [1], [2], [], granted .net (updPort (fun p => { p with job := some ⟨2, 8, [[1], [2]], 0⟩ }) base), by decide⟩,
    ⟨⟨2, 8, [[1]], 0⟩, [1], granted .net (updPort (fun p => { p with job := some ⟨2, 8, [[1]], 0⟩ }) base), by decide⟩⟩

/-- What `Obligations.PortCommandSteps` asks is met. -/
theorem test_PortCommandSteps :
    let open_ (s : State) : Prop := s.port.fstate = .protocol ∧ s.port.wait = none ∧ s.port.lock = .free ∧ s.port.chainIn = []
    (∃ (s : State), open_ s) ∧
    (∃ (n : Nat) (s : State), open_ s ∧ s.port.sel = .ndef n) ∧
    (∃ (o : Byte) (k : Byte) (s : State), open_ s ∧ s.port.sel = .ndef 0xE104 ∧ o.toNat ≤ (ndefFile s 0xE104).length ∧ 0 < k.toNat) ∧
    (∃ (s : State), open_ s ∧ s.port.sel = .commissioning) ∧
    (∃ (slot : Nat) (pw : List Byte) (s : State), open_ s ∧ s.port.sel = .commissioning ∧ slot ≤ 3 ∧ pw.length = 16 ∧ (pwOf s slot).state = 1 ∧ pw = (pwOf s slot).pw ∧ s.port.pw.length = 4) ∧
    (∃ (b : Byte) (s : State), open_ s ∧ s.port.sel = .commissioning ∧ 16 ≤ b.toNat ∧ mayRead s = true) ∧
    (∃ (b : Byte) (s : State), open_ s ∧ s.port.sel = .commissioning ∧ 16 ≤ b.toNat ∧ mayRead s = false) ∧
    (∃ (b : Byte) (d : List Byte) (s : State), open_ s ∧ s.port.sel = .commissioning ∧ 16 ≤ b.toNat ∧ d.length = 32 ∧ mayWrite s = true) ∧
    (∃ (d : List Byte) (s : State), open_ s ∧ s.port.sel = .commissioning ∧ 4 ≤ d.length ∧ d.length ≤ 228 ∧ mayWrite s = true) ∧
    (∃ (m : List Byte) (s : State), open_ s ∧ s.port.sel = .commissioning ∧ m.length < 256 ∧ messageOk m = true ∧ s.port.auth = some 2 ∧ portServed s = true ∧ bit s.port.flags 1 = false ∧ firmwareServes s = false) ∧
    (∃ (n : Nat) (cmd : List Byte) (s : State), s.port.wait = some (cmd, n) ∧ s.port.mbxReq = none ∧ s.port.lock ≠ .free ∧ n < 3) ∧
    (∃ (cmd : List Byte) (s : State), s.port.wait = some (cmd, 3) ∧ s.port.mbxReq = none ∧ s.port.lock ≠ .free) := by
  dsimp only
  exact ⟨⟨inField .protocol base, by decide⟩,
    ⟨0xE104, inField .protocol (updPort (fun p => { p with sel := .ndef 0xE104 }) base), by decide⟩,
    ⟨53, 255, inField .protocol (updPort (fun p => { p with sel := .ndef 0xE104 }) base), by decide⟩,
    ⟨commissioning none base, by decide⟩,
    ⟨3, aPassword, commissioning none (updPort (fun p => { p with pw := p.pw.set 3 { PwSlot.reset with pw := aPassword } }) base), by decide⟩,
    ⟨255, commissioning (some 3) base, by decide⟩,
    ⟨16, commissioning none base, by decide⟩,
    ⟨16, List.replicate 32 1, commissioning (some 2) base, by decide⟩,
    ⟨List.replicate 228 1, commissioning (some 0) base, by decide +kernel⟩,
    ⟨List.replicate 16 0, commissioning (some 2) (updPwr (fun p => { p with phase := .asleep, seeking := .nap }) base), by decide⟩,
    ⟨2, [], granted .field (updPort (fun p => { p with wait := some ([], 2) }) base), by decide⟩,
    ⟨[], granted .field (updPort (fun p => { p with wait := some ([], 3) }) base), by decide⟩⟩

/-- What `Obligations.PortwFollowsTheGrant` asks is met. -/
theorem test_PortwFollowsTheGrant :
    (∃ (off : Nat) (s : State), s.port.grant = false ∧ off < 0x1000 ∧ off % 4 = 0 ∧ off ≠ 0) ∧
    (∃ (off : Nat) (s : State), s.port.grant = false ∧ mayAccess s .app = true ∧ off < 0x1000 ∧ off % 4 = 0) ∧
    (∃ (off : Nat) (s : State), s.port.grant = false ∧ off < 0x1000 ∧ off % 4 = 0) ∧
    (∃ (s : State), mayAccess s .app = true ∧ s.port.grant = true ∧ s.port.cmd = none ∧ s.port.lock ≠ .app) ∧
    (∃ (s : State), mayAccess s .app = true ∧ s.port.grant = true ∧ s.port.cmd = none ∧ s.port.lock = .app ∧ s.port.block < 8) := by
  exact ⟨⟨0xFFC, base, by decide⟩,
    ⟨0xFFC, base, by decide⟩,
    ⟨0, base, by decide⟩,
    ⟨granted .free base, by decide⟩,
    ⟨granted .app (updPort (fun p => { p with block := 7 }) base), by decide⟩⟩

/-- What `Obligations.SerialAndAdcSteps` asks is met. -/
theorem test_SerialAndAdcSteps :
    (∃ (n : Nat) (s : State), mayAccess s .app = true ∧ (seOf s n).en = true ∧ (seOf s n).role = 0 ∧ (seOf s n).phase = .idle ∧ (seOf s n).wlen ≠ 0) ∧
    (∃ (n : Nat) (s : State), mayAccess s .app = true ∧ (seOf s n).en = true ∧ (seOf s n).role = 1 ∧ (seOf s n).phase = .idle) ∧
    (∃ (n : Nat) (s : State), mayAccess s .app = true ∧ (seOf s n).en = true ∧ (seOf s n).role ≤ 1 ∧ (seOf s n).phase ≠ .idle) ∧
    (∃ (n : Nat) (s : State), mayAccess s .app = true ∧ (seOf s n).role ≤ 1 ∧ (seOf s n).phase ≠ .idle) ∧
    (∃ (n : Nat) (s : State), mayAccess s .app = true ∧ (seOf s n).role ≤ 1 ∧ (seOf s n).phase = .idle) ∧
    (∃ (n : Nat) (s : State), mayAccess s .app = true ∧ (seOf s n).tx.length < 32) ∧
    (∃ (n : Nat) (s : State), mayAccess s .app = true ∧ 32 ≤ (seOf s n).tx.length) ∧
    (∃ (n : Nat) (b : Byte) (r : List Byte) (s : State), mayAccess s .app = true ∧ (seOf s n).rx = b :: r) ∧
    (∃ (n : Nat) (s : State), mayAccess s .app = true ∧ (seOf s n).phase = .idle) ∧
    (∃ (n : Nat) (s : State), mayAccess s .app = true ∧ (seOf s n).phase ≠ .idle) ∧
    (∃ (n : Nat) (s : State), (seOf s n).phase = .transfer ∧ (seOf s n).role = 0 ∧ (seOf s n).rxen = false ∧ (seOf s n).wleft ≤ (seOf s n).tx.length ∧ (seOf s n).wleft ≤ 255) ∧
    (∃ (n : Nat) (s : State), (seOf s n).phase = .transfer ∧ (seOf s n).role = 1) ∧
    (∃ (n : Nat) (s : State), (seOf s n).en = true ∧ (seOf s n).role = 2 ∧ (seOf s n).rx.length < 32) ∧
    (∃ (n : Nat) (s : State), (seOf s n).en = true ∧ (seOf s n).role = 2 ∧ 32 ≤ (seOf s n).rx.length) ∧
    (∃ (n : Nat) (b : Byte) (r : List Byte) (s : State), (seOf s n).en = true ∧ (seOf s n).role = 2 ∧ (seOf s n).tx = b :: r ∧ (bit (seOf s n).ctl 13 = false ∨ (seOf s n).cts = false)) ∧
    (∃ (v : Word) (s : State), mayAccess s .app = true ∧ bit v 0 = true ∧ s.adc.trig = 0 ∧ s.adc.en = true ∧ s.adc.slot = none) ∧
    (∃ (v : Word) (k : Nat) (s : State), mayAccess s .app = true ∧ bit v 0 = true ∧ s.adc.trig = 0 ∧ s.adc.en = true ∧ s.adc.slot = some k) ∧
    (∃ (s : State), mayAccess s .app = true ∧ s.adc.trig ≠ 0) ∧
    (∃ (s : State), s.adc.en = true) ∧
    (∃ (vref : Nat) (k : Nat) (s : State), s.adc.slot = some k ∧ s.adc.settled = true ∧ adcHasPin s (s.adc.chan k) = true ∧ vref ≠ 0 ∧ s.adc.fifo.length < 16 ∧ k < bits s.adc.seq.toNat 24 3) ∧
    (∃ (k : Nat) (s : State), s.adc.slot = some k ∧ s.adc.settled = true ∧ adcHasPin s (s.adc.chan k) = false ∧ s.adc.fifo.length < 16 ∧ bits s.adc.seq.toNat 24 3 ≤ k ∧ bit s.adc.ctl 2 = false) ∧
    (∃ (k : Nat) (s : State), s.adc.slot = some k ∧ s.adc.settled = true ∧ 16 ≤ s.adc.fifo.length ∧ bits s.adc.seq.toNat 24 3 ≤ k ∧ bit s.adc.ctl 2 = true) ∧
    (∃ (x : AdcResult) (r : List AdcResult) (s : State), mayAccess s .app = true ∧ s.adc.fifo = x :: r) := by
  exact ⟨⟨0, updSe 0 (fun e => { e with xfer := 1 }) (serial 1 .idle base), by decide⟩,
    ⟨0, serial 3 .idle base, by decide⟩,
    ⟨0, serial 3 .transfer base, by decide⟩,
    ⟨0, serial 2 .busclr base, by decide⟩,
    ⟨0, serial 2 .idle base, by decide⟩,
    ⟨0, updSe 0 (fun e => { e with tx := List.replicate 31 0 }) base, by decide⟩,
    ⟨1, updSe 1 (fun e => { e with tx := List.replicate 32 0 }) base, by decide⟩,
    ⟨1, 7, [], updSe 1 (fun e => { e with rx := [7] }) base, by decide⟩,
    ⟨0, base, by decide⟩,
    ⟨0, serial 1 .busclr base, by decide⟩,
    ⟨0, updSe 0 (fun e => { e with wleft := 1, tx := [9] }) (serial 1 .transfer base), by decide⟩,
    ⟨0, serial 3 .transfer base, by decide⟩,
    ⟨0, serial 5 .idle base, by decide⟩,
    ⟨0, updSe 0 (fun e => { e with rx := List.replicate 32 0 }) (serial 5 .idle base), by decide⟩,
    ⟨0, 9, [], updSe 0 (fun e => { e with tx := [9] }) (serial 5 .idle base), by decide⟩,
    ⟨1, ({ base with adc := { base.adc with ctl := 1 } }), by decide⟩,
    ⟨1, 0, ({ base with adc := { base.adc with ctl := 1, slot := some 0 } }), by decide⟩,
    ⟨({ base with adc := { base.adc with ctl := 9 } }), by decide⟩,
    ⟨({ base with adc := { base.adc with ctl := 1 } }), by decide⟩,
    ⟨1, 0, ({ base with adc := { base.adc with slot := some 0, settled := true, seq := 0x1000007 } }), by decide⟩,
    ⟨7, ({ base with adc := { base.adc with slot := some 7, settled := true, seq := 0x7000000 } }), by decide⟩,
    ⟨0, ({ base with adc := { base.adc with ctl := 4, slot := some 0, settled := true, fifo := List.replicate 16 ⟨0, 0, false⟩ } }), by decide⟩,
    ⟨⟨0, 0, false⟩, [], ({ base with adc := { base.adc with fifo := [⟨0, 0, false⟩] } }), by decide⟩⟩

/-- What `Obligations.TimerAndWatchdogSteps` asks is met. -/
theorem test_TimerAndWatchdogSteps :
    (∃ (s : State), mayAccess s .app = true) ∧
    (∃ (n : Nat) (s : State), pclkRuns s = true ∧ n < 4 ∧ (tmrOf s n).en = true ∧ (tmrOf s n).mode = 0 ∧ (tmrOf s n).cmp ≤ (tmrOf s n).top ∧ s.adc.trig ≠ n + 1) ∧
    (∃ (n : Nat) (s : State), pclkRuns s = true ∧ n < 4 ∧ (tmrOf s n).en = true ∧ (tmrOf s n).mode = 1 ∧ (tmrOf s n).cmp ≤ (tmrOf s n).top ∧ s.adc.trig ≠ n + 1) ∧
    (∃ (n : Nat) (s : State), pclkRuns s = true ∧ n < 4 ∧ (tmrOf s n).en = true ∧ (tmrOf s n).mode = 0 ∧ (tmrOf s n).cmp ≤ (tmrOf s n).top ∧ s.adc.trig = n + 1 ∧ s.adc.en = true ∧ s.adc.slot = none) ∧
    (∃ (n : Nat) (s : State), pclkRuns s = true ∧ n < 4 ∧ (tmrOf s n).en = true ∧ (tmrOf s n).cmp > (tmrOf s n).top) ∧
    (∃ (n : Nat) (s : State), pclkRuns s = true ∧ n < 4 ∧ s.tmr.length = 4 ∧ (tmrOf s n).en = true ∧ (tmrOf s n).mode = 0 ∧ (tmrOf s n).cmp ≠ 0 ∧ bit (tmrOf s n).ctl 11 = false) ∧
    (∃ (n : Nat) (s : State), pclkRuns s = true ∧ n < 4 ∧ s.tmr.length = 4 ∧ (tmrOf s n).en = true ∧ (tmrOf s n).mode = 0 ∧ (tmrOf s n).cmp ≠ 0 ∧ bit (tmrOf s n).ctl 11 = true) ∧
    (∃ (n : Nat) (top : Word) (cmp : Word) (s : State), pclkRuns s = true ∧ n < 4 ∧ s.tmr.length = 4 ∧ (tmrOf s n).en = true ∧ (tmrOf s n).mode = 1 ∧ (tmrOf s n).topNext = some top ∧ (tmrOf s n).cmpNext = some cmp ∧ cmp ≠ 0 ∧ bit (tmrOf s n).ctl 11 = false) ∧
    (∃ (n : Nat) (s : State), pclkRuns s = true ∧ n < 4 ∧ (tmrOf s n).en = true ∧ (tmrOf s n).mode = 2 ∧ bits (tmrOf s n).ctl.toNat 12 2 = 0 ∧ bit (tmrOf s n).stat 2 = false) ∧
    (∃ (n : Nat) (s : State), pclkRuns s = true ∧ n < 4 ∧ (tmrOf s n).en = true ∧ (tmrOf s n).mode = 2 ∧ bits (tmrOf s n).ctl.toNat 12 2 = 2 ∧ bit (tmrOf s n).stat 2 = true) ∧
    (∃ (n : Nat) (s : State), pclkRuns s = true ∧ n < 4 ∧ s.tmr.length = 4 ∧ (tmrOf s n).mode = 2 ∧ bits (tmrOf s n).ctl.toNat 12 2 = 0) ∧
    (∃ (v : Word) (s : State), mayAccess s .app = true ∧ s.wdg.en = false ∧ bit v 0 = true ∧ s.wdg.lock = false) ∧
    (∃ (s : State), mayAccess s .app = true ∧ s.wdg.en = true ∧ s.wdg.lock = true) ∧
    (∃ (v : Word) (s : State), mayAccess s .app = true ∧ s.wdg.en = true ∧ v.toNat % 65536 = 0x5EED) ∧
    (∃ (v : Word) (s : State), mayAccess s .app = true ∧ s.wdg.en = true ∧ v.toNat % 65536 ≠ 0x5EED) ∧
    (∃ (s : State), s.wdg.en = true ∧ s.wdg.feeding = true ∧ s.wdg.expired = false) ∧
    (∃ (s : State), wdgCounts s = true) ∧
    (∃ (s : State), wdgCounts s = true ∧ (oByte s.boot.opt 0x00B).testBit 0 = true) ∧
    (∃ (s : State), s.wdg.en = true ∧ s.wdg.expired = true ∧ (oByte s.boot.opt 0x00B).testBit 0 = false) ∧
    (∃ (s : State), s.wdg.en = false) := by
  exact ⟨⟨base, by decide⟩,
    ⟨3, timing3 1 base, by decide⟩,
    ⟨3, timing3 3 base, by decide⟩,
    ⟨3, timing3 1 { base with adc := { base.adc with ctl := 0x21 } }, by decide⟩,
    ⟨3, ({ base with tmr := base.tmr.set 3 { Tmr.reset with ctl := 1, cmp := 5, top := 4 } }), by decide⟩,
    ⟨3, timing3 1 base, by decide⟩,
    ⟨3, timing3 0x801 base, by decide⟩,
    ⟨3, 9, 1, { timing3 3 base with tmr := base.tmr.set 3 { Tmr.reset with ctl := 3, topNext := some 9, cmpNext := some 1 } }, by decide⟩,
    ⟨3, timing3 5 base, by decide⟩,
    ⟨3, { timing3 5 base with tmr := base.tmr.set 3 { Tmr.reset with ctl := 0x2005, stat := 4 } }, by decide⟩,
    ⟨3, timing3 4 base, by decide⟩,
    ⟨1, base, by decide⟩,
    ⟨watched true true false false base, by decide⟩,
    ⟨0xFFFF5EED, watched true false false false base, by decide⟩,
    ⟨0x5EEC, watched true false false false base, by decide⟩,
    ⟨watched true false true false base, by decide⟩,
    ⟨watched true false false false base, by decide⟩,
    ⟨watched true false false false base, by decide⟩,
    ⟨updBoot (fun b => { b with opt := { b.opt with bytes := tset 0 0x00B 0 b.opt.bytes } }) (watched true false false true base), by decide⟩,
    ⟨base, by decide⟩⟩

/-- What `Obligations.DebugPortSteps` asks is met. -/
theorem test_DebugPortSteps :
    (∃ (s : State), s.boot.debug = 0) ∧
    (∃ (s : State), s.boot.debug ≠ 0 ∧ s.core.run = .running) ∧
    (∃ (s : State), s.boot.debug ≠ 0 ∧ s.core.run = .halted) ∧
    (∃ (s : State), s.boot.debug ≠ 0) ∧
    (∃ (a : Word) (s : State), s.boot.debug ≠ 0 ∧ a.toNat % 4 = 0 ∧ placeOf a.toNat = .ram) ∧
    (∃ (a : Word) (s : State), s.boot.debug ≠ 0 ∧ misaligned a.toNat .w = true) := by
  exact ⟨⟨base, by decide⟩,
    ⟨debugging 1 base, by decide⟩,
    ⟨debugging 1 (updCore (fun c => { c with run := .halted }) base), by decide⟩,
    ⟨debugging 1 base, by decide⟩,
    ⟨0x2007FFFC, debugging 1 base, by decide⟩,
    ⟨0x20000001, debugging 1 base, by decide⟩⟩

/-- What `Obligations.ArithmeticRows` asks is met. -/
theorem test_ArithmeticRows :
    (∃ (s : State), Plain s) := by
  exact ⟨base, by constructor <;> decide⟩

/-- What `Obligations.LoadAndStoreRows` asks is met. -/
theorem test_LoadAndStoreRows :
    (∃ (ra : Reg) (imm : BitVec 17) (s : State), Plain s ∧ ReadsRam (greg s ra + imm.signExtend 32) .w s) ∧
    (∃ (ra : Reg) (imm : BitVec 17) (s : State), Plain s ∧ ReadsRam (greg s ra + imm.signExtend 32) .h s) ∧
    (∃ (ra : Reg) (imm : BitVec 17) (s : State), Plain s ∧ ReadsRam (greg s ra + imm.signExtend 32) .b s) ∧
    (∃ (ra : Reg) (imm : BitVec 17) (s : State), Plain s ∧ WritesRam (greg s ra + imm.signExtend 32) .w s) ∧
    (∃ (ra : Reg) (imm : BitVec 17) (s : State), Plain s ∧ WritesRam (greg s ra + imm.signExtend 32) .h s) ∧
    (∃ (ra : Reg) (imm : BitVec 17) (s : State), Plain s ∧ WritesRam (greg s ra + imm.signExtend 32) .b s) := by
  exact ⟨⟨1, 0x1FFFC, withU 1 0x20080000 base, by constructor <;> decide, by decide⟩,
    ⟨1, 0x1FFFC, withU 1 0x2007FFFE base, by constructor <;> decide, by decide⟩,
    ⟨1, 0x1FFFC, withU 1 0x20080003 base, by constructor <;> decide, by decide⟩,
    ⟨1, 0x1FFFC, withU 1 0x20080000 base, by constructor <;> decide, by decide⟩,
    ⟨1, 0x1FFFC, withU 1 0x2007FFFE base, by constructor <;> decide, by decide⟩,
    ⟨1, 0x1FFFC, withU 1 0x20080003 base, by constructor <;> decide, by decide⟩⟩

/-- What `Obligations.AccessFaults` asks is met. -/
theorem test_AccessFaults :
    (∃ (ra : Reg) (imm : BitVec 17) (s : State), Plain s ∧ misaligned (greg s ra + imm.signExtend 32).toNat .w = true) ∧
    (∃ (ra : Reg) (imm : BitVec 17) (s : State), Plain s ∧ misaligned (greg s ra + imm.signExtend 32).toNat .h = true) ∧
    (∃ (ra : Reg) (imm : BitVec 17) (s : State), Plain s ∧ misaligned (greg s ra + imm.signExtend 32).toNat .w = false ∧ mpuAllows s.core s.core.mach 0 (greg s ra + imm.signExtend 32).toNat = false) ∧
    (∃ (ra : Reg) (imm : BitVec 17) (s : State), Plain s ∧ misaligned (greg s ra + imm.signExtend 32).toNat .b = false ∧ mpuAllows s.core s.core.mach 1 (greg s ra + imm.signExtend 32).toNat = false) ∧
    (∃ (ra : Reg) (imm : BitVec 17) (s : State), Plain s ∧ mpuAllows s.core s.core.mach 0 (greg s ra + imm.signExtend 32).toNat = true ∧ placeOf (greg s ra + imm.signExtend 32).toNat = .none) ∧
    (∃ (ra : Reg) (imm : BitVec 17) (s : State), Plain s ∧ mpuAllows s.core s.core.mach 1 (greg s ra + imm.signExtend 32).toNat = true ∧ placeOf (greg s ra + imm.signExtend 32).toNat = .none) ∧
    (∃ (s : State), s.core.run = .running ∧ s.core.pc.toNat % 4 ≠ 0) ∧
    (∃ (s : State), s.core.run = .running ∧ s.core.pc.toNat % 4 = 0 ∧ mpuAllows s.core s.core.mach 2 s.core.pc.toNat = false) ∧
    (∃ (s : State), s.core.run = .running ∧ s.core.pc.toNat % 4 = 0 ∧ mpuAllows s.core s.core.mach 2 s.core.pc.toNat = true ∧ placeOf s.core.pc.toNat = .shared) ∧
    (∃ (s : State), s.core.run = .halted) := by
  exact ⟨⟨1, 0, withU 1 0x20000001 base, by constructor <;> decide, by decide⟩,
    ⟨1, 0, withU 1 0x20000001 base, by constructor <;> decide, by decide⟩,
    ⟨1, 0, withU 1 0x20000004 (caged 4 base), by constructor <;> decide, by decide⟩,
    ⟨1, 0, withU 1 0x20000004 (caged 5 base), by constructor <;> decide, by decide⟩,
    ⟨1, 0, withU 1 0xFFFFFFFC base, by constructor <;> decide, by decide⟩,
    ⟨1, 0, withU 1 0x50000000 base, by constructor <;> decide, by decide⟩,
    ⟨updCore (fun c => { c with pc := 0x20000002 }) base, by decide⟩,
    ⟨caged 3 base, by decide⟩,
    ⟨updCore (fun c => { c with pc := 0x20100000 }) base, by decide⟩,
    ⟨updCore (fun c => { c with run := .halted }) base, by decide⟩⟩

/-- What `Obligations.BranchRows` asks is met. -/
theorem test_BranchRows :
    (∃ (s : State), Plain s) ∧
    (∃ (ra : Reg) (s : State), Plain s ∧ (greg s ra).toNat % 4 = 0) ∧
    (∃ (ra : Reg) (s : State), Plain s ∧ (greg s ra).toNat % 4 ≠ 0) := by
  exact ⟨⟨base, by constructor <;> decide⟩,
    ⟨1, withU 1 0x20000004 base, by constructor <;> decide, by decide⟩,
    ⟨1, withU 1 0x20000002 base, by constructor <;> decide, by decide⟩⟩

/-- What `Obligations.CallAndReturnRows` asks is met. -/
theorem test_CallAndReturnRows :
    (∃ (s : State), Plain s ∧ s.core.split = true ∧ s.core.hw.length < 64) ∧
    (∃ (s : State), Plain s ∧ s.core.split = true ∧ 64 ≤ s.core.hw.length) ∧
    (∃ (s : State), Plain s ∧ s.core.split = false ∧ WritesRam (s.core.get 15 - 4#32) .w s) ∧
    (∃ (ra : Reg) (s : State), Plain s ∧ (greg s ra).toNat % 4 = 0 ∧ s.core.split = true ∧ s.core.hw.length < 64) ∧
    (∃ (ra : Reg) (s : State), Plain s ∧ (greg s ra).toNat % 4 = 0 ∧ s.core.split = false ∧ WritesRam (s.core.get 15 - 4#32) .w s) ∧
    (∃ (ra : Reg) (s : State), Plain s ∧ (greg s ra).toNat % 4 ≠ 0) ∧
    (∃ (a : Word) (l : List HwEntry) (s : State), Plain s ∧ s.core.split = true ∧ s.core.hw = { ret := a, st := none } :: l ∧ a.toNat % 4 = 0) ∧
    (∃ (s : State), Plain s ∧ s.core.split = true ∧ s.core.hw = []) ∧
    (∃ (a : Word) (v : Word) (l : List HwEntry) (s : State), Plain s ∧ s.core.split = true ∧ s.core.hw = { ret := a, st := some v } :: l) ∧
    (∃ (a : Word) (s : State), Plain s ∧ s.core.split = false ∧ ReadsRam (s.core.get 15) .w s ∧ unle (rdBytes s (s.core.get 15).toNat 4) = a.toNat ∧ a.toNat % 4 = 0) ∧
    (∃ (a : Word) (v : Word) (l : List HwEntry) (s : State), Plain s ∧ s.core.mach = true ∧ s.core.split = true ∧ s.core.hw = { ret := a, st := some v } :: l ∧ a.toNat % 4 = 0) ∧
    (∃ (a : Word) (v : Word) (s : State), Plain s ∧ s.core.mach = true ∧ s.core.split = false ∧ ReadsRam s.core.spm .w s ∧ ReadsRam (s.core.spm + 4#32) .w s ∧ unle (rdBytes s s.core.spm.toNat 4) = a.toNat ∧ unle (rdBytes s (s.core.spm + 4#32).toNat 4) = v.toNat ∧ a.toNat % 4 = 0) ∧
    (∃ (s : State), Plain s ∧ s.core.mach = false) := by
  exact ⟨⟨base, by constructor <;> decide, by decide⟩,
    ⟨stacked (List.replicate 64 ⟨0, none⟩) base, by constructor <;> decide, by decide⟩,
    ⟨unsplit 0x20080000 base, by constructor <;> decide, by decide⟩,
    ⟨1, base, by constructor <;> decide, by decide⟩,
    ⟨1, unsplit 0x20080000 base, by constructor <;> decide, by decide⟩,
    ⟨1, withU 1 3 base, by constructor <;> decide, by decide⟩,
    ⟨0x20000100, [], stacked [⟨0x20000100, none⟩] base, by constructor <;> decide, by decide⟩,
    ⟨base, by constructor <;> decide, by decide⟩,
    ⟨1, 2, [], stacked [⟨1, some 2⟩] base, by constructor <;> decide, by decide⟩,
    ⟨0x20000100, unsplit 0x2007FFFC (holding 0x2007FFFC (le 4 0x20000100) base), by constructor <;> decide, by decide⟩,
    ⟨4, 2, [], stacked [⟨4, some 2⟩] base, by constructor <;> decide, by decide⟩,
    ⟨0x20000100, 2, unsplit 0x2007FFF8 (holding 0x2007FFF8 (le 4 0x20000100 ++ le 4 2) base), by constructor <;> decide, by decide⟩,
    ⟨userMode base, by constructor <;> decide, by decide⟩⟩

/-- What `Obligations.ExceptionRows` asks is met. -/
theorem test_ExceptionRows :
    (∃ (v : Word) (s : State), Plain s ∧ s.core.split = true ∧ s.core.hw.length < 64 ∧ Vectored 7 v s) ∧
    (∃ (v : Word) (s : State), Plain s ∧ s.core.split = true ∧ s.core.hw.length < 64 ∧ Vectored 8 v s ∧ s.boot.debug = 0) ∧
    (∃ (s : State), Plain s ∧ 1 ≤ s.boot.debug ∧ s.core.debugHalt = true) ∧
    (∃ (exc : Nat) (v : Word) (s : State), Plain s ∧ s.core.split = true ∧ s.core.hw.length < 64 ∧ Vectored exc v s ∧ exc ≠ 7 ∧ exc ≠ 8) ∧
    (∃ (v : Word) (s : State), Plain s ∧ MemWf s ∧ s.core.split = false ∧ Vectored 7 v s ∧ s.core.spm.toNat % 4 = 0 ∧ mpuAllows s.core true 1 (s.core.spm - 4#32).toNat = true ∧ mpuAllows s.core true 1 (s.core.spm - 8#32).toNat = true ∧ placeOf (s.core.spm - 4#32).toNat = .ram ∧ placeOf (s.core.spm - 8#32).toNat = .ram ∧ (∀ k < 4, (vectorAddr s 7).toNat + k < (s.core.spm - 8#32).toNat ∨ (s.core.spm - 4#32).toNat + 4 ≤ (vectorAddr s 7).toNat + k)) ∧
    (∃ (w : Word) (s : State), Plain s ∧ wordDefined w = false ∧ bit w 31 = false) ∧
    (∃ (n : Nat) (v : Word) (s : State), Plain s ∧ s.core.split = true ∧ s.core.hw.length < 64 ∧ nextSource s = some n ∧ Vectored (16 + n) v s) ∧
    (∃ (s : State), s.core.run = .running ∧ nextSource s = none) ∧
    (∃ (s : State), Plain s ∧ enabledPends s = false) ∧
    (∃ (s : State), Plain s ∧ enabledPends s = true) ∧
    (∃ (s : State), s.core.run = .waiting ∧ enabledPends s = true ∧ s.core.ie = false) := by
  exact ⟨⟨0x20000100, vectorAt 7 0x20000100 base, by constructor <;> decide, by decide⟩,
    ⟨0x20000100, vectorAt 8 0x20000100 base, by constructor <;> decide, by decide⟩,
    ⟨debugging 1 (updCore (fun c => { c with debugHalt := true }) base), by constructor <;> decide, by decide⟩,
    ⟨4, 0x20000100, vectorAt 4 0x20000100 base, by constructor <;> decide, by decide⟩,
    ⟨0x20000100, unsplit 0x20080000 (vectorAt 7 0x20000100 base), by constructor <;> decide, by decide⟩,
    ⟨0, base, by constructor <;> decide, by decide⟩,
    ⟨39, 0x20000100, vectorAt 55 0x20000100 (updCore (fun c => { c with swi := 0x80, ie := true, ien := 1 <<< 39 }) base), by constructor <;> decide, by decide⟩,
    ⟨base, by decide⟩,
    ⟨base, by constructor <;> decide, by decide⟩,
    ⟨updCore (fun c => { c with swi := 0x80, ien := 1 <<< 39 }) base, by constructor <;> decide, by decide⟩,
    ⟨updCore (fun c => { c with run := .waiting, swi := 0x80, ien := 1 <<< 39 }) base, by decide⟩⟩

/-- What `Obligations.SystemRegisterRows` asks is met. -/
theorem test_SystemRegisterRows :
    (∃ (s : State), Plain s) ∧
    (∃ (s : State), Plain s ∧ s.core.mach = true) ∧
    (∃ (sr : BitVec 8) (s : State), Plain s ∧ s.core.mach = false ∧ srListed sr.toNat = true ∧ sr.toNat ≠ 0 ∧ sr.toNat ≠ 1 ∧ sr.toNat ≠ 8) ∧
    (∃ (sr : BitVec 8) (s : State), Plain s ∧ srListed sr.toNat = false) ∧
    (∃ (s : State), Plain s ∧ s.core.mach = true ∧ s.core.split = false) ∧
    (∃ (ra : Reg) (s : State), Plain s ∧ s.core.mach = true ∧ s.core.split = true ∧ bit (greg s ra) 2 = false ∧ s.pwr.mode ≠ .service ∧ s.core.hw = []) ∧
    (∃ (sr : BitVec 8) (s : State), Plain s ∧ s.core.mach = true ∧ 5 ≤ sr.toNat ∧ sr.toNat ≤ 7) ∧
    (∃ (sr : BitVec 8) (s : State), Plain s ∧ s.core.mach = false ∧ srListed sr.toNat = true ∧ sr.toNat ≠ 1) := by
  exact ⟨⟨base, by constructor <;> decide⟩,
    ⟨base, by constructor <;> decide, by decide⟩,
    ⟨48, userMode base, by constructor <;> decide, by decide⟩,
    ⟨9, base, by constructor <;> decide, by decide⟩,
    ⟨unsplit 0 base, by constructor <;> decide, by decide⟩,
    ⟨0, base, by constructor <;> decide, by decide⟩,
    ⟨7, base, by constructor <;> decide, by decide⟩,
    ⟨48, userMode base, by constructor <;> decide, by decide⟩⟩

/-- What `Obligations.PairsRepeatsAndDelays` asks is met. -/
theorem test_PairsRepeatsAndDelays :
    (∃ (w : Word) (s : State), Plain s ∧ peek s (s.core.pc + 4#32).toNat = some w ∧ notRepeatable w = false) ∧
    (∃ (f : BitVec 8) (w : Word) (s : State), Plain s ∧ f.toNat ≤ 63 ∧ peek s (s.core.pc + 4#32).toNat = some w ∧ notRepeatable w = false) ∧
    (∃ (ra : Reg) (w : Word) (s : State), Plain s ∧ greg s ra = 0 ∧ peek s (s.core.pc + 4#32).toNat = some w ∧ notRepeatable w = false) ∧
    (∃ (ra : Reg) (s : State), Plain s ∧ 64 < (greg s ra).toNat) ∧
    (∃ (w : Word) (s : State), Plain s ∧ peek s (s.core.pc + 4#32).toNat = some w ∧ notRepeatable w = true) ∧
    (∃ (s : State), s.core.run = .running ∧ fetchFails s = none ∧ s.core.pendLoad = none ∧ s.core.ract = true ∧ 1 < s.core.rpc) ∧
    (∃ (s : State), s.core.run = .running ∧ fetchFails s = none ∧ s.core.pendLoad = none ∧ s.core.ract = true ∧ s.core.rpc ≤ 1) ∧
    (∃ (r : Nat) (v : Word) (s : State), s.core.run = .running ∧ fetchFails s = none ∧ s.core.pendLoad = some (r, v) ∧ s.core.ract = false) ∧
    (∃ (rd : Reg) (v : Word) (s : State), s.core.run = .running ∧ fetchFails s = none ∧ s.core.pendLoad = some (rd.toNat, v) ∧ s.core.ract = false ∧ rd.toNat < 15) ∧
    (∃ (s : State), Plain s) ∧
    (∃ (a : Reg) (c : Reg) (s : State), Plain s ∧ a ≠ c) ∧
    (∃ (a : Reg) (b : Reg) (s : State), Plain s ∧ a ≠ b ∧ ReadsRam (greg s b) .w s) ∧
    (∃ (a : Reg) (s : State), Plain s ∧ WritesRam (greg s a - 4#32) .w s) ∧
    (∃ (a : Short) (b : Short) (f : Option Bool) (s : State), Plain s ∧ pairFault a b = some f) := by
  exact ⟨⟨0, base, by constructor <;> decide, by decide⟩,
    ⟨63, 0, base, by constructor <;> decide, by decide⟩,
    ⟨1, 0, base, by constructor <;> decide, by decide⟩,
    ⟨1, withU 1 65 base, by constructor <;> decide, by decide⟩,
    ⟨0x2E000000, holding 0x20000004 (le 4 0x2E000000) base, by constructor <;> decide, by decide⟩,
    ⟨updCore (fun c => { c with ract := true, rpc := 2 }) base, by decide⟩,
    ⟨updCore (fun c => { c with ract := true, rpc := 1 }) base, by decide⟩,
    ⟨15, 9, updCore (fun c => { c with pendLoad := some (15, 9) }) base, by decide⟩,
    ⟨14, 9, updCore (fun c => { c with pendLoad := some (14, 9) }) base, by decide⟩,
    ⟨base, by constructor <;> decide⟩,
    ⟨1, 2, base, by constructor <;> decide, by decide⟩,
    ⟨1, 2, withU 2 0x2007FFFC base, by constructor <;> decide, by decide⟩,
    ⟨1, withU 1 0x20080000 base, by constructor <;> decide, by decide⟩,
    ⟨⟨31, 0, 0, 0⟩, ⟨0, 0, 0, 0⟩, some false, base, by constructor <;> decide, by decide⟩⟩

/-- What `Obligations.StoreFrame` asks is met. -/
theorem test_StoreFrame :
    (∃ (ra : Reg) (imm : BitVec 17) (s : State), Plain s ∧ MemWf s ∧ WritesRam (greg s ra + imm.signExtend 32) .w s) ∧
    (∃ (ra : Reg) (imm : BitVec 17) (s : State), Plain s ∧ MemWf s ∧ WritesRam (greg s ra + imm.signExtend 32) .h s) ∧
    (∃ (ra : Reg) (imm : BitVec 17) (s : State), Plain s ∧ MemWf s ∧ WritesRam (greg s ra + imm.signExtend 32) .b s) := by
  exact ⟨⟨1, 0x1FFFC, withU 1 0x20080000 base, by constructor <;> decide, by decide⟩,
    ⟨1, 0x1FFFC, withU 1 0x2007FFFE base, by constructor <;> decide, by decide⟩,
    ⟨1, 0x1FFFC, withU 1 0x20080003 base, by constructor <;> decide, by decide⟩⟩

/-- What `Obligations.GeneralRegisters` asks is met. -/
theorem test_GeneralRegisters :
    (∃ (c : Core), c.u.length = 15) ∧
    (∃ (r : Reg) (q : Reg), q ≠ r) ∧
    (∃ (c : Core), c.mach = true) ∧
    (∃ (c : Core), c.mach = false) := by
  exact ⟨⟨base.core, by decide⟩,
    ⟨1, 15, by decide⟩,
    ⟨base.core, by decide⟩,
    ⟨(userMode base).core, by decide⟩⟩

/-- What `Obligations.MpuRegions` asks is met. -/
theorem test_MpuRegions :
    (∃ (c : Core), bit c.mpuCtl 0 = false) ∧
    (∃ (c : Core) (l : List MpuRegion) (h : List MpuRegion) (r : MpuRegion) (a : Nat), bit c.mpuCtl 0 = true ∧ c.mpu = l ++ r :: h ∧ r.en = true ∧ a / 2 ^ (r.size + 1) = r.base.toNat * 256 / 2 ^ (r.size + 1) ∧ (∀ q ∈ h, q.en = true → a / 2 ^ (q.size + 1) ≠ q.base.toNat * 256 / 2 ^ (q.size + 1))) ∧
    (∃ (c : Core) (a : Nat), bit c.mpuCtl 0 = true ∧ (∀ q ∈ c.mpu, q.en = true → a / 2 ^ (q.size + 1) ≠ q.base.toNat * 256 / 2 ^ (q.size + 1))) ∧
    (∃ (s : State), s.core.split = false ∧ s.core.spm.toNat % 4 = 0 ∧ mpuAllows s.core true 1 (s.core.spm - 4#32).toNat = false ∧ placeOf (s.core.spm - 4#32).toNat = .ram) ∧
    (∃ (n : Nat) (s : State), s.core.split = true ∧ s.core.hw.length < 64 ∧ mpuAllows s.core true 0 (vectorAddr s n).toNat = false) := by
  exact ⟨⟨base.core, by decide⟩,
    ⟨(caged 5 base).core, [], [], ⟨true, 31, 0, 5⟩, 0xFFFFFFFF, by decide⟩,
    ⟨(caged 5 base).core, 0x100000000, by decide⟩,
    ⟨updCore (fun c => { c with split := false, spm := 0x20080000 }) (updCore (fun c => { c with mpuCtl := 3, mpu := [⟨true, 31, 0, 0⟩] }) base), by decide⟩,
    ⟨63, updCore (fun c => { c with mpuCtl := 3, mpu := [⟨true, 31, 0, 0⟩] }) base, by decide⟩⟩

/-- What `Obligations.UpdatingLoadsAndStores` asks is met. -/
theorem test_UpdatingLoadsAndStores :
    (∃ (op : BitVec 5) (m : BitVec 2) (s : State), Plain s ∧ 19 ≤ op.toNat ∧ op.toNat ≤ 23 ∧ (m = 1 ∨ m = 2)) ∧
    (∃ (r : Reg) (s : State), Plain s ∧ WritesRam (greg s r) .w s) ∧
    (∃ (r : Reg) (s : State), Plain s ∧ WritesRam (greg s r - 2#32) .h s) ∧
    (∃ (r : Reg) (s : State), Plain s ∧ WritesRam (greg s r - 1#32) .b s) ∧
    (∃ (a : Reg) (b : Reg) (e : Nat) (s : State) (t : State), Plain s ∧ a ≠ b ∧ coreRead s.core.mach (greg s b) .w (some a.toNat) s = .fail e t) ∧
    (∃ (a : Reg) (b : Reg) (e : Nat) (s : State) (t : State), Plain s ∧ coreWrite s.core.mach (greg s a) .w (greg s b) s = .fail e t) ∧
    (∃ (m : Bool) (a : Word) (z : Size) (rd : Option Nat) (e : Nat) (s : State) (t : State), coreRead m a z rd s = .fail e t) ∧
    (∃ (m : Bool) (a : Word) (v : Word) (z : Size) (e : Nat) (s : State) (t : State), coreWrite m a z v s = .fail e t) ∧
    (∃ (v : Word) (s : State), s.core.run = .running ∧ fetchFails s = none ∧ s.core.pendLoad = some (15, v) ∧ s.core.mach = true ∧ s.core.split = false) ∧
    (∃ (v : Word) (s : State), s.core.run = .running ∧ fetchFails s = none ∧ s.core.pendLoad = some (15, v) ∧ s.core.ract = false ∧ s.core.mach = false ∧ s.core.u.length = 15) := by
  exact ⟨⟨19, 1, base, by constructor <;> decide, by decide⟩,
    ⟨1, withU 1 0x2007FFFC base, by constructor <;> decide, by decide⟩,
    ⟨1, withU 1 0x20080000 base, by constructor <;> decide, by decide⟩,
    ⟨1, withU 1 0x20080000 base, by constructor <;> decide, by decide⟩,
    ⟨1, 2, 3, withU 2 0x20000001 base, withU 2 0x20000001 base, by constructor <;> decide, by decide, rfl⟩,
    ⟨1, 2, 3, withU 1 0x20000001 base, withU 1 0x20000001 base, by constructor <;> decide, rfl⟩,
    ⟨true, 0x20000001, .w, none, 3, base, base, rfl⟩,
    ⟨true, 0x20000001, 0, .w, 3, base, base, rfl⟩,
    ⟨9, unsplit 0 (updCore (fun c => { c with pendLoad := some (15, 9) }) base), by decide⟩,
    ⟨9, userMode (updCore (fun c => { c with pendLoad := some (15, 9) }) base), by decide⟩⟩

/-! ### Worked examples of the spec, and values computed by hand from its rules -/

/-- The next state that a command answers. -/
def after (o : Out) : State :=
  match o with
  | .next t => t
  | _ => State.reset

/-- R3: DEVCAP of the three variants; chapter 02's example: what SYS_CAPS answers on a Drift. -/
theorem test_devcap : Config.devcap .shaft = 0x0A5F020E#32 ∧ Config.devcap .drift = 0x0A5E8119#32 ∧ Config.devcap .face = 0x063C0030#32 := by decide

theorem test_sysCaps : rdBytes (after (exec (.sysCaps ⟨1, none, none⟩) (asking 1 0x0101 [] (ofVariant .drift base)))) (rspBuf 1 + 16) 28 =
    [0x19, 0x81, 0x5E, 0x0A, 0, 8, 0, 0, 0, 4, 0, 0, 0, 1, 0, 0, 0, 0x10, 0, 0, 0x40, 0, 0, 0, 0, 0, 1, 0] := by decide +kernel

/-- R44: a request of an unknown version of the layout is answered in the response buffer, the channel DONE, with its SEQUENCE. -/
theorem test_response_header : rdBytes (after (exec (.sysCaps ⟨1, none, none⟩) (asking 1 0x0101 [] base))) (rspBuf 1) 8 = [1, 1, 7, 0, 28, 0, 2, 0] := by
  decide +kernel

/-- Chapter 01's example: MTIME over ten minutes of HIBERNATE, 19,660,564 slow edges of 512.006144 ticks, to the nearest tick. -/
theorem test_slow_increment : (19660564 * slowStep (updClk (fun c => { c with slowCount := 1500018 }) base) + 2 ^ 31) / 2 ^ 32 = 10066329563 := by decide

/-- Chapter 04's example: +20 dBm asked at −10 °C and 2.8 V. -/
theorem test_clamped_frame :
    let tab : List Int := List.replicate 5 0 ++ [6, 3, 0, 0, 5, 2] ++ List.replicate 21 0
    let r := startRecord { base.radio.cfg with comp := tab, txport := 0 } { sending (.frame 0) with power := some 40 } 0 (-40) 2800
    r.applied = 34 ∧ r.comp = 4 ∧ r.paCode = 332 ∧ r.flags = 5 := by decide

/-- R206's example: the first octet 0x41 is sent as 0xA1; chapter 06's table: the symbols of a 40-octet Seam frame at each rate. -/
theorem test_seam_symbols : pn9 0x1FF [0x41] = [0xA1] ∧
    (List.range 8).map (fun i => (seamFrame i (List.replicate 40 0)).length) = [1684, 1684, 964, 604, 604, 496, 460, 604] := by decide +kernel

/-- Chapter 07's example: the 56 bits of the wake sequence are 0xB3 8F 02 16 02 80 81, each sent as two unlike chips. -/
theorem test_wake_chips : wakeChips 0x42C05 0 = ((bitsMsb 56 0xB38F0216028081).flatMap fun b => [b, !b]) := by decide +kernel

/-- Lane 0 delivered an OFDM frame with SEQ 1, and its acknowledgement is held by the radio in TXREADY. -/
def acking (s : State) : State :=
  updRadio (fun r => { r with state := .txready, goal := none, held := some (sending (.ack 0)) })
    (examining { rxFrame .micPending (psduOf 16 2 []) with ack := .committed, mcs := 3 }
      (updLane 0 (fun l => { l with cfg := { l.cfg with phy := 2, rate := 4 } }) s))

/-- R194, R259, R268: an acknowledgement of an OFDM frame goes on air: six octets, the SEQ of the frame, and the next scrambler seed. -/
theorem test_ack_on_air :
    let t := after (exec (.txStart 3300 100) (acking base))
    (t.radio.onAir.map fun q => q.air) = some (.ofdm 4 3 0 ([0x11, 0] ++ le 4 (crc32 [0x11, 0]))) ∧ t.lanes.seed = 1 := by decide +kernel

/-- Chapter 06's example: the header check and the on-air times of a 40-octet Seam frame. -/
theorem test_seam_frame :
    seamHcs 0x28 = 0x03 ∧ (seamTable.map fun r => airTime 3 r.1 0 0 false 40) = [1247408, 623704, 357038, 223704, 111852, 61235, 31945, 14318] := by
  decide +kernel

/-- R191: SUN FSK at 100,000 bit/s; R196: 1,800 octets at SUN OFDM option 1, MCS3 (chapter 08's example). -/
theorem test_on_air_times : airTime 1 100000 0 8 false 120 = 10560 ∧ airTime 2 1 3 0 false 1800 = 19200 := by decide

/-- Chapter 07's example: the CRC of a wake sequence. -/
theorem test_wake_crc : wakeCrc 0x42C05 0 = 0x81 := by decide +kernel

/-- R237: a repetition that begins 500 µs after the last one's end repeats it, one that begins later does not. -/
theorem test_wake_repeat :
    let s := updCanary (fun c => { c with repeatOf := some (0x42C05, 0, 0x81, 1000) }) base
    wakeRepeats s ⟨0x42C05, 0, 0x81, 1000 + usTicks 28500⟩ = true ∧ wakeRepeats s ⟨0x42C05, 0, 0x81, 1001 + usTicks 28500⟩ = false := by decide

/-- Chapter 08's example: nested ranges. -/
theorem test_nested_ranges :
    let s := updLink (fun l => { l with cfg := { l.cfg with ownShort := 0x40001 }, parent := ⟨1, 0, 40, 0, 0⟩,
                                        route := [(3, ⟨1, 16, 64, 0x40000, 9⟩), (7, ⟨1, 10, 64, 0x42000, 22⟩), (12, ⟨1, 8, 64, 0x42C00, 31⟩)] }) base
    ((lookup s 0x42C05).route.map fun r => r.nextHop) = some 31 ∧ ((lookup s 0x423FF).route.map fun r => r.nextHop) = some 22 ∧
    ((lookup s 0x42400).route.map fun r => r.nextHop) = some 9 ∧ ((lookup s 0x50000).route.map fun r => r.nextHop) = some 0 := by decide

/-- Chapter 09's example: the guard 40 minutes after the last sync. -/
theorem test_guard :
    let s := updTiming (fun t => { t with sync := [(0, ⟨1, true, true, 0, 0⟩)] })
      (updNbr 0 (fun e => { e with drift := 3200 }) (updClk (fun c => { c with sync := true }) base))
    guardUs s (some 0) (40265318400 + 1) = 31830 ∧ guardUs s none 1 = 50000 := by decide

/-- Chapter 10's example: the band of an hour's budget, at 20 s. -/
theorem test_fits_in_ms :
    let t := [33487360, 412000] ++ List.replicate 58 0
    let a := [5040000, 60000] ++ List.replicate 58 0
    let s := updTally (fun x => { x with clock := bucketPeriods - 3 * 32768 })
      (updBand 0 (fun b => { b with cfg := { b.cfg with limitPpm := 10000, reservePpm := 2000 }, total := t, ack := a }) base)
    usedUs s 0 0 = 33899360 ∧ heldUs s 0 0 = 2100000 ∧ fits s 0 640 false 0 = true ∧ fits s 0 641 false 0 = false ∧ fits s 0 2100640 true 0 = true ∧
    fitsInMs s 0 10560 false = 3000 := by decide

/-- Chapter 11's example: 66, 117 and 150 bytes take 2, 2 and 3 cells. -/
theorem test_cells : cellsFor 66 = 2 ∧ cellsFor 117 = 2 ∧ cellsFor 150 = 3 := by decide

/-- Chapter 12's example: the stamps at the start. -/
theorem test_stamps : 10000 + cost 200 4 = 22800 ∧ 10000 + cost 100 1 = 35600 ∧ 10000 + cost 150 2 = 29200 := by decide

/-- Chapter 13's example: the reservations of a counter. -/
theorem test_reservations : nextReserve 0 = 0x10000 ∧ nextReserve 0x20000 = 0x30000 ∧ nextReserve 0xFFFFFFFF = 0xFFFFFFFF := by decide

/-- Chapter 18's example: a commit over a leap-day boundary that is refused, and one at a roll-over that is taken. -/
theorem test_leap_day :
    let at_ (sub day mon : Nat) : State := updRtc (fun r =>
      { r with run := true, osf := true, now := ⟨sub, 59, 59, 23, 2, 28, 2, 2100⟩, app := { r.app with fields := 0xEF, stage := ⟨16384, 0, 0, 0, 0, day, mon, 2100⟩ } }) base
    let x := (after (exec .rtcCommit (at_ 32760 29 2))).rtc
    let y := (after (exec .rtcCommit (at_ 32767 1 3))).rtc
    x.app.werr = true ∧ x.app.fields = 0 ∧ x.osf = true ∧ x.now = ⟨32761, 59, 59, 23, 2, 28, 2, 2100⟩ ∧
    y.app.werr = false ∧ y.osf = false ∧ y.now = ⟨16384, 0, 0, 0, 3, 1, 3, 2100⟩ := by decide

/-- Chapter 19's example: two meters whose UIDs differ in the last bit. -/
theorem test_anticollision :
    let meter (b : Byte) (f : FState) : State := inField f (updPort (fun p => { p with uid := [0x6D, 0x41, 0x0C, 0x93, 0x57, 0xE2, b] }) base)
    let said (f : List Byte) (s : State) : List Byte := (after (exec (.anticollision f) s)).port.answer
    said [0x93, 0x20] (meter 0x18 .ready1) = [0x88, 0x6D, 0x41, 0x0C, 0xA8] ∧ said [0x95, 0x20] (meter 0x98 .ready2) = [0x93, 0x57, 0xE2, 0x98, 0xBE] ∧
    said [0x95, 0x60, 0x93, 0x57, 0xE2, 0x98] (meter 0x98 .ready2) = [0xBE] ∧ said [0x95, 0x60, 0x93, 0x57, 0xE2, 0x98] (meter 0x18 .ready2) = [] := by
  decide

/-- Chapter 20's example: the third repetition of the pair that sums. -/
theorem test_pipelined_sum :
    let s := holding 0x20001008 (le 4 0x30) (withU 2 0x20001008 (withU 4 0x10 (updCore (fun c => { c with pendLoad := some (4, 0x20), ract := true, runi := true, rpc := 2 }) base)))
    let t := (after (exec (.pairWord ⟨19, 4, 2, 1⟩ ⟨2, 5, 4, 0⟩) s)).core
    t.u = [0, 0, 0x2000100C, 0, 0x20, 0x10, 0, 0, 0, 0, 0, 0, 0, 0, 0] ∧ t.pendLoad = some (4, 0x30) ∧ t.rpc = 1 ∧ t.pc = s.core.pc := by decide +kernel

/-- Chapter 21's example: the slots of its words, and what three of them do. -/
theorem test_slots : shortOf 0x3980 = ⟨14, 6, 0, 0⟩ ∧ shortOf 0x39D0 = ⟨14, 7, 4, 0⟩ ∧ shortOf 0x60D9 = ⟨24, 3, 6, 1⟩ ∧ shortOf 0x3681 = ⟨13, 10, 0, 1⟩ := by decide

theorem test_movi : ((after (exec (.pairWord ⟨14, 6, 0, 0⟩ ⟨14, 7, 4, 0⟩) (withU 6 9 base))).core.u.drop 6).take 2 = [0, 16] := by decide

theorem test_store_and_add :
    let t := after (exec (.pairWord ⟨24, 3, 6, 1⟩ ⟨0, 0, 0, 0⟩) (holding 0x20002000 [1, 2, 3, 4] (withU 3 0x20002000 base)))
    rdBytes t 0x20002000 4 = [0, 0, 0, 0] ∧ t.core.get 3 = 0x20002004#32 := by decide

theorem test_branch_taken : (after (exec (.briNe 4 0 12) (withU 4 1 (updCore (fun c => { c with pc := 0x08230414 }) base)))).core.pc = 0x08230444#32 := by decide

/-- R633: the division corners. -/
theorem test_division :
    let run (i : Instr) (a b : Word) : Word := (after (exec i (withU 1 a (withU 2 b base)))).core.get 3
    run (.divS 3 1 2) (-7) 2 = -3 ∧ run (.modS 3 1 2) (-7) 2 = -1 ∧ run (.divU 3 1 2) 7 2 = 3 ∧ run (.modU 3 1 2) 7 2 = 1 := by decide

/-- Chapter 22's example: the cell's voltage. -/
theorem test_conversion :
    let s : State := { base with adc := { base.adc with slot := some 0, settled := true, seq := 6 } }
    (after (exec (.adcConversionEnd 750 1250) s)).adc.fifo = [⟨2458, 6, false⟩] := by decide

/-- R40: a ring of an IDLE channel makes it BUSY. -/
theorem test_doorbell : at_ .idle (after (exec (.doorbell .app 2) base)).mbx.chan 1 = .busy := by decide

/-- R592: without the grant a write of a PORTW register changes nothing. -/
theorem test_portw : (after (exec (.registerWrite .app 0x4000B008 0xFF) base)).port = base.port := by decide

/-! ### Ill-formed commands -/

/-- `WellFormed` refuses one past the range that each of its checks asks for. -/
theorem test_illFormed_refused :
    ([.sysCaps ⟨6, none, none⟩, .sysCaps ⟨0, some 16384, none⟩, .requestBufferWrite .app (2 ^ 32) .b 0, .eventWrite 5, .shotTrigger 4, .shotFrameTimeout 4, .shotQuiesceStart 4, .shotSwap 4, .shotBoundExpiry 4, .timerMatch 4, .timerWrap 4, .shotPersistDone 4 none] : List Instr).all (fun i => !WellFormed i) ∧
    ([.shotPersistDone 3 (some 16384), .calEnd (2 ^ 16), .divDecisionEnd 16 0 0 none, .pllLock ⟨.none, some 16384, false, false, false⟩, .sdCardSearch ⟨.none, some 16384, false, false, false⟩, .scalWindowEnd (2 ^ 24), .laneSofDetect 0 2 true 0, .laneSofDetect 16 0 true 0, .laneSofDetect 0 0 true (2 ^ 56), .laneHeader 16 (.seam 0), .seamPilotBlock 16 true true, .laneFcsResult 16 (laneRes [])] : List Instr).all (fun i => !WellFormed i) ∧
    ([.agcClip 2, .canarySequenceEnd ⟨2 ^ 25, 0, 0, 0⟩, .canarySequenceEnd ⟨0, 128, 0, 0⟩, .canarySequenceEnd ⟨0, 0, 256, 0⟩, .canarySequenceEnd ⟨0, 0, 0, 2 ^ 56⟩, .linkTakeFrame 256 .none, .wheelEligible 256, .keepaliveBeacon 6144, .resyncBeacon 6144, .resyncInterval 6144, .qmPush .app 512 0, .qmPop .app 512 .none] : List Instr).all (fun i => !WellFormed i) ∧
    ([.qmLandingWrite .app 512 0, .fcReserveWrite 64 none, .fcReserveWrite 0 (some 16384), .gpioEdge 20 true true, .flashCommandStart 2, .eraseResume 2, .eraseSuspended 2, .flashProgramDone 2 { ce := [], ue := [] }, .flashEraseDone 2 { ce := [], ue := [] }, .flashXipRead (2 ^ 32) .w false, .updateStageBeginDone (some 16384), .rtcTimeRead false 8] : List Instr).all (fun i => !WellFormed i) ∧
    ([.wtxExpiry (some 16384) none, .mailbox [] (some 16384) none, .seGo 2, .seAbort 2, .seBusclr 2, .seDataWrite 2 0, .seDataRead 2, .seConfigWrite 2 .ctl 0, .seI2cTimeout 2, .seUartRxByte 2 0 .none, .seUartTxByte 2, .ctsChange 2 true] : List Instr).all (fun i => !WellFormed i) ∧
    ([.seTransferEnd 2 ⟨0, [], 0⟩, .seTransferEnd 0 ⟨0, [], 4⟩, .timerCapture 4 true 0, .timerCapture 0 true (2 ^ 32), .sWtxAnswer 60, .sWtxAnswer 0] : List Instr).all (fun i => !WellFormed i) := by
  decide

/-- It takes the last of each range. -/
theorem test_lastOfRange_wellFormed :
    ([.sysCaps ⟨5, none, none⟩, .sysCaps ⟨0, some 16383, none⟩, .requestBufferWrite .app (2 ^ 32 - 1) .b 0, .eventWrite 6, .shotTrigger 3, .shotFrameTimeout 3, .shotQuiesceStart 3, .shotSwap 3, .shotBoundExpiry 3, .timerMatch 3, .timerWrap 3, .shotPersistDone 3 (some 16383)] : List Instr).all WellFormed ∧
    ([.calEnd (2 ^ 16 - 1), .divDecisionEnd 15 0 0 none, .pllLock ⟨.none, some 16383, false, false, false⟩, .sdCardSearch ⟨.none, none, false, false, false⟩, .scalWindowEnd (2 ^ 24 - 1), .laneSofDetect 15 1 true (2 ^ 56 - 1), .laneHeader 15 (.seam 0), .seamPilotBlock 15 true true, .laneFcsResult 15 (laneRes []), .agcClip 1, .canarySequenceEnd ⟨2 ^ 25 - 1, 127, 255, 2 ^ 56 - 1⟩, .linkTakeFrame 255 .none] : List Instr).all WellFormed ∧
    ([.wheelEligible 255, .keepaliveBeacon 6143, .resyncBeacon 6143, .resyncInterval 6143, .qmPush .app 511 0, .qmPop .app 511 .none, .qmLandingWrite .app 511 0, .fcReserveWrite 63 (some 16383), .gpioEdge 19 true true, .flashCommandStart 1, .eraseResume 1, .eraseSuspended 1] : List Instr).all WellFormed ∧
    ([.flashProgramDone 1 { ce := [], ue := [] }, .flashEraseDone 1 { ce := [], ue := [] }, .flashXipRead (2 ^ 32 - 1) .w false, .updateStageBeginDone (some 16383), .rtcTimeRead false 7, .wtxExpiry (some 16383) none, .mailbox [] none none, .seGo 1, .seAbort 1, .seBusclr 1, .seDataWrite 1 0, .seDataRead 1] : List Instr).all WellFormed ∧
    ([.seConfigWrite 1 .ctl 0, .seI2cTimeout 1, .seUartRxByte 1 0 .none, .seUartTxByte 1, .ctsChange 1 true, .seTransferEnd 1 ⟨0, [], 3⟩, .timerCapture 3 true (2 ^ 32 - 1), .sWtxAnswer 59] : List Instr).all WellFormed := by
  decide

end Sys2Proof.Tests
end

/-! The mailboxes (chapter 02): the states of a channel (R39) and the buffers of a BUSY channel (R40). -/

namespace Sys2Proof.Machine

/-! ### A written word that names one channel -/

theorem bit_twoPow {n m : Nat} (hm : m < 32) : bit (BitVec.ofNat 32 (2 ^ n)) m = decide (n = m) := by
  rw [bit, BitVec.getLsbD_ofNat, Nat.testBit_two_pow, decide_eq_true hm, Bool.true_and]

/-- Of the first `k` bits of `2 ^ n` only bit `n` is set. -/
theorem channels_twoPow {n k : Nat} (hn : n < k) (hk : k ≤ 32) :
    (List.range k).filter (fun m => bit (BitVec.ofNat 32 (2 ^ n)) m) = [n] := by
  have hbit : (List.range k).filter (fun m => bit (BitVec.ofNat 32 (2 ^ n)) m) = (List.range k).filter (· == n) := by
    refine List.filter_congr fun m hm => ?_
    rw [bit_twoPow (by have := List.mem_range.1 hm; omega)]
    exact decide_eq_decide.2 eq_comm
  rw [hbit, List.filter_beq, List.nodup_range.count, if_pos (List.mem_range.2 hn)]
  rfl

theorem doorbells_twoPow {n : Nat} (who : Who) (s : State) (hn : n < 6) : doorbells who (BitVec.ofNat 32 (2 ^ n)) s = ring who s n := by
  rw [doorbells, channels_twoPow hn (by decide)]
  rfl

theorem acks_twoPow {n : Nat} (who : Who) (s : State) (hn : n < 8) : acks who (BitVec.ofNat 32 (2 ^ n)) s = ackOne who s n := by
  rw [acks, channels_twoPow hn (by decide)]
  rfl

theorem exec_doorbell_twoPow {who : Who} {n : Nat} {s : State} (hn : n < 6) (ha : mayAccess s who = true) :
    exec (.doorbell who (BitVec.ofNat 32 (2 ^ n))) s = .next (ring who s n) := by
  change execDoorbell _ _ s = _
  rw [execDoorbell, if_pos ha, doorbells_twoPow who s hn]

theorem exec_mbxAck_twoPow {who : Who} {n : Nat} {s : State} (hn : n < 8) (ha : mayAccess s who = true) :
    exec (.mbxAck who (BitVec.ofNat 32 (2 ^ n))) s = .next (ackOne who s n) := by
  change execMbxAck _ _ s = _
  rw [execMbxAck, if_pos ha, acks_twoPow who s hn]

/-! ### One ring and one acknowledgement (R39) -/

section
variable {who : Who} {n : Nat} {s : State}

theorem ring_stranger (ho : chanOwner s n ≠ whoReq who) :
    ring who s n = updMbx (fun m => { m with notown := setBit m.notown n true }) s := by
  rw [ring, if_pos ho]

theorem ring_late (ho : chanOwner s n = whoReq who) (hc : at_ .idle s.mbx.chan n ≠ .idle) :
    ring who s n = updMbx (fun m => { m with dblate := setBit m.dblate n true }) s := by
  rw [ring, if_neg (fun h => h ho)]
  split
  · contradiction
  · rfl

theorem ring_idle (ho : chanOwner s n = whoReq who) (hc : at_ .idle s.mbx.chan n = .idle) :
    ring who s n = latchSet 8 (updPwr (fun p => { p with hostDepth := if who = .host then .none else p.hostDepth })
      (updMbx (fun m => { m with chan := m.chan.set n .busy }) s)) := by
  rw [ring, if_neg (fun h => h ho), hc]
  cases who <;> rfl

theorem ackOne_stranger (ho : chanOwner s n ≠ whoReq who) :
    ackOne who s n = updMbx (fun m => { m with notown := setBit m.notown n true }) s := by
  rw [ackOne, if_pos ho]

theorem ackOne_not_done (ho : chanOwner s n = whoReq who) (hc : at_ .idle s.mbx.chan n ≠ .done) : ackOne who s n = s := by
  rw [ackOne, if_neg (fun h => h ho)]
  split
  · contradiction
  · rfl

theorem hostSleeps_no_wait (hw : s.pwr.hostWait = none) : hostSleeps n s = s := by
  rw [hostSleeps, hw]

/-- No sleep of the host waits for this acknowledgement (R453). -/
theorem ackOne_done (ho : chanOwner s n = whoReq who) (hc : at_ .idle s.mbx.chan n = .done) (hw : s.pwr.hostWait = none) :
    ackOne who s n = updMbx (fun m => { m with chan := m.chan.set n .idle }) s := by
  rw [ackOne, if_neg (fun h => h ho), hc]
  cases who with
  | app => rfl
  | host => exact hostSleeps_no_wait hw

end

/-! ### A response (R39) -/

section
variable {α : Type} {d x : α} {l : List α} {k n : Nat}

theorem at_set_self (h : n < l.length) : at_ d (l.set n x) n = x := by
  simp [at_, h]

theorem at_set_of_ne (h : k ≠ n) : at_ d (l.set n x) k = at_ d l k := by
  simp [at_, List.getElem?_set_ne h.symm]

end

section
variable (n : Nat) (m : List Byte) (s : State)

@[simp] theorem reply_chan : (reply n m s).mbx.chan = s.mbx.chan.set n .done := rfl

@[simp] theorem reply_mem_eq : (reply n m s).mem = wrTab s.mem (rspBuf n) m := rfl

end

/-- Settles O6: a word that names one channel rings or acknowledges that channel alone, so each clause is one case of `ring`, `ackOne` or `reply`. -/
theorem channelStates : Obligations.ChannelStates := by
  refine ⟨rfl, ?idle, ?late, ?ringStranger, ?done, ?ackStranger, ?notDone, ?response⟩
  case idle =>
    intro who n s hn ha ho hc
    rw [exec_doorbell_twoPow hn ha, ring_idle ho hc]
    rfl
  case late =>
    intro who n s hn ha ho hc
    rw [exec_doorbell_twoPow hn ha, ring_late ho hc]
    rfl
  case ringStranger =>
    intro who n s hn ha ho
    rw [exec_doorbell_twoPow hn ha, ring_stranger ho]
    rfl
  case done =>
    intro who n s hn ha ho hc hw
    rw [exec_mbxAck_twoPow hn ha, ackOne_done ho hc hw]
    rfl
  case ackStranger =>
    intro who n s hn ha ho
    rw [exec_mbxAck_twoPow hn ha, ackOne_stranger ho]
    rfl
  case notDone =>
    intro who n s hn ha ho hc
    rw [exec_mbxAck_twoPow hn ha, ackOne_not_done ho hc]
  case response =>
    intro n m s hn
    rw [reply_chan, reply_mem_eq]
    exact ⟨at_set_self hn, rfl, fun k hk => at_set_of_ne hk⟩

/-! ### Writes into the request buffer of a BUSY channel (R40) -/

/-- R40: the write that a BUSY channel does not take has set REQWR. -/
def writeRefused (n : Nat) (s : State) : State := updMbx (fun m => { m with reqwr := setBit m.reqwr n true }) s

section
variable {n o : Nat} {s : State}

theorem reqBuf_add_sub_sharedBase : reqBuf n + o - sharedBase = 0x200 * n + o := by unfold reqBuf; omega

theorem reqBuf_add_mem (hn : n < 8) (ho : o < 0x100) : sharedBase ≤ reqBuf n + o ∧ reqBuf n + o < sharedBase + 0x1000 := by
  unfold reqBuf
  omega

theorem busyBuffer_reqBuf (hn : n < 8) (ho : o < 0x100) (hb : at_ .idle s.mbx.chan n = .busy) : busyBuffer s (reqBuf n + o) = some n := by
  obtain ⟨hlo, hhi⟩ := reqBuf_add_mem hn ho
  have hch : (0x200 * n + o) / 0x200 = n := by omega
  have hbusy : chanBusy s n = true := by simp [chanBusy, hb]
  rw [busyBuffer, reqBuf_add_sub_sharedBase, hch, if_pos ⟨hlo, hhi, by omega, hbusy⟩]

theorem ramWrite_busy (l : List Byte) (hn : n < 8) (ho : o < 0x100) (hb : at_ .idle s.mbx.chan n = .busy) :
    ramWrite (reqBuf n + o) l s = writeRefused n s := by
  rw [ramWrite, busyBuffer_reqBuf hn ho hb]
  rfl

theorem placeOf_reqBuf (hn : n < 8) (ho : o < 0x100) : placeOf (reqBuf n + o) = .shared := by
  have hmem := reqBuf_add_mem hn ho
  unfold sharedBase at hmem
  rw [placeOf, if_neg (by omega), if_neg (by unfold xipBase; omega), if_neg (by omega), if_pos (by unfold sharedBase; omega)]

/-- The host owns a channel's buffers with the channel (R82). -/
theorem hostOwnsBuffer_reqBuf (hn : n < 8) (ho : o < 0x100) (hh : chanOwner s n = .host) : hostOwnsBuffer s (0x200 * n + o) = true := by
  have hch : (0x200 * n + o) / 0x200 = n := by omega
  simp only [hostOwnsBuffer, hch, hh, beq_self_eq_true, Bool.and_true, decide_eq_true_eq]
  omega

/-- A write of the row that R20 and R82 allow reaches the RAM. -/
theorem exec_requestBufferWrite_reqBuf {who : Who} {z : Size} {v : Word} (hn : n < 8) (ho : o < 0x100) (hz : o % sizeBytes z = 0)
    (ha : mayAccess s who = true) (hw : who = .host → z = .w ∧ chanOwner s n = .host) :
    exec (.requestBufferWrite who (reqBuf n + o) z v) s = .next (ramWrite (reqBuf n + o) (le (sizeBytes z) v.toNat) s) := by
  have hreq : (0x200 * n + o) % 0x200 < 0x100 := by omega
  have hal : (reqBuf n + o) % sizeBytes z = 0 := by
    unfold reqBuf sharedBase
    cases z <;> simp only [sizeBytes] at hz ⊢ <;> omega
  change execRequestBufferWrite who _ z v s = _
  simp only [execRequestBufferWrite, ha, reqBuf_add_sub_sharedBase, hal, decide_eq_true (reqBuf_add_mem hn ho), decide_eq_true hreq]
  cases who with
  | app => simp
  | host =>
    obtain ⟨rfl, hh⟩ := hw rfl
    simp [hostOwnsBuffer_reqBuf hn ho hh, sizeBytes]

end

/-! ### A word from the host port (R79 to R81) -/

theorem unbe_be (k n : Nat) : unbe (be k n) = n % 256 ^ k := by rw [unbe, be, List.reverse_reverse, unle_le]

theorem length_be (k n : Nat) : (be k n).length = k := by rw [be, List.length_reverse, length_le]

/-- R79: the header of a write to shared RAM at offset `a`. -/
def writeHeader (a : Nat) : List Byte := 0x40#8 :: be 3 a

section
variable {a : Nat} (r : List Byte)

theorem length_writeHeader : (writeHeader a).length = 4 := by rw [writeHeader, List.length_cons, length_be]

theorem sdiAddr_writeHeader (ha : a < 2 ^ 24) : sdiAddr (writeHeader a ++ r) = a := by
  have haddr : slice (writeHeader a) 1 3 = be 3 a := (slice_append_right [0x40#8] (be 3 a) 1 3 (by simp)).trans (slice_self _ _ (length_be 3 a).symm)
  rw [sdiAddr, slice_append_left _ _ _ _ (Nat.le_of_eq length_writeHeader.symm), haddr, unbe_be]
  exact Nat.mod_eq_of_lt ha

theorem u8_writeHeader : u8 (writeHeader a ++ r) 0 = 0x40 := rfl

theorem sdiOp_writeHeader : sdiOp (writeHeader a ++ r) = 1 := by rw [sdiOp, u8_writeHeader]

theorem sdiSpace_writeHeader : sdiSpace (writeHeader a ++ r) = 0 := by rw [sdiSpace, u8_writeHeader]

theorem headerOk_writeHeader (ha : a < 2 ^ 24) (h4 : a % 4 = 0) : headerOk (writeHeader a ++ r) 1 = true := by
  simp [headerOk, length_writeHeader, sdiOp_writeHeader, sdiSpace_writeHeader, sdiAddr_writeHeader r ha, h4]

/-- R80, R81: a transaction begun in state `s` has ended without an error in state `t`: the port has sent the status of its beginning. -/
def transactionDone (s t : State) : State :=
  { t with hostp := { t.hostp with err := false, sdo := [BitVec.ofNat 8 (hostStatus s), 0, 0, 0] } }

/-- R81: a transaction that writes one whole word to a buffer the host owns. -/
theorem exec_hostWriteTransaction_word (b0 b1 b2 b3 : Byte) {s : State} (ha : a < 2 ^ 24) (h4 : a % 4 = 0) (hm : mayAccess s .host = true)
    (hcs : s.hostp.cs = false) (ho : hostOwnsBuffer s a = true) :
    exec (.hostWriteTransaction (writeHeader a ++ [b0, b1, b2, b3]) false) s =
      .next (transactionDone s (ramWrite (sharedBase + a) (le 4 (BitVec.ofNat 32 (unle [b0, b1, b2, b3])).toNat) s)) := by
  have hends : hostEnds s = s := by simp [hostEnds, hcs]
  have hlen : (writeHeader a ++ [b0, b1, b2, b3]).length = 8 := by rw [List.length_append, length_writeHeader]; rfl
  have hdata : (writeHeader a ++ [b0, b1, b2, b3]).drop 4 = [b0, b1, b2, b3] := List.drop_left' length_writeHeader
  change execHostWriteTransaction _ _ s = _
  simp only [execHostWriteTransaction, hm, hends, hlen, headerOk_writeHeader _ ha h4, sdiOp_writeHeader, sdiSpace_writeHeader, hdata,
    sdiAddr_writeHeader _ ha, sdiWords, hostWrites, hostWrite, ho]
  rfl

end

/-! ### A store of the core (R604) -/

section
variable {n o : Nat} {s : State}

/-- A write that the MPU allows does not reach the request buffer of a BUSY channel. -/
theorem coreWrite_busy {a : Word} {z : Size} (v : Word) (hn : n < 8) (ho : o < 0x100) (hb : at_ .idle s.mbx.chan n = .busy)
    (haddr : a.toNat = reqBuf n + o) (hal : misaligned a.toNat z = false) (hmpu : mpuAllows s.core s.core.mach 1 a.toNat = true)
    (hr : s.core.run = .running) : coreWrite s.core.mach a z v s = .ok 0 (writeRefused n s) := by
  have hbus : busWrite a.toNat z v s = some (writeRefused n s) := by
    rw [haddr, busWrite, placeOf_reqBuf hn ho, ramWrite_busy _ hn ho hb]
  have hrun : (writeRefused n s).core.run = .running := hr
  simp [coreWrite, hal, hmpu, hbus, hrun]

theorem plain_writeRefused (h : Plain s) : Plain (writeRefused n s) := ⟨h.running, h.fetched, h.once, h.settled⟩

theorem storeRow_busy {op : Nat} {rs ra : Reg} {imm : BitVec 17} (h : Plain s) (hn : n < 8) (ho : o < 0x100)
    (hb : at_ .idle s.mbx.chan n = .busy) (haddr : (greg s ra + sext imm).toNat = reqBuf n + o)
    (hal : misaligned (greg s ra + sext imm).toNat (opSize op) = false)
    (hmpu : mpuAllows s.core s.core.mach 1 (greg s ra + sext imm).toNat = true) :
    storeRow op rs ra imm s = .next (wentTo (s.core.pc + 4#32) (writeRefused n s)) := by
  rw [storeRow, word_plain h, storeAt, coreWrite_busy _ hn ho hb haddr hal hmpu h.running]
  have hpc : (writeRefused n s).core.pc = s.core.pc := rfl
  simp [finish_work (plain_writeRefused h), wentTo, (plain_writeRefused h).settled, hpc]

end

/-! ### What the firmware leaves alone -/

theorem chanBusy_of_nextServed {s : State} {n : Nat} (h : nextServed s = some n) : chanBusy s n = true := by
  unfold nextServed at h
  split at h
  · next h0 => cases h; exact h0
  · exact List.find?_some h

/-- The firmware serves a BUSY channel only. -/
theorem serve_not_busy {op : Nat} {core : CoreFn} {v : Srv} {s : State} (hb : at_ .idle s.mbx.chan v.ch ≠ .busy) : serve op core v s = s := by
  have hnext : nextServed s ≠ some v.ch := fun h => hb (by simpa [chanBusy] using chanBusy_of_nextServed h)
  simp [serve, hnext]

/-- An event waits for its channel to be IDLE (R62). -/
theorem eventWrite_not_idle {n : Nat} {s : State} (hc : at_ .idle s.mbx.chan n ≠ .idle) : eventWrite n s = s := by
  rw [eventWrite, if_pos (.inr (.inr (.inr hc)))]

/-- Settles O7: every path of a write into a request buffer ends in `ramWrite`, which a BUSY channel refuses; the firmware's rows wait for
BUSY or for IDLE. -/
theorem busyRequestStands : Obligations.BusyRequestStands := by
  refine ⟨?app, ?host, ?transaction, ?store, ?served, ?event⟩
  case app =>
    intro n o z v s hn ho hz ha hb
    rw [exec_requestBufferWrite_reqBuf hn ho hz ha (by simp), ramWrite_busy _ hn ho hb]
    rfl
  case host =>
    intro n i v s hn hi ha hh hb
    have ho : 4 * i < 0x100 := by omega
    rw [exec_requestBufferWrite_reqBuf hn ho (by simp [sizeBytes]) ha (fun _ => ⟨rfl, hh⟩), ramWrite_busy _ hn ho hb]
    rfl
  case transaction =>
    intro n i a b c d s hn hi ha hcs hh hb
    have ho : 4 * i < 0x100 := by omega
    have hown : hostOwnsBuffer s (0x200 * n + 4 * i) = true := hostOwnsBuffer_reqBuf (by omega) ho hh
    have hram (l : List Byte) : ramWrite (sharedBase + (0x200 * n + 4 * i)) l s = writeRefused n s := by
      rw [← Nat.add_assoc]
      exact ramWrite_busy l (by omega) ho hb
    rw [← writeHeader, exec_hostWriteTransaction_word a b c d (by omega) (by omega) ha hcs hown, hram]
    rfl
  case store =>
    intro rs ra imm n o s h hn ho hb haddr hmpu
    exact storeRow_busy h hn ho hb haddr (by simp [misaligned, opSize, sizeBytes, Nat.mod_one]) hmpu
  case served =>
    intro i op core v s hi hb
    rw [hi, serve_not_busy hb]
  case event =>
    intro n s hc
    have hidle : at_ .idle s.mbx.chan n ≠ .idle := by rw [hc]; decide
    change Host.Outcome.next (eventWrite n s) = _
    rw [eventWrite_not_idle hidle]

end Sys2Proof.Machine

/-! The commissioning port's wire side (chapter 19): the grant of the PORTW block and the refusals of its commands (R592). -/

namespace Sys2Proof.Machine

/-! ### The registers of the PORTW block -/

section
variable {off : Nat}

theorem placeOf_portw (ho : off < 0x1000) : placeOf (0x4000B000 + off) = .reg := by
  rw [placeOf, if_neg (by omega), if_neg (by unfold xipBase; omega), if_neg (by omega), if_neg (by unfold sharedBase; omega),
    if_neg (by omega), if_pos (by omega)]

theorem portw_offset (ho : off < 0x1000) : (0x4000B000 + off) % 0x1000 = off := by omega

theorem portw_block (ho : off < 0x1000) : (0x4000B000 + off) / 0x1000 - 0x40000 = 0xB := by omega

/-- An access by a whole aligned word passes the bus's check of a register. -/
theorem portw_wordAccess (h4 : off % 4 = 0) : ¬ (Size.w ≠ .w ∨ (0x4000B000 + off) % 4 ≠ 0) := by
  rintro (h | h)
  · exact h rfl
  · omega

theorem regRead_portw (rd : Option Nat) (s : State) (ho : off < 0x1000) :
    regRead (0x4000B000 + off) rd s = (s, some (portwRead s off)) := by
  rw [regRead, if_neg (by omega), if_neg (by omega), portw_block ho, portw_offset ho]
  rfl

theorem regWrite_portw (v : Word) (s : State) (ho : off < 0x1000) : regWrite (0x4000B000 + off) v s = portwWrite off v s := by
  rw [regWrite, if_neg (by omega), if_neg (by omega), portw_block ho, portw_offset ho]
  rfl

theorem busRead_portw (rd : Option Nat) (s : State) (ho : off < 0x1000) (h4 : off % 4 = 0) :
    busRead (0x4000B000 + off) .w rd s = (s, .val (portwRead s off)) := by
  simp only [busRead, placeOf_portw ho, if_neg (portw_wordAccess h4), regRead_portw rd s ho]

theorem busWrite_portw (v : Word) (s : State) (ho : off < 0x1000) (h4 : off % 4 = 0) :
    busWrite (0x4000B000 + off) .w v s = some (portwWrite off v s) := by
  simp only [busWrite, placeOf_portw ho, if_neg (portw_wordAccess h4), regWrite_portw v s ho]

/-- The application core's row reaches the PORTW register at the offset. -/
theorem exec_registerWrite_portw (v : Word) {s : State} (ho : off < 0x1000) (h4 : off % 4 = 0) (ha : mayAccess s .app = true) :
    exec (.registerWrite .app (BitVec.ofNat 32 (0x4000B000 + off)) v) s = .next (portwWrite off v s) := by
  have haddr : (BitVec.ofNat 32 (0x4000B000 + off)).toNat = 0x4000B000 + off := by rw [BitVec.toNat_ofNat]; omega
  have hal : (0x4000B000 + off) % 4 = 0 := by omega
  change execRegisterWrite _ _ v s = _
  simp [execRegisterWrite, haddr, ha, placeOf_portw ho, hal, regWrite_portw v s ho]

end

/-! ### The grant (R592) -/

section
variable {s : State}

theorem portwRead_grantRegister (s : State) : portwRead s 0 = if s.port.grant then 1 else 0 := by
  unfold portwRead
  rw [if_pos rfl, b2n]

theorem portwRead_ungranted {off : Nat} (hg : s.port.grant = false) (h0 : off ≠ 0) : portwRead s off = 0 := by
  unfold portwRead
  rw [if_neg h0, hg]
  rfl

theorem portwWrite_ungranted (off : Nat) (v : Word) (hg : s.port.grant = false) : portwWrite off v s = s := by
  unfold portwWrite
  rw [hg]
  rfl

/-! ### The wire's commands (R592) -/

theorem exec_portwCommand (w : Bool) (ha : mayAccess s .app = true) :
    exec (if w then .portwWrite else .portwRead) s = .next (portwCmd w s) := by
  cases w with
  | false =>
    change execPortwRead s = _
    rw [execPortwRead, if_pos ha]
  | true =>
    change execPortwWrite s = _
    rw [execPortwWrite, if_pos ha]

/-- ERR 1 (NOLOCK) refuses a command of a wire that does not hold the lock. -/
theorem portwCmd_without_lock (w : Bool) (hg : s.port.grant = true) (hc : s.port.cmd = none) (hl : s.port.lock ≠ .app) :
    portwCmd w s = portwRefuse 1 s := by
  simp [portwCmd, hg, hc, hl]

/-- ERR 2 (RANGE) refuses a command for a block of the reserved eight. -/
theorem portwCmd_reserved_block (w : Bool) (hg : s.port.grant = true) (hc : s.port.cmd = none) (hl : s.port.lock = .app)
    (hb : s.port.block < 8) : portwCmd w s = portwRefuse 2 s := by
  simp [portwCmd, hg, hc, hl, hb]

end

/-- Settles O45: an access to the PORTW block comes down to `portwRead` or `portwWrite`, which without the grant answer zero or do nothing, and
a wire command to `portwCmd`, which checks the lock before the block. -/
theorem portwFollowsTheGrant : Obligations.PortwFollowsTheGrant := by
  refine ⟨?deadRead, ?grantRead, ?deadRow, ?deadWrite, ?noLock, ?reserved⟩
  case deadRead =>
    intro off rd s hg ho h4 h0
    rw [busRead_portw rd s ho h4, portwRead_ungranted hg h0]
  case grantRead =>
    intro s rd
    have hread := busRead_portw (off := 0) rd s (by decide) rfl
    rwa [portwRead_grantRegister] at hread
  case deadRow =>
    intro off v s hg ha ho h4
    rw [exec_registerWrite_portw v ho h4 ha, portwWrite_ungranted off v hg]
  case deadWrite =>
    intro off v s hg ho h4
    rw [busWrite_portw v s ho h4, portwWrite_ungranted off v hg]
  case noLock =>
    intro w s ha hg hc hl
    rw [exec_portwCommand w ha, portwCmd_without_lock w hg hc hl]
    rfl
  case reserved =>
    intro w s ha hg hc hl hb
    rw [exec_portwCommand w ha, portwCmd_reserved_block w hg hc hl hb]
    rfl

end Sys2Proof.Machine

/-! The MPU of the Talxa core (chapter 20): the region that decides an access, and the entries that it refuses (R606). -/

namespace Sys2Proof.Machine

/-! ### The region that decides -/

section
variable {r : MpuRegion} {l h : List MpuRegion} {a : Nat}

theorem holds_iff : r.holds a = true ↔ r.en = true ∧ a / 2 ^ (r.size + 1) = r.base.toNat * 256 / 2 ^ (r.size + 1) := by
  rw [MpuRegion.holds, Bool.and_eq_true, beq_iff_eq]

theorem filter_holds_eq_nil (hl : ∀ q ∈ l, q.en = true → a / 2 ^ (q.size + 1) ≠ q.base.toNat * 256 / 2 ^ (q.size + 1)) :
    l.filter (fun q => q.holds a) = [] := by
  refine List.filter_eq_nil_iff.2 fun q hq hin => ?_
  obtain ⟨hen, heq⟩ := holds_iff.1 hin
  exact hl q hq hen heq

/-- When regions overlap, the region of highest number decides. -/
theorem regionFor_highest (hr : r.holds a = true)
    (hh : ∀ q ∈ h, q.en = true → a / 2 ^ (q.size + 1) ≠ q.base.toNat * 256 / 2 ^ (q.size + 1)) :
    regionFor (l ++ r :: h) a = some r := by
  have hlast : (r :: h).filter (fun q => q.holds a) = [r] := by rw [List.filter_cons, if_pos hr, filter_holds_eq_nil hh]
  rw [regionFor, List.filter_append, hlast, List.getLast?_concat]

theorem regionFor_uncovered (hl : ∀ q ∈ l, q.en = true → a / 2 ^ (q.size + 1) ≠ q.base.toNat * 256 / 2 ^ (q.size + 1)) :
    regionFor l a = none := by
  rw [regionFor, filter_holds_eq_nil hl, List.getLast?_nil]

end

/-! ### What the permissions allow -/

section
variable {c : Core} {mach : Bool} {kind a : Nat}

theorem mpuAllows_disabled (hc : bit c.mpuCtl 0 = false) : mpuAllows c mach kind a = true := by
  rw [mpuAllows, hc]
  rfl

theorem mpuAllows_region {r : MpuRegion} (hc : bit c.mpuCtl 0 = true) (hr : regionFor c.mpu a = some r) :
    mpuAllows c mach kind a = if mach then (!bit c.mpuCtl 1 || bit r.perm (3 + kind)) else bit r.perm kind := by
  rw [mpuAllows, hc, hr]
  rfl

theorem mpuAllows_uncovered (hc : bit c.mpuCtl 0 = true) (hr : regionFor c.mpu a = none) : mpuAllows c mach kind a = mach := by
  rw [mpuAllows, hc, hr]
  rfl

end

/-! ### Accesses and entries that the MPU refuses -/

section
variable {mach : Bool} {a : Word} {z : Size} {s : State}

theorem coreRead_denied (rd : Option Nat) (hal : misaligned a.toNat z = false) (hm : mpuAllows s.core mach 0 a.toNat = false) :
    coreRead mach a z rd s = .fail 6 s := by
  simp [coreRead, hal, hm]

theorem coreWrite_denied (v : Word) (hal : misaligned a.toNat z = false) (hm : mpuAllows s.core mach 1 a.toNat = false) :
    coreWrite mach a z v s = .fail 6 s := by
  simp [coreWrite, hal, hm]

theorem misaligned_word_of_aligned (ha : a.toNat % 4 = 0) : misaligned a.toNat .w = false := by
  simp only [misaligned, sizeBytes, ha]
  rfl

theorem sub_four_aligned (ha : a.toNat % 4 = 0) : (a - 4#32).toNat % 4 = 0 := by bv_omega

/-- The first push is checked at the privilege of machine mode. -/
theorem entryPush_denied (ret : Word) (hs : s.core.split = false) (ha : s.core.spm.toNat % 4 = 0)
    (hm : mpuAllows s.core true 1 (s.core.spm - 4#32).toNat = false) : entryPush ret s = .failed (s.core.spm - 4#32) s := by
  have hal := misaligned_word_of_aligned (sub_four_aligned ha)
  simp [entryPush, hs, ha, coreWrite_denied s.core.st hal hm]

theorem entryPush_split (ret : Word) (hs : s.core.split = true) (hl : s.core.hw.length < 64) :
    entryPush ret s = .done (updCore (fun x => { x with hw := { ret := ret, st := some s.core.st } :: x.hw }) s) := by
  simp [entryPush, hs, Nat.not_le.2 hl]

/-- The vector is read at the privilege of machine mode; its refusal takes back the push to the hardware stack. -/
theorem enter_vector_denied (n : Nat) (level : Option (BitVec 4)) (ret : Word) (hs : s.core.split = true) (hl : s.core.hw.length < 64)
    (hm : mpuAllows s.core true 0 (vectorAddr s n).toNat = false) : enter n level ret s = .failed (vectorAddr s n) s := by
  have hread : coreRead true (vectorAddr s n) .w none (updCore (fun x => { x with hw := { ret := ret, st := some s.core.st } :: x.hw }) s) =
      .fail 6 (updCore (fun x => { x with hw := { ret := ret, st := some s.core.st } :: x.hw }) s) :=
    coreRead_denied none (misaligned_word_of_aligned (vectorAddr_aligned s n)) hm
  rw [enter, entryPush_split ret hs hl]
  dsimp only
  rw [hread]
  rfl

end

/-- Settles O59: the regions above the deciding one hold nothing of the address, so the last of those that hold it is that one; an entry's
first push and its vector read are the core's accesses at the privilege of machine mode. -/
theorem mpuRegions : Obligations.MpuRegions := by
  refine ⟨?disabled, ?highest, ?uncovered, ?push, ?vector⟩
  case disabled =>
    intro c mach kind a hc
    exact mpuAllows_disabled hc
  case highest =>
    intro c l h r mach kind a hc hmpu hen heq hh
    have hregion : regionFor c.mpu a = some r := by rw [hmpu, regionFor_highest (holds_iff.2 ⟨hen, heq⟩) hh]
    exact mpuAllows_region hc hregion
  case uncovered =>
    intro c mach kind a hc hl
    exact mpuAllows_uncovered hc (regionFor_uncovered hl)
  case push =>
    intro ret s hs ha hm _
    exact entryPush_denied ret hs ha hm
  case vector =>
    intro n level ret s hs hl hm
    exact enter_vector_denied n level ret hs hl hm

end Sys2Proof.Machine

/-! The Talxa core's short loads and stores that update their address register, the accesses that fail, and a load of u15 before a change of
privilege (chapters 20 and 21: R604, R608, R610, R637, R638). -/

namespace Sys2Proof.Machine

/-! ### A pair of slots (R608) -/

section
variable {a b : Short} {s : State}

theorem exec_pairWord_fault {f : Option Bool} (h : Plain s) (hf : pairFault a b = some f) :
    exec (.pairWord a b) s = .next (raiseExc { exc := 4, kind := none, slotb := f, addr := s.core.pc } s.core.pc s) := by
  change execPairWord a b s = _
  rw [execPairWord, word_plain h, hf]
  rfl

theorem exec_pairWord_work (h : Plain s) (hf : pairFault a b = none) : exec (.pairWord a b) s = .next (finish (pairWork a b s)) := by
  change execPairWord a b s = _
  rw [execPairWord, word_plain h, hf]

theorem pairFault_undefined_left (b : Short) (ha : slotUndefined a = true) : ∃ f, pairFault a b = some f := by
  cases hb : slotUndefined b <;> simp [pairFault, ha, hb]

theorem pairFault_undefined_right (a : Short) (hb : slotUndefined b = true) : ∃ f, pairFault a b = some f := by
  cases ha : slotUndefined a <;> simp [pairFault, ha, hb]

/-- The slot that does nothing. -/
abbrev nopSlot : Short := { op := 0, rd := 0, rs := 0, md := 0 }

theorem pairFault_nop_right (ha : slotUndefined a = false) : pairFault a nopSlot = none := by
  have hclash : pairClash a nopSlot = false := by simp [pairClash, slotWrites, slotMem, slotLoads, slotStores]
  have hnop : slotUndefined nopSlot = false := rfl
  simp [pairFault, ha, hclash, hnop]

theorem pairWork_fail_left {f : Fail} {t : State} (b : Short) (ha : slotWork false a s = .fail f t) : pairWork a b s = .fail f t := by
  rw [pairWork, ha]

theorem pairWork_nop_right {ws : List (Nat × Word)} {t : State} (ha : slotWork false a s = .work ws none t) :
    pairWork a nopSlot s = .work ws none t := by
  have hnop : slotWork true nopSlot t = .work [] none t := rfl
  rw [pairWork, ha]
  dsimp only
  rw [hnop]
  simp

end

/-! ### One memory slot (R637, R638) -/

section
variable {x : Short} {s : State} {k : Bool}

theorem slotLoads_iff : slotLoads x = true ↔ 19 ≤ x.op.toNat ∧ x.op.toNat ≤ 23 := by rw [slotLoads, decide_eq_true_eq]

theorem slotStores_iff : slotStores x = true ↔ 24 ≤ x.op.toNat ∧ x.op.toNat ≤ 26 := by rw [slotStores, decide_eq_true_eq]

/-- R638: what makes a memory slot undefined. -/
theorem slotUndefined_mem (hlo : 19 ≤ x.op.toNat) (hhi : x.op.toNat ≤ 26) :
    slotUndefined x = (x.md == 3 || (slotLoads x && x.md != 0 && x.rd == x.rs)) := by
  unfold slotUndefined
  dsimp only
  rw [if_neg (by omega), if_neg (by omega), if_neg (by omega), if_neg (by omega), if_neg (by omega)]

/-- R638: a load may not update the register it writes. -/
theorem slotUndefined_load_same (hx : slotLoads x = true) (hmd : x.md ≠ 0#2) (hr : x.rd = x.rs) : slotUndefined x = true := by
  obtain ⟨hlo, hhi⟩ := slotLoads_iff.1 hx
  rw [slotUndefined_mem hlo (by omega)]
  simp [hx, hmd, hr]

theorem slotUndefined_load (hx : slotLoads x = true) (hmd : x.md ≠ 3#2) (hr : x.rd ≠ x.rs) : slotUndefined x = false := by
  obtain ⟨hlo, hhi⟩ := slotLoads_iff.1 hx
  rw [slotUndefined_mem hlo (by omega)]
  simp [hmd, hr]

theorem slotLoads_of_slotStores (hx : slotStores x = true) : slotLoads x = false := by
  obtain ⟨hlo, hhi⟩ := slotStores_iff.1 hx
  rw [slotLoads, decide_eq_false_iff_not]
  omega

theorem slotUndefined_store (hx : slotStores x = true) (hmd : x.md ≠ 3#2) : slotUndefined x = false := by
  obtain ⟨hlo, hhi⟩ := slotStores_iff.1 hx
  rw [slotUndefined_mem (by omega) hhi]
  simp [hmd, slotLoads_of_slotStores hx]

theorem slotWork_load (hx : slotLoads x = true) :
    slotWork k x s = loadAt k x.op.toNat x.rd (slotAddress x (greg s x.rs)).1
      (if x.md = 0 then [] else [(x.rs.toNat, (slotAddress x (greg s x.rs)).2)]) s := by
  have hop : x.op.toNat ≠ 0 := by have := slotLoads_iff.1 hx; omega
  simp only [slotWork, if_neg hop, if_pos hx]

theorem slotWork_store (hx : slotStores x = true) :
    slotWork k x s = storeAt k x.op.toNat (greg s x.rs) (slotAddress x (greg s x.rd)).1
      (if x.md = 0 then [] else [(x.rd.toNat, (slotAddress x (greg s x.rd)).2)]) s := by
  have hop : x.op.toNat ≠ 0 := by have := slotStores_iff.1 hx; omega
  simp only [slotWork, if_neg hop, if_pos hx, slotLoads_of_slotStores hx, Bool.false_eq_true, if_false]

theorem loadAt_fail {op e : Nat} {rd : Reg} {a : Word} {t : State} (ws : List (Nat × Word))
    (hr : coreRead s.core.mach a (opSize op) (some rd.toNat) s = .fail e t) :
    loadAt k op rd a ws s = .fail { exc := e, kind := some 0, slotb := some k, addr := a } t := by
  rw [loadAt, hr]

theorem storeAt_fail {op e : Nat} {v a : Word} {t : State} (ws : List (Nat × Word))
    (hw : coreWrite s.core.mach a (opSize op) v s = .fail e t) :
    storeAt k op v a ws s = .fail { exc := e, kind := some 1, slotb := some k, addr := a } t := by
  rw [storeAt, hw]

theorem storeAt_ram {op : Nat} {a : Word} (v : Word) (ws : List (Nat × Word)) (h : Plain s) (hw : WritesRam a (opSize op) s) :
    storeAt k op v a ws s = .work ws none (wrBytes s a.toNat (le (sizeBytes (opSize op)) v.toNat)) := by
  rw [storeAt, coreWrite_ram hw h.running]

/-- A failing load ends the pair at once: neither slot writes a register. -/
theorem exec_pairWord_load_fail {e : Nat} {t : State} (h : Plain s) (hx : slotLoads x = true) (hmd : x.md ≠ 3#2) (hne : x.rd ≠ x.rs)
    (hr : coreRead s.core.mach (slotAddress x (greg s x.rs)).1 (opSize x.op.toNat) (some x.rd.toNat) s = .fail e t) :
    exec (.pairWord x nopSlot) s =
      .next (raiseExc { exc := e, kind := some 0, slotb := some false, addr := (slotAddress x (greg s x.rs)).1 } t.core.pc t) := by
  rw [exec_pairWord_work h (pairFault_nop_right (slotUndefined_load hx hmd hne)),
    pairWork_fail_left _ ((slotWork_load hx).trans (loadAt_fail _ hr)), finish]

theorem exec_pairWord_store_fail {e : Nat} {t : State} (h : Plain s) (hx : slotStores x = true) (hmd : x.md ≠ 3#2)
    (hw : coreWrite s.core.mach (slotAddress x (greg s x.rd)).1 (opSize x.op.toNat) (greg s x.rs) s = .fail e t) :
    exec (.pairWord x nopSlot) s =
      .next (raiseExc { exc := e, kind := some 1, slotb := some false, addr := (slotAddress x (greg s x.rd)).1 } t.core.pc t) := by
  rw [exec_pairWord_work h (pairFault_nop_right (slotUndefined_store hx hmd)),
    pairWork_fail_left _ ((slotWork_store hx).trans (storeAt_fail _ hw)), finish]

theorem plain_wrBytes (a : Nat) (l : List Byte) (h : Plain s) : Plain (wrBytes s a l) := ⟨h.running, h.fetched, h.once, h.settled⟩

theorem put_pendLoad (c : Core) (r : Nat) (v : Word) : (c.put r v).pendLoad = c.pendLoad := by
  unfold Core.put
  split
  · split <;> rfl
  · rfl

/-- R637: a store that updates its address register, its value read before the update. -/
theorem exec_pairWord_store_update (h : Plain s) (hx : slotStores x = true) (h0 : x.md ≠ 0#2) (h3 : x.md ≠ 3#2)
    (hw : WritesRam (slotAddress x (greg s x.rd)).1 (opSize x.op.toNat) s) :
    exec (.pairWord x nopSlot) s =
      .next (let t := wrBytes s (slotAddress x (greg s x.rd)).1.toNat (le (sizeBytes (opSize x.op.toNat)) (greg s x.rs).toNat)
        { t with core := { s.core.put x.rd.toNat (slotAddress x (greg s x.rd)).2 with pc := s.core.pc + 4#32 } }) := by
  have hslot := (slotWork_store (k := false) hx).trans (storeAt_ram (greg s x.rs) _ h hw)
  rw [exec_pairWord_work h (pairFault_nop_right (slotUndefined_store hx h3)), pairWork_nop_right hslot, finish_work (plain_wrBytes _ _ h)]
  simp [h0, wrBytes_core, put_pendLoad, h.settled]

end

/-! ### What a failed access leaves (R604, R610) -/

theorem ite_core {c : Prop} [Decidable c] {s t u : State} (ht : t.core = s.core) (hu : u.core = s.core) :
    (if c then t else u).core = s.core := by
  split
  · exact ht
  · exact hu

theorem foldl_core {α : Type} {f : State → α → State} (hf : ∀ s x, (f s x).core = s.core) (l : List α) (s : State) :
    (l.foldl f s).core = s.core := by
  induction l generalizing s with
  | nil => rfl
  | cons x l ih => rw [List.foldl_cons, ih, hf]

section
variable (s : State)

@[simp] theorem freshBytes_core (n : Nat) : (freshBytes n s).2.core = s.core := by
  induction n generalizing s with
  | zero => rfl
  | succ n ih => exact ih _

@[simp] theorem flashStore_core (a : Nat) (l : List Byte) : (flashStore a l s).core = s.core := rfl

@[simp] theorem setWritten_core (u n : Nat) : (setWritten u n s).core = s.core := rfl

@[simp] theorem setEcc_core (u e : Nat) : (setEcc u e s).core = s.core := rfl

@[simp] theorem setPlane_core (p : Nat) (x : Plane) : (setPlane p x s).core = s.core := rfl

@[simp] theorem fresh_core : (fresh s).2.core = s.core := rfl

@[simp] theorem spoilUnit_core (u : Nat) : (spoilUnit u s).core = s.core := by simp [spoilUnit]

@[simp] theorem spoilBlock_core (b : Nat) : (spoilBlock b s).core = s.core := foldl_core (fun _ _ => spoilUnit_core _ _) _ _

@[simp] theorem programOn_core (p : Nat) : (programOn p s).core = s.core := by
  unfold programOn
  split <;> simp

@[simp] theorem suspendErase_core (p : Nat) : (suspendErase p s).core = s.core := by
  unfold suspendErase
  split <;> simp

@[simp] theorem setEvq_core (seven : Bool) (q : EvQueue) : (setEvq s seven q).core = s.core := by
  cases seven <;> rfl

@[simp] theorem enqueue_core (seven : Bool) (e : Ev) : (enqueue seven e s).core = s.core := by
  rw [enqueue]
  exact ite_core (setEvq_core ..) (setEvq_core ..)

@[simp] theorem raise_core (op : Nat) (p : List Byte) : (raise op p s).core = s.core := by
  have hsix (b : Prop) [Decidable b] (e : Ev) : (if b then enqueue false e s else s).core = s.core := ite_core (enqueue_core ..) rfl
  rw [raise, raiseAt]
  exact ite_core ((enqueue_core ..).trans (hsix ..)) (hsix ..)

@[simp] theorem noteUnit_core (u : Nat) : (noteUnit s u).core = s.core := by
  rw [noteUnit]
  exact ite_core rfl (ite_core (raise_core ..) (updFlash_core ..))

end

section
variable {s t : State}

theorem serveRead_core {p : Nat} {sus : Bool} (h : serveRead p sus s = some t) : t.core = s.core := by
  unfold serveRead at h
  split at h
  case h_1 => cases h; simp
  case h_2 =>
    cases sus with
    | true => cases h; exact suspendErase_core ..
    | false => cases h
  case h_3 => cases h; rfl

theorem flashRead_core {a n st : Nat} {sus : Bool} {l : List Byte} (h : flashRead a n sus s = some (t, l, st)) : t.core = s.core := by
  unfold flashRead at h
  split at h
  case h_1 => cases h
  case h_2 u hu =>
    cases h
    exact (foldl_core noteUnit_core _ _).trans (serveRead_core hu)

theorem xipRead_core (a n : Nat) (fetch : Bool) (s : State) : (xipRead a n fetch s).1.core = s.core := by
  unfold xipRead
  split
  · rfl
  split
  case h_1 => rfl
  case h_2 t l st h =>
    have hcore : t.core = s.core := flashRead_core h
    cases fetch <;> exact hcore

theorem xipRead_ne_align {a n : Nat} {fetch : Bool} : xipRead a n fetch s ≠ (t, .align) := by
  intro h
  unfold xipRead at h
  split at h
  case isTrue => cases h
  split at h
  case h_1 => cases h
  case h_2 =>
    split at h
    all_goals
      have hres := congrArg Prod.snd h
      dsimp only at hres
      split at hres <;> contradiction

/-- A read that ends in a bus fault has reached no register of a peripheral. -/
theorem busRead_fault_core {a : Nat} {z : Size} {rd : Option Nat} (h : busRead a z rd s = (t, .fault)) : t.core = s.core := by
  unfold busRead at h
  split at h
  case h_2 => exact congrArg (fun r => r.1.core) h ▸ xipRead_core a (sizeBytes z) false s
  case h_5 =>
    split at h
    · cases h; rfl
    · split at h <;> cases h
  all_goals cases h <;> rfl

theorem busRead_ne_align {a : Nat} {z : Size} {rd : Option Nat} : busRead a z rd s ≠ (t, .align) := by
  intro h
  unfold busRead at h
  split at h
  case h_2 => exact xipRead_ne_align h
  case h_5 =>
    split at h
    · cases h
    · split at h <;> cases h
  all_goals cases h

theorem coreRead_fail_core {m : Bool} {a : Word} {z : Size} {rd : Option Nat} {e : Nat} (h : coreRead m a z rd s = .fail e t) :
    t.core = s.core := by
  unfold coreRead at h
  split at h
  case isTrue => cases h; rfl
  split at h
  case isTrue => cases h; rfl
  split at h
  case h_2 hu => exact absurd hu busRead_ne_align
  case h_3 hu => cases h; exact busRead_fault_core hu
  all_goals cases h

theorem coreWrite_fail_eq {m : Bool} {a v : Word} {z : Size} {e : Nat} (h : coreWrite m a z v s = .fail e t) : t = s := by
  unfold coreWrite at h
  split at h
  case isTrue => cases h; rfl
  split at h
  case isTrue => cases h; rfl
  split at h
  · cases h; rfl
  · split at h <;> cases h

end

/-! ### A load of the stack pointer that the word's end completes (R601, R610, R638) -/

/-- The load goes to the stack pointer of the privilege in force as the word ends. -/
theorem land_stackPointer {c : Core} {v : Word} (h : c.pendLoad = some (15, v)) :
    c.land = { c with pendLoad := none, spm := if c.mach then v else c.spm, spt := if c.mach then c.spt else v } := by
  cases hm : c.mach <;> simp [Core.land, h, Core.put, hm]

section
variable {s : State}

/-- R643: a write of ST with the stack in memory. -/
theorem doMts_status (v : Word) (hm : s.core.mach = true) (hs : s.core.split = false) :
    doMts 0 v s = updCore (fun c => { (c.setSt v).land with pc := s.core.pc + 4#32 }) s := by
  simp [doMts, srListed, hm, hs]

theorem exec_mts_status (ra : Reg) (hr : s.core.run = .running) (hf : fetchFails s = none) (hm : s.core.mach = true)
    (hs : s.core.split = false) :
    exec (.mts 0 ra) s = .next (updCore (fun c => { (c.setSt (greg s ra)).land with pc := s.core.pc + 4#32 }) s) := by
  change execMts 0 ra s = _
  rw [execMts, word_running hr hf]
  exact congrArg _ (doMts_status (greg s ra) hm hs)

theorem exec_add (rd ra rb : Reg) (hr : s.core.run = .running) (hf : fetchFails s = none) :
    exec (.add rd ra rb) s = .next (updCore (Core.endWord [(rd.toNat, greg s ra + greg s rb)] none) s) := by
  change execAdd rd ra rb s = _
  rw [execAdd, aluRow, word_running hr hf]
  rfl

end

/-- The end of a word outside a repeat. -/
theorem endWord_once {c : Core} (ws : List (Nat × Word)) (l : Option (Nat × Word)) (h : c.ract = false) :
    Core.endWord ws l c = { ws.foldl (fun a x => a.put x.1 x.2) c.land with pendLoad := l, pc := c.pc + 4#32 } := by
  simp [Core.endWord, Core.advance, h]

/-- Settles O60: a load that would update the register it writes is an undefined slot; a store's update is one register write at the word's end,
and a failed access ends the pair before it; the end of a word completes the load of u15 under the privilege then in force. -/
theorem updatingLoadsAndStores : Obligations.UpdatingLoadsAndStores := by
  have hload {op : BitVec 5} {m : BitVec 2} {r : Reg} (hlo : 19 ≤ op.toNat) (hhi : op.toNat ≤ 23) (hm : m = 1 ∨ m = 2) :
      slotUndefined { op := op, rd := r, rs := r, md := m } = true :=
    slotUndefined_load_same (slotLoads_iff.2 ⟨hlo, hhi⟩) (by rcases hm with rfl | rfl <;> simp) rfl
  refine ⟨?sameLeft, ?sameRight, ?word, ?half, ?byte, ?loadFails, ?storeFails, ?failedRead, ?failedWrite, ?status, ?add⟩
  case sameLeft =>
    intro op m r x s h hlo hhi hm
    obtain ⟨f, hf⟩ := pairFault_undefined_left x (hload hlo hhi hm)
    exact ⟨f, exec_pairWord_fault h hf⟩
  case sameRight =>
    intro op m r x s h hlo hhi hm
    obtain ⟨f, hf⟩ := pairFault_undefined_right x (hload hlo hhi hm)
    exact ⟨f, exec_pairWord_fault h hf⟩
  case word =>
    intro r s h hw
    exact exec_pairWord_store_update (x := { op := 24, rd := r, rs := r, md := 1 }) h rfl (by simp) (by simp) hw
  case half =>
    intro r s h hw
    exact exec_pairWord_store_update (x := { op := 25, rd := r, rs := r, md := 2 }) h rfl (by simp) (by simp) hw
  case byte =>
    intro r s h hw
    exact exec_pairWord_store_update (x := { op := 26, rd := r, rs := r, md := 2 }) h rfl (by simp) (by simp) hw
  case loadFails =>
    intro a b e s t h hne hr
    exact exec_pairWord_load_fail (x := { op := 19, rd := a, rs := b, md := 1 }) h rfl (by simp) hne hr
  case storeFails =>
    intro a b e s t h hw
    exact exec_pairWord_store_fail (x := { op := 24, rd := a, rs := b, md := 1 }) h rfl (by simp) hw
  case failedRead => exact fun m a z rd e s t hr => coreRead_fail_core hr
  case failedWrite => exact fun m a v z e s t hw => coreWrite_fail_eq hw
  case status =>
    intro ra v s hr hf hp hm hs
    have hland := land_stackPointer (c := s.core.setSt (greg s ra)) hp
    rw [exec_mts_status ra hr hf hm hs, updCore, hland]
    rfl
  case add =>
    intro ra rb v s hr hf hp hract hm _
    rw [exec_add 0 ra rb hr hf, updCore, endWord_once _ _ hract, land_stackPointer hp]
    simp [Core.put, hm]

end Sys2Proof.Machine

/-! The block as a whole (chapters 01, 02, 14, 15): a step, the state after reset, and the canonical form of the RAMs. -/

namespace Sys2Proof.Machine

/-! ### One step -/

theorem step_cons {c : Instr} {rest : List Instr} {s : State} (h : s.pending = c :: rest) : step s = exec c { s with pending := rest } := by
  unfold step
  rw [h]

theorem step_nil {s : State} (h : s.pending = []) : step s = .next (idle s) := by
  unfold step
  rw [h]

/-- Every row of the opcode table answers a next state. -/
theorem exec_completes (i : Instr) (s : State) : ∃ t, exec i s = .next t := by
  cases i <;> exact ⟨_, rfl⟩

theorem step_completes (s : State) : Completes s := by
  cases hp : s.pending with
  | nil => exact ⟨_, step_nil hp⟩
  | cons c rest =>
    obtain ⟨t, ht⟩ := exec_completes c { s with pending := rest }
    exact ⟨t, (step_cons hp).trans ht⟩

/-! ### The RAMs keep their canonical form -/

/-- Each row keeps the canonical form by its own lemma. -/
theorem exec_mem (i : Instr) (s : State) (h : MemWf s) (t : State) (ht : exec i s = .next t) : MemWf t := by
  cases i with
  | doorbell who v => exact execDoorbell_mem who v s h t ht
  | mbxAck who v => exact execMbxAck_mem who v s h t ht
  | requestBufferWrite who addr size v => exact execRequestBufferWrite_mem who addr size v s h t ht
  | eventWrite ch => exact execEventWrite_mem ch s h t ht
  | authLockoutEnd req => exact execAuthLockoutEnd_mem req s h t ht
  | hostWriteTransaction sdi partWord => exact execHostWriteTransaction_mem sdi partWord s h t ht
  | hostReadTransaction sdi words partWord => exact execHostReadTransaction_mem sdi words partWord s h t ht
  | sysInfo v => exact execSysInfo_mem v s h t ht
  | sysCaps v => exact execSysCaps_mem v s h t ht
  | survey v => exact execSurvey_mem v s h t ht
  | surveyRecord => exact execSurveyRecord_mem s h t ht
  | surveyCapture => exact execSurveyCapture_mem s h t ht
  | surveyQuiesceTimeout => exact execSurveyQuiesceTimeout_mem s h t ht
  | sysReset v => exact execSysReset_mem v s h t ht
  | resetDelayExpiry => exact execResetDelayExpiry_mem s h t ht
  | modeSet v => exact execModeSet_mem v s h t ht
  | modeDrainEnd => exact execModeDrainEnd_mem s h t ht
  | modeDrainTimeout => exact execModeDrainTimeout_mem s h t ht
  | modeGet v => exact execModeGet_mem v s h t ht
  | modeLock v => exact execModeLock_mem v s h t ht
  | debugUnlock v => exact execDebugUnlock_mem v s h t ht
  | optionRead v => exact execOptionRead_mem v s h t ht
  | optionWrite v => exact execOptionWrite_mem v s h t ht
  | cmdCounterGet v => exact execCmdCounterGet_mem v s h t ht
  | counterRaise v => exact execCounterRaise_mem v s h t ht
  | eventFilterSet v => exact execEventFilterSet_mem v s h t ht
  | eventFilterGet v => exact execEventFilterGet_mem v s h t ht
  | shotOpen v => exact execShotOpen_mem v s h t ht
  | shotAdd v => exact execShotAdd_mem v s h t ht
  | shotFire v => exact execShotFire_mem v s h t ht
  | shotAbort v => exact execShotAbort_mem v s h t ht
  | shotStatus v => exact execShotStatus_mem v s h t ht
  | shotTrigger n => exact execShotTrigger_mem n s h t ht
  | shotFrameTimeout n => exact execShotFrameTimeout_mem n s h t ht
  | shotQuiesceStart n => exact execShotQuiesceStart_mem n s h t ht
  | shotSwap n => exact execShotSwap_mem n s h t ht
  | shotBoundExpiry n => exact execShotBoundExpiry_mem n s h t ht
  | shotPersistDone n fail => exact execShotPersistDone_mem n fail s h t ht
  | radioStateGet v => exact execRadioStateGet_mem v s h t ht
  | radioTuneSet v => exact execRadioTuneSet_mem v s h t ht
  | radioTuneGet v => exact execRadioTuneGet_mem v s h t ht
  | radioPaSet v => exact execRadioPaSet_mem v s h t ht
  | radioPaGet v => exact execRadioPaGet_mem v s h t ht
  | radioCompSet v => exact execRadioCompSet_mem v s h t ht
  | radioCompGet v => exact execRadioCompGet_mem v s h t ht
  | radioDivSet v => exact execRadioDivSet_mem v s h t ht
  | radioDivGet v => exact execRadioDivGet_mem v s h t ht
  | radioExtSet v => exact execRadioExtSet_mem v s h t ht
  | radioExtGet v => exact execRadioExtGet_mem v s h t ht
  | radioCal v => exact execRadioCal_mem v s h t ht
  | radioCalDone => exact execRadioCalDone_mem s h t ht
  | radioRssi v => exact execRadioRssi_mem v s h t ht
  | rssiMeasureEnd rssi => exact execRssiMeasureEnd_mem rssi s h t ht
  | radioCca v => exact execRadioCca_mem v s h t ht
  | ccaListenEnd rssiA rssiB => exact execCcaListenEnd_mem rssiA rssiB s h t ht
  | radioStatsGet v => exact execRadioStatsGet_mem v s h t ht
  | radioTestTx v => exact execRadioTestTx_mem v s h t ht
  | radioTestStop v => exact execRadioTestStop_mem v s h t ht
  | testTxEnd => exact execTestTxEnd_mem s h t ht
  | radioTransitionDone => exact execRadioTransitionDone_mem s h t ht
  | calEnd code => exact execCalEnd_mem code s h t ht
  | lockTimeout => exact execLockTimeout_mem s h t ht
  | tempMeasure temp => exact execTempMeasure_mem temp s h t ht
  | autoRecal => exact execAutoRecal_mem s h t ht
  | recalWaitTimeout => exact execRecalWaitTimeout_mem s h t ht
  | homeRetune => exact execHomeRetune_mem s h t ht
  | txStart vbat temp => exact execTxStart_mem vbat temp s h t ht
  | txEnd => exact execTxEnd_mem s h t ht
  | txLate => exact execTxLate_mem s h t ht
  | divDecisionEnd lane rssiA rssiB cut => exact execDivDecisionEnd_mem lane rssiA rssiB cut s h t ht
  | refFail => exact execRefFail_mem s h t ht
  | refRetry => exact execRefRetry_mem s h t ht
  | xordy => exact execXordy_mem s h t ht
  | pllLock env => exact execPllLock_mem env s h t ht
  | lfxrdy => exact execLfxrdy_mem s h t ht
  | scalWindowEnd count => exact execScalWindowEnd_mem count s h t ht
  | mtimeLoRead => exact execMtimeLoRead_mem s h t ht
  | laneStateGet v => exact execLaneStateGet_mem v s h t ht
  | laneSet v => exact execLaneSet_mem v s h t ht
  | laneGet v => exact execLaneGet_mem v s h t ht
  | laneStatsGet v => exact execLaneStatsGet_mem v s h t ht
  | laneSofDetect lane path coded stamp => exact execLaneSofDetect_mem lane path coded stamp s h t ht
  | laneHeader lane hdr => exact execLaneHeader_mem lane hdr s h t ht
  | seamPilotBlock lane weak energy => exact execSeamPilotBlock_mem lane weak energy s h t ht
  | laneFcsResult lane r => exact execLaneFcsResult_mem lane r s h t ht
  | agcClip path => exact execAgcClip_mem path s h t ht
  | phyProfileSet v => exact execPhyProfileSet_mem v s h t ht
  | phyProfileGet v => exact execPhyProfileGet_mem v s h t ht
  | phyQualityGet v => exact execPhyQualityGet_mem v s h t ht
  | phyStatsGet v => exact execPhyStatsGet_mem v s h t ht
  | canaryStateGet v => exact execCanaryStateGet_mem v s h t ht
  | canarySet v => exact execCanarySet_mem v s h t ht
  | canaryGet v => exact execCanaryGet_mem v s h t ht
  | canarySend v => exact execCanarySend_mem v s h t ht
  | canarySendEnd => exact execCanarySendEnd_mem s h t ht
  | canaryStatsGet v => exact execCanaryStatsGet_mem v s h t ht
  | preambleSeen => exact execPreambleSeen_mem s h t ht
  | manchesterViolation => exact execManchesterViolation_mem s h t ht
  | canarySequenceEnd rx => exact execCanarySequenceEnd_mem rx s h t ht
  | canaryMatch => exact execCanaryMatch_mem s h t ht
  | canaryBlankEnd => exact execCanaryBlankEnd_mem s h t ht
  | linkStateGet v => exact execLinkStateGet_mem v s h t ht
  | linkCfgSet v => exact execLinkCfgSet_mem v s h t ht
  | linkCfgGet v => exact execLinkCfgGet_mem v s h t ht
  | nbrSet v => exact execNbrSet_mem v s h t ht
  | nbrGet v => exact execNbrGet_mem v s h t ht
  | nbrFind v => exact execNbrFind_mem v s h t ht
  | routeSet v => exact execRouteSet_mem v s h t ht
  | routeGet v => exact execRouteGet_mem v s h t ht
  | routeLookup v => exact execRouteLookup_mem v s h t ht
  | linkJoin v => exact execLinkJoin_mem v s h t ht
  | joinReqInterval => exact execJoinReqInterval_mem s h t ht
  | joinTimeout => exact execJoinTimeout_mem s h t ht
  | linkJoinReply v => exact execLinkJoinReply_mem v s h t ht
  | linkStatsGet v => exact execLinkStatsGet_mem v s h t ht
  | frameReceive rx => exact execFrameReceive_mem rx s h t ht
  | ackDecision rx => exact execAckDecision_mem rx s h t ht
  | micResult rx ecc => exact execMicResult_mem rx ecc s h t ht
  | pendHoldEnd => exact execPendHoldEnd_mem s h t ht
  | linkTakeFrame flow ecc => exact execLinkTakeFrame_mem flow ecc s h t ht
  | ackReceive rx => exact execAckReceive_mem rx s h t ht
  | ackWaitExpiry => exact execAckWaitExpiry_mem s h t ht
  | retryBackoffEnd flight => exact execRetryBackoffEnd_mem flight s h t ht
  | linkDrop => exact execLinkDrop_mem s h t ht
  | timingStateGet v => exact execTimingStateGet_mem v s h t ht
  | timingCfgSet v => exact execTimingCfgSet_mem v s h t ht
  | timingCfgGet v => exact execTimingCfgGet_mem v s h t ht
  | timingChseqSet v => exact execTimingChseqSet_mem v s h t ht
  | timingChseqGet v => exact execTimingChseqGet_mem v s h t ht
  | timingNbrGet v => exact execTimingNbrGet_mem v s h t ht
  | timingMtimeSet v => exact execTimingMtimeSet_mem v s h t ht
  | timingBeacon v => exact execTimingBeacon_mem v s h t ht
  | timingResync v => exact execTimingResync_mem v s h t ht
  | timeSync v => exact execTimeSync_mem v s h t ht
  | timingStatsGet v => exact execTimingStatsGet_mem v s h t ht
  | mtimeStep => exact execMtimeStep_mem s h t ht
  | calendarOverflowMove => exact execCalendarOverflowMove_mem s h t ht
  | ownWindowOpen => exact execOwnWindowOpen_mem s h t ht
  | ownWindowClose => exact execOwnWindowClose_mem s h t ht
  | keepaliveBeacon nbr => exact execKeepaliveBeacon_mem nbr s h t ht
  | resyncBeacon nbr => exact execResyncBeacon_mem nbr s h t ht
  | resyncInterval nbr => exact execResyncInterval_mem nbr s h t ht
  | resyncListenEnd => exact execResyncListenEnd_mem s h t ht
  | tallyCfgSet v => exact execTallyCfgSet_mem v s h t ht
  | tallyCfgGet v => exact execTallyCfgGet_mem v s h t ht
  | tallyBandSet v => exact execTallyBandSet_mem v s h t ht
  | tallyBandGet v => exact execTallyBandGet_mem v s h t ht
  | tallyUsageGet v => exact execTallyUsageGet_mem v s h t ht
  | tallyCheck v => exact execTallyCheck_mem v s h t ht
  | tallyStatsGet v => exact execTallyStatsGet_mem v s h t ht
  | tallyClear v => exact execTallyClear_mem v s h t ht
  | bucketRoll => exact execBucketRoll_mem s h t ht
  | lbtListenEnd rssiA rssiB => exact execLbtListenEnd_mem rssiA rssiB s h t ht
  | lbtBackoffEnd => exact execLbtBackoffEnd_mem s h t ht
  | tallyRefuse => exact execTallyRefuse_mem s h t ht
  | qmStateGet v => exact execQmStateGet_mem v s h t ht
  | queueSet v => exact execQueueSet_mem v s h t ht
  | queueGet v => exact execQueueGet_mem v s h t ht
  | queueStatusGet v => exact execQueueStatusGet_mem v s h t ht
  | qmCfgSet v => exact execQmCfgSet_mem v s h t ht
  | qmCfgGet v => exact execQmCfgGet_mem v s h t ht
  | queueFlush v => exact execQueueFlush_mem v s h t ht
  | qmStatsGet v => exact execQmStatsGet_mem v s h t ht
  | qmPush who q v => exact execQmPush_mem who q v s h t ht
  | qmPop who q ecc => exact execQmPop_mem who q ecc s h t ht
  | qmLandingWrite who q v => exact execQmLandingWrite_mem who q v s h t ht
  | popStallExpired who => exact execPopStallExpired_mem who s h t ht
  | schedStateGet v => exact execSchedStateGet_mem v s h t ht
  | flowSet v => exact execFlowSet_mem v s h t ht
  | flowGet v => exact execFlowGet_mem v s h t ht
  | flowStateGet v => exact execFlowStateGet_mem v s h t ht
  | shaperSet v => exact execShaperSet_mem v s h t ht
  | shaperGet v => exact execShaperGet_mem v s h t ht
  | schedStatsGet v => exact execSchedStatsGet_mem v s h t ht
  | schedRelease => exact execSchedRelease_mem s h t ht
  | shaperRefill => exact execShaperRefill_mem s h t ht
  | wheelEligible flow => exact execWheelEligible_mem flow s h t ht
  | schedBlocked => exact execSchedBlocked_mem s h t ht
  | cipherStateGet v => exact execCipherStateGet_mem v s h t ht
  | keyInfoGet v => exact execKeyInfoGet_mem v s h t ht
  | keyUsageSet v => exact execKeyUsageSet_mem v s h t ht
  | keyImport v => exact execKeyImport_mem v s h t ht
  | keyRetire v => exact execKeyRetire_mem v s h t ht
  | keyGenerate v => exact execKeyGenerate_mem v s h t ht
  | cipherRun v => exact execCipherRun_mem v s h t ht
  | cipherRunDone => exact execCipherRunDone_mem s h t ht
  | rngGet v => exact execRngGet_mem v s h t ht
  | hashRun v => exact execHashRun_mem v s h t ht
  | hashRunDone => exact execHashRunDone_mem s h t ht
  | sigVerify v => exact execSigVerify_mem v s h t ht
  | sigVerifyDone => exact execSigVerifyDone_mem s h t ht
  | cipherStatsGet v => exact execCipherStatsGet_mem v s h t ht
  | fcReserveWrite slot fail => exact execFcReserveWrite_mem slot fail s h t ht
  | fcReserveRetry => exact execFcReserveRetry_mem s h t ht
  | drbgReseed mask => exact execDrbgReseed_mem mask s h t ht
  | cipherHalt mask => exact execCipherHalt_mem mask s h t ht
  | healthFail => exact execHealthFail_mem s h t ht
  | sourceRestartEnd pass => exact execSourceRestartEnd_mem pass s h t ht
  | pwrStateGet v => exact execPwrStateGet_mem v s h t ht
  | pwrCfgSet v => exact execPwrCfgSet_mem v s h t ht
  | pwrCfgGet v => exact execPwrCfgGet_mem v s h t ht
  | pwrSleep v => exact execPwrSleep_mem v s h t ht
  | pwrSleepWrite v => exact execPwrSleepWrite_mem v s h t ht
  | sleepCommit => exact execSleepCommit_mem s h t ht
  | napReached => exact execNapReached_mem s h t ht
  | hibernateReached => exact execHibernateReached_mem s h t ht
  | napWake => exact execNapWake_mem s h t ht
  | wakePinEdge => exact execWakePinEdge_mem s h t ht
  | gpioEdge pin rising held => exact execGpioEdge_mem pin rising held s h t ht
  | nettimer => exact execNettimer_mem s h t ht
  | apptimerArm v => exact execApptimerArm_mem v s h t ht
  | apptimer => exact execApptimer_mem s h t ht
  | pwrWakeenWrite v => exact execPwrWakeenWrite_mem v s h t ht
  | pwrClr v => exact execPwrClr_mem v s h t ht
  | padsRelease v => exact execPadsRelease_mem v s h t ht
  | padsOutset v => exact execPadsOutset_mem v s h t ht
  | padsOutclr v => exact execPadsOutclr_mem v s h t ht
  | por => exact execPor_mem s h t ht
  | bor => exact execBor_mem s h t ht
  | borRelease => exact execBorRelease_mem s h t ht
  | backupRetention => exact execBackupRetention_mem s h t ht
  | backupReturn => exact execBackupReturn_mem s h t ht
  | aonLoss => exact execAonLoss_mem s h t ht
  | nrstAssert => exact execNrstAssert_mem s h t ht
  | nrstRelease => exact execNrstRelease_mem s h t ht
  | nwdtExpire => exact execNwdtExpire_mem s h t ht
  | sysctlCorerst v => exact execSysctlCorerst_mem v s h t ht
  | coreRestart => exact execCoreRestart_mem s h t ht
  | wakeReset => exact execWakeReset_mem s h t ht
  | bootHandover => exact execBootHandover_mem s h t ht
  | flashStateGet v => exact execFlashStateGet_mem v s h t ht
  | flashRead v => exact execFlashRead_mem v s h t ht
  | flashProgram v => exact execFlashProgram_mem v s h t ht
  | flashErase v => exact execFlashErase_mem v s h t ht
  | flashBlockGet v => exact execFlashBlockGet_mem v s h t ht
  | flashStatsGet v => exact execFlashStatsGet_mem v s h t ht
  | flashcProgram v => exact execFlashcProgram_mem v s h t ht
  | flashcErase v => exact execFlashcErase_mem v s h t ht
  | flashCommandStart plane => exact execFlashCommandStart_mem plane s h t ht
  | flashProgramDone plane r => exact execFlashProgramDone_mem plane r s h t ht
  | flashEraseDone plane r => exact execFlashEraseDone_mem plane r s h t ht
  | flashXipRead addr size fetch => exact execFlashXipRead_mem addr size fetch s h t ht
  | eraseResume plane => exact execEraseResume_mem plane s h t ht
  | flashcBsel v => exact execFlashcBsel_mem v s h t ht
  | blockQueryDone => exact execBlockQueryDone_mem s h t ht
  | flashcLock v => exact execFlashcLock_mem v s h t ht
  | flashcEcccntRead => exact execFlashcEcccntRead_mem s h t ht
  | updateStateGet v => exact execUpdateStateGet_mem v s h t ht
  | updateStageBegin v => exact execUpdateStageBegin_mem v s h t ht
  | updateStageBeginDone fail => exact execUpdateStageBeginDone_mem fail s h t ht
  | updateStageWrite v => exact execUpdateStageWrite_mem v s h t ht
  | updateStageCheck v => exact execUpdateStageCheck_mem v s h t ht
  | updateStageCheckDone => exact execUpdateStageCheckDone_mem s h t ht
  | updateCommit v => exact execUpdateCommit_mem v s h t ht
  | updateSchedule v => exact execUpdateSchedule_mem v s h t ht
  | updateCancel v => exact execUpdateCancel_mem v s h t ht
  | sdCardSearch env => exact execSdCardSearch_mem env s h t ht
  | rtcStateGet v => exact execRtcStateGet_mem v s h t ht
  | rtcTimeGet v => exact execRtcTimeGet_mem v s h t ht
  | rtcTimeSet v => exact execRtcTimeSet_mem v s h t ht
  | rtcAlarmSet v => exact execRtcAlarmSet_mem v s h t ht
  | rtcAlarmGet v => exact execRtcAlarmGet_mem v s h t ht
  | rtcFlagsClear v => exact execRtcFlagsClear_mem v s h t ht
  | rtcTimeRead net k => exact execRtcTimeRead_mem net k s h t ht
  | rtcSet net v => exact execRtcSet_mem net v s h t ht
  | rtcThaw net v => exact execRtcThaw_mem net v s h t ht
  | rtcCommit => exact execRtcCommit_mem s h t ht
  | rtcSecondRollover => exact execRtcSecondRollover_mem s h t ht
  | oscStop => exact execOscStop_mem s h t ht
  | shadowStale net => exact execShadowStale_mem net s h t ht
  | fieldOn => exact execFieldOn_mem s h t ht
  | fieldLoss => exact execFieldLoss_mem s h t ht
  | reqa => exact execReqa_mem s h t ht
  | wupa => exact execWupa_mem s h t ht
  | anticollision f => exact execAnticollision_mem f s h t ht
  | cascadeSelect f => exact execCascadeSelect_mem f s h t ht
  | hlta => exact execHlta_mem s h t ht
  | rats param => exact execRats_mem param s h t ht
  | pps pps => exact execPps_mem pps s h t ht
  | sDeselect => exact execSDeselect_mem s h t ht
  | wtxExpiry ctrFail wFail => exact execWtxExpiry_mem ctrFail wFail s h t ht
  | select_ apdu => exact execSelect_mem apdu s h t ht
  | readBinary apdu => exact execReadBinary_mem apdu s h t ht
  | getInfo apdu => exact execGetInfo_mem apdu s h t ht
  | verify apdu w => exact execVerify_mem apdu w s h t ht
  | readBlock apdu => exact execReadBlock_mem apdu s h t ht
  | writeBlock apdu w => exact execWriteBlock_mem apdu w s h t ht
  | stageCred apdu w => exact execStageCred_mem apdu w s h t ht
  | mailbox apdu ctrFail wFail => exact execMailbox_mem apdu ctrFail wFail s h t ht
  | portBlockWrite ok => exact execPortBlockWrite_mem ok s h t ht
  | portwTake => exact execPortwTake_mem s h t ht
  | portwPrio => exact execPortwPrio_mem s h t ht
  | portwRelease => exact execPortwRelease_mem s h t ht
  | portwRead => exact execPortwRead_mem s h t ht
  | portwWrite => exact execPortwWrite_mem s h t ht
  | portwCmdDone ok => exact execPortwCmdDone_mem ok s h t ht
  | portStateGet v => exact execPortStateGet_mem v s h t ht
  | portCfgSet v => exact execPortCfgSet_mem v s h t ht
  | portCfgGet v => exact execPortCfgGet_mem v s h t ht
  | portMemRead v => exact execPortMemRead_mem v s h t ht
  | portMemWrite v => exact execPortMemWrite_mem v s h t ht
  | portPwSet v => exact execPortPwSet_mem v s h t ht
  | portPwUnlock v => exact execPortPwUnlock_mem v s h t ht
  | portPwGet v => exact execPortPwGet_mem v s h t ht
  | portCredGet v => exact execPortCredGet_mem v s h t ht
  | portCredClear v => exact execPortCredClear_mem v s h t ht
  | interruptEntry => exact execInterruptEntry_mem s h t ht
  | pairWord a b => exact execPairWord_mem a b s h t ht
  | add rd ra rb => exact execAdd_mem rd ra rb s h t ht
  | sub rd ra rb => exact execSub_mem rd ra rb s h t ht
  | and_ rd ra rb => exact execAnd_mem rd ra rb s h t ht
  | or_ rd ra rb => exact execOr_mem rd ra rb s h t ht
  | xor rd ra rb => exact execXor_mem rd ra rb s h t ht
  | shl rd ra rb => exact execShl_mem rd ra rb s h t ht
  | shr rd ra rb => exact execShr_mem rd ra rb s h t ht
  | sar rd ra rb => exact execSar_mem rd ra rb s h t ht
  | cmpLt rd ra rb => exact execCmpLt_mem rd ra rb s h t ht
  | cmpLo rd ra rb => exact execCmpLo_mem rd ra rb s h t ht
  | mul rd ra rb => exact execMul_mem rd ra rb s h t ht
  | mulhs rd ra rb => exact execMulhs_mem rd ra rb s h t ht
  | mulhu rd ra rb => exact execMulhu_mem rd ra rb s h t ht
  | divS rd ra rb => exact execDivS_mem rd ra rb s h t ht
  | divU rd ra rb => exact execDivU_mem rd ra rb s h t ht
  | modS rd ra rb => exact execModS_mem rd ra rb s h t ht
  | modU rd ra rb => exact execModU_mem rd ra rb s h t ht
  | cy rd ra rb => exact execCy_mem rd ra rb s h t ht
  | bw rd ra rb => exact execBw_mem rd ra rb s h t ht
  | addi rd ra imm => exact execAddi_mem rd ra imm s h t ht
  | andi rd ra imm => exact execAndi_mem rd ra imm s h t ht
  | ori rd ra imm => exact execOri_mem rd ra imm s h t ht
  | xori rd ra imm => exact execXori_mem rd ra imm s h t ht
  | cmpiLt rd ra imm => exact execCmpiLt_mem rd ra imm s h t ht
  | cmpiLo rd ra imm => exact execCmpiLo_mem rd ra imm s h t ht
  | shli rd ra imm => exact execShli_mem rd ra imm s h t ht
  | shri rd ra imm => exact execShri_mem rd ra imm s h t ht
  | sari rd ra imm => exact execSari_mem rd ra imm s h t ht
  | ldhi rd imm => exact execLdhi_mem rd imm s h t ht
  | ldW rd ra imm => exact execLdW_mem rd ra imm s h t ht
  | ldHs rd ra imm => exact execLdHs_mem rd ra imm s h t ht
  | ldHz rd ra imm => exact execLdHz_mem rd ra imm s h t ht
  | ldBs rd ra imm => exact execLdBs_mem rd ra imm s h t ht
  | ldBz rd ra imm => exact execLdBz_mem rd ra imm s h t ht
  | stW rd ra imm => exact execStW_mem rd ra imm s h t ht
  | stH rd ra imm => exact execStH_mem rd ra imm s h t ht
  | stB rd ra imm => exact execStB_mem rd ra imm s h t ht
  | wait_ => exact execWait_mem s h t ht
  | mfs rd sr => exact execMfs_mem rd sr s h t ht
  | mts sr ra => exact execMts_mem sr ra s h t ht
  | repI c => exact execRepI_mem c s h t ht
  | repU c => exact execRepU_mem c s h t ht
  | ret => exact execRet_mem s h t ht
  | rfe => exact execRfe_mem s h t ht
  | syscall => exact execSyscall_mem s h t ht
  | break_ => exact execBreak_mem s h t ht
  | brEq ra rb off => exact execBrEq_mem ra rb off s h t ht
  | brNe ra rb off => exact execBrNe_mem ra rb off s h t ht
  | brLt ra rb off => exact execBrLt_mem ra rb off s h t ht
  | brGe ra rb off => exact execBrGe_mem ra rb off s h t ht
  | brBl ra rb off => exact execBrBl_mem ra rb off s h t ht
  | brNb ra rb off => exact execBrNb_mem ra rb off s h t ht
  | briEq ra imm off => exact execBriEq_mem ra imm off s h t ht
  | briNe ra imm off => exact execBriNe_mem ra imm off s h t ht
  | briLt ra imm off => exact execBriLt_mem ra imm off s h t ht
  | briGe ra imm off => exact execBriGe_mem ra imm off s h t ht
  | briBl ra imm off => exact execBriBl_mem ra imm off s h t ht
  | briNb ra imm off => exact execBriNb_mem ra imm off s h t ht
  | j off => exact execJ_mem off s h t ht
  | call off => exact execCall_mem off s h t ht
  | jmpR ra => exact execJmpR_mem ra s h t ht
  | callR ra => exact execCallR_mem ra s h t ht
  | seGo n => exact execSeGo_mem n s h t ht
  | seAbort n => exact execSeAbort_mem n s h t ht
  | seBusclr n => exact execSeBusclr_mem n s h t ht
  | seDataWrite n v => exact execSeDataWrite_mem n v s h t ht
  | seDataRead n => exact execSeDataRead_mem n s h t ht
  | seConfigWrite n reg v => exact execSeConfigWrite_mem n reg v s h t ht
  | seTransferEnd n r => exact execSeTransferEnd_mem n r s h t ht
  | seI2cTimeout n => exact execSeI2cTimeout_mem n s h t ht
  | seUartRxByte n b e => exact execSeUartRxByte_mem n b e s h t ht
  | seUartTxByte n => exact execSeUartTxByte_mem n s h t ht
  | adcStart v => exact execAdcStart_mem v s h t ht
  | adcSettled => exact execAdcSettled_mem s h t ht
  | adcConversionEnd volt vref => exact execAdcConversionEnd_mem volt vref s h t ht
  | adcDataRead => exact execAdcDataRead_mem s h t ht
  | tmrSync v => exact execTmrSync_mem v s h t ht
  | timerMatch n => exact execTimerMatch_mem n s h t ht
  | timerWrap n => exact execTimerWrap_mem n s h t ht
  | timerCapture n rising count => exact execTimerCapture_mem n rising count s h t ht
  | wdgStart v => exact execWdgStart_mem v s h t ht
  | wdgFeed v => exact execWdgFeed_mem v s h t ht
  | wdgReload => exact execWdgReload_mem s h t ht
  | wdgWarn => exact execWdgWarn_mem s h t ht
  | wdtExpire => exact execWdtExpire_mem s h t ht
  | debugPortAccess a => exact execDebugPortAccess_mem a s h t ht
  | registerWrite who addr v => exact execRegisterWrite_mem who addr v s h t ht
  | mtimeRateHandover => exact execMtimeRateHandover_mem s h t ht
  | networkScheduledSleep d => exact execNetworkScheduledSleep_mem d s h t ht
  | eraseSuspended plane => exact execEraseSuspended_mem plane s h t ht
  | portFrameError => exact execPortFrameError_mem s h t ht
  | sWtxAnswer wtxm => exact execSWtxAnswer_mem wtxm s h t ht
  | chainedBlock pcb f => exact execChainedBlock_mem pcb f s h t ht
  | illegalEncoding w => exact execIllegalEncoding_mem w s h t ht
  | ctsChange n level => exact execCtsChange_mem n level s h t ht
  | vioLoss => exact execVioLoss_mem s h t ht
  | vioReturn => exact execVioReturn_mem s h t ht
  | vbkupLoss => exact execVbkupLoss_mem s h t ht

/-- Settles O5: the front command keeps the canonical form by its row's lemma, and so does the time that passes with an empty queue. -/
theorem stepKeepsMemWf : Obligations.StepKeepsMemWf := by
  intro s t h ht
  cases hp : s.pending with
  | nil =>
    rw [step_nil hp] at ht
    cases ht
    exact idle_mem s h
  | cons c rest =>
    rw [step_cons hp] at ht
    exact exec_mem c { s with pending := rest } h t ht

/-- Settles O4: the RAMs are empty after reset. -/
theorem resetMemWf : Obligations.ResetMemWf := State.reset_mem

/-- Settles O1: the queue's front is the command that `step` matches. -/
theorem stepTakesFront : Obligations.StepTakesFront := fun _ _ _ => step_cons rfl

/-- Settles O2: no row faults or refuses, and an empty queue lets time pass. -/
theorem everyStepCompletes : Obligations.EveryStepCompletes :=
  ⟨exec_completes, step_completes, fun _ => step_nil⟩

/-! ### The state after reset -/

theorem rdMem_reset (a : Nat) : rdMem State.reset a = 0 := rfl

/-- A list of equal entries reads as its entry, as the default does beyond its end. -/
theorem at_replicate {α : Type} (d : α) (n i : Nat) : at_ d (List.replicate n d) i = d := by
  simp only [at_, List.getD_eq_getElem?_getD, List.getElem?_replicate]
  split <;> rfl

/-- Every general register holds 0, u15 among them: both stack pointers are 0. -/
theorem get_reset (r : Nat) : State.reset.core.get r = 0 := by
  unfold Core.get
  split
  · rfl
  · exact at_replicate 0#32 15 r

theorem tmrOf_reset (n : Nat) : tmrOf State.reset n = .reset := at_replicate Tmr.reset 4 n

/-- Settles O3: the registers and the timers are lists of zeros; every other value stands in the reset state as the spec gives it. -/
theorem resetState : Obligations.ResetState := by
  refine ⟨rfl, rdMem_reset, get_reset, rfl, rfl, rfl, rfl, rfl, rfl, rfl, rfl, rfl, rfl, rfl, rfl, rfl, rfl, ?timers, rfl, rfl, rfl⟩
  case timers =>
    intro n _
    rw [tmrOf_reset]
    rfl

/-! ### A response in its buffer (R37, R44, R47) -/

/-- R47: the header of a response without a trailer. -/
def responseHead (req : List Byte) (n st det : Nat) : List Byte :=
  slice req 0 4 ++ le 2 n ++ le 2 2 ++ slice req 8 4 ++ le 2 st ++ le 2 det

theorem response_plain (req : List Byte) (st det : Nat) (body : List Byte) :
    response req st det body none = responseHead req body.length st det ++ body := rfl

section
variable (req : List Byte) (n st det : Nat)

theorem length_responseHead : (responseHead req n st det).length = 16 := by
  simp [responseHead, length_slice, length_le]

/-- A field of the header, `l` octets long and behind `a.length` octets, reads as what was put there. -/
theorem slice_field (a f r : List Byte) {o k : Nat} (ho : o = a.length) (hk : k = f.length) : slice (a ++ (f ++ r)) o k = f := by
  rw [slice_append_right a _ _ _ (Nat.le_of_eq ho.symm), ho, Nat.sub_self, slice_append_self f r k hk]

theorem responseHead_copies {o k : Nat} (h : o + k ≤ 4) : slice (responseHead req n st det) o k = slice req o k := by
  rw [responseHead]
  simp only [List.append_assoc]
  rw [slice_append_left _ _ _ _ (by rw [length_slice]; exact h), slice_slice _ _ _ _ _ h, Nat.zero_add]

theorem responseHead_opcode : u16 (responseHead req n st det) 0 = u16 req 0 := congrArg unle (responseHead_copies req n st det (by decide))

theorem responseHead_seq : u16 (responseHead req n st det) 2 = u16 req 2 := congrArg unle (responseHead_copies req n st det (by decide))

theorem responseHead_length : u16 (responseHead req n st det) 4 = n % 65536 := by
  have hf : slice (responseHead req n st det) 4 2 = le 2 n := by
    simp only [responseHead, List.append_assoc]
    exact slice_field (slice req 0 4) (le 2 n) _ (length_slice ..).symm (length_le ..).symm
  rw [u16, hf]
  exact unle_le 2 n

theorem responseHead_flags : u16 (responseHead req n st det) 6 = 2 := by
  have hf : slice (responseHead req n st det) 6 2 = le 2 2 := by
    rw [responseHead, List.append_assoc, List.append_assoc, List.append_assoc]
    exact slice_field (slice req 0 4 ++ le 2 n) (le 2 2) _ (by simp [length_slice, length_le]) (length_le ..).symm
  rw [u16, hf]
  exact unle_le 2 2

theorem responseHead_counter : u32 (responseHead req n st det) 8 = u32 req 8 := by
  have hf : slice (responseHead req n st det) 8 4 = slice req 8 4 := by
    rw [responseHead, List.append_assoc, List.append_assoc]
    exact slice_field (slice req 0 4 ++ le 2 n ++ le 2 2) (slice req 8 4) _ (by simp [length_slice, length_le]) (length_slice ..).symm
  rw [u32, hf, u32]

theorem responseHead_status : u16 (responseHead req n st det) 12 = st % 65536 := by
  have hf : slice (responseHead req n st det) 12 2 = le 2 st := by
    rw [responseHead, List.append_assoc]
    exact slice_field (slice req 0 4 ++ le 2 n ++ le 2 2 ++ slice req 8 4) (le 2 st) _ (by simp [length_slice, length_le]) (length_le ..).symm
  rw [u16, hf]
  exact unle_le 2 st

theorem responseHead_detail : u16 (responseHead req n st det) 14 = det % 65536 := by
  have hf : slice (responseHead req n st det) 14 2 = le 2 det := by
    have h := slice_field (slice req 0 4 ++ le 2 n ++ le 2 2 ++ slice req 8 4 ++ le 2 st) (le 2 det) [] (o := 14) (k := 2)
      (by simp [length_slice, length_le]) (length_le ..).symm
    rwa [List.append_nil] at h
  rw [u16, hf]
  exact unle_le 2 det

end

/-- A run of octets written to RAM reads back. -/
theorem rdBytes_wrTab {t u : State} (a : Nat) (l : List Byte) (h : MemWf t) (hu : u.mem = wrTab t.mem a l) : rdBytes u a l.length = l := by
  refine rdBytes_of_rdMem u a l fun k hk => ?_
  rw [rdMem, hu]
  exact tget_wrTab_inside a l t.mem h hk

/-- RAM beside a run of written octets is as it was. -/
theorem rdMem_wrTab_outside {t u : State} (a : Nat) (l : List Byte) (h : MemWf t) (hu : u.mem = wrTab t.mem a l) {b : Nat}
    (hb : b < a ∨ a + l.length ≤ b) : rdMem u b = rdMem t b := by
  rw [rdMem, hu]
  exact tget_wrTab_outside a l t.mem h hb

/-- Settles O9: the response is one run of octets written to the channel's buffer, its header the first sixteen. -/
theorem responseReadsBack : Obligations.ResponseReadsBack := by
  intro v st det body s t u hwf hlen h
  cases h
  have hm : (response (requestOf s v.ch) st det body none).length = 16 + body.length := by
    rw [response_plain, List.length_append, length_responseHead]
  have hread := rdBytes_wrTab (rspBuf v.ch) _ hwf (reply_mem_eq v.ch (response (requestOf s v.ch) st det body none) t)
  rw [hm] at hread
  have hhead : rdBytes (reply v.ch (response (requestOf s v.ch) st det body none) t) (rspBuf v.ch) 16 =
      responseHead (requestOf s v.ch) body.length st det := by
    rw [rdBytes_take _ _ (16 + body.length) 16 (by omega), hread, response_plain]
    exact List.take_left' (length_responseHead ..)
  rw [hhead, hread]
  refine ⟨rfl, responseHead_opcode .., responseHead_seq .., ?len, responseHead_flags .., responseHead_counter .., responseHead_status ..,
    responseHead_detail .., ?frame⟩
  case len =>
    rw [responseHead_length]
    exact Nat.mod_eq_of_lt (by omega)
  case frame =>
    intro a ha
    exact rdMem_wrTab_outside _ _ hwf (reply_mem_eq ..) (by omega)

/-! ### A store of the core (R604, R636) -/

/-- Octet `k` of a word. -/
theorem ofNat_div_word (x : Word) (k : Nat) : BitVec.ofNat 8 (x.toNat / 256 ^ k) = x.extractLsb' (8 * k) 8 := by
  apply BitVec.eq_of_toNat_eq
  rw [BitVec.toNat_ofNat, BitVec.extractLsb'_toNat, Nat.shiftRight_eq_div_pow, Nat.pow_mul]

/-- The octets of a word that a store wrote, and all that it left. -/
theorem stored_wrBytes {s : State} (h : MemWf s) (a n : Nat) (x pc : Word) :
    (∀ k < n, rdMem (wentTo pc (wrBytes s a (le n x.toNat))) (a + k) = x.extractLsb' (8 * k) 8) ∧
    (∀ b, (b < a ∨ a + n ≤ b) → rdMem (wentTo pc (wrBytes s a (le n x.toNat))) b = rdMem s b) ∧
    (wentTo pc (wrBytes s a (le n x.toNat))).core = { s.core with pc := pc } := by
  refine ⟨?inside, ?outside, rfl⟩
  case inside =>
    intro k hk
    have hin := tget_wrTab_inside a (le n x.toNat) s.mem h (k := k) (by rw [length_le]; exact hk)
    rw [getElem_le k n x.toNat hk, ofNat_div_word] at hin
    exact hin
  case outside =>
    intro b hb
    exact tget_wrTab_outside a (le n x.toNat) s.mem h (by rw [length_le]; exact hb)

section
variable {rs ra : Reg} {imm : BitVec 17} {s : State}

theorem exec_stW_ram (h : Plain s) (hw : WritesRam (greg s ra + imm.signExtend 32) .w s) :
    exec (.stW rs ra imm) s = .next (wentTo (s.core.pc + 4#32) (wrBytes s (greg s ra + imm.signExtend 32).toNat (le 4 (greg s rs).toNat))) :=
  storeRow_plain h 24 rs ra imm hw

theorem exec_stH_ram (h : Plain s) (hw : WritesRam (greg s ra + imm.signExtend 32) .h s) :
    exec (.stH rs ra imm) s = .next (wentTo (s.core.pc + 4#32) (wrBytes s (greg s ra + imm.signExtend 32).toNat (le 2 (greg s rs).toNat))) :=
  storeRow_plain h 25 rs ra imm hw

theorem exec_stB_ram (h : Plain s) (hw : WritesRam (greg s ra + imm.signExtend 32) .b s) :
    exec (.stB rs ra imm) s = .next (wentTo (s.core.pc + 4#32) (wrBytes s (greg s ra + imm.signExtend 32).toNat (le 1 (greg s rs).toNat))) :=
  storeRow_plain h 26 rs ra imm hw

end

/-- Settles O57: a store is one run of octets written to RAM. -/
theorem storeFrame : Obligations.StoreFrame :=
  ⟨fun _ _ _ _ h hwf hw => ⟨_, exec_stW_ram h hw, stored_wrBytes hwf ..⟩,
   fun _ _ _ _ h hwf hw => ⟨_, exec_stH_ram h hw, stored_wrBytes hwf ..⟩,
   fun _ _ _ _ h hwf hw => ⟨_, exec_stB_ram h hw, stored_wrBytes hwf ..⟩⟩

/-! ### General registers (R601) -/

section
variable {c : Core} {r q : Nat} (v : Word)

theorem get_of_ne (h : r ≠ 15) : c.get r = at_ 0#32 c.u r := if_neg h

theorem put_of_ne (h : r ≠ 15) : c.put r v = { c with u := c.u.set r v } := if_neg h

theorem put_machine (hm : c.mach = true) : c.put 15 v = { c with spm := v } := by simp [Core.put, hm]

theorem put_thread (hm : c.mach = false) : c.put 15 v = { c with spt := v } := by simp [Core.put, hm]

theorem get_machine (hm : c.mach = true) : c.get 15 = c.spm := by simp [Core.get, hm]

theorem get_thread (hm : c.mach = false) : c.get 15 = c.spt := by simp [Core.get, hm]

theorem get_put_self (hlen : c.u.length = 15) (hr : r ≤ 15) : (c.put r v).get r = v := by
  by_cases h : r = 15
  · subst h
    cases hm : c.mach with
    | true => rw [put_machine v hm]; exact get_machine hm
    | false => rw [put_thread v hm]; exact get_thread hm
  · rw [put_of_ne v h, get_of_ne h]
    exact at_set_self (by omega)

theorem get_put_of_ne (h : q ≠ r) : (c.put r v).get q = c.get q := by
  by_cases hr : r = 15
  · subst hr
    cases hm : c.mach with
    | true => rw [put_machine v hm, get_of_ne h, get_of_ne h]
    | false => rw [put_thread v hm, get_of_ne h, get_of_ne h]
  · rw [put_of_ne v hr]
    by_cases hq : q = 15
    · subst hq; rfl
    · rw [get_of_ne hq, get_of_ne hq]
      exact at_set_of_ne h

end

/-- Settles O58: u15 is a stack pointer, every other register an entry of the list. -/
theorem generalRegisters : Obligations.GeneralRegisters := by
  refine ⟨?same, ?other, ?machine, ?thread⟩
  case same =>
    intro c r v hlen
    exact get_put_self v hlen (Nat.le_of_lt_succ r.isLt)
  case other =>
    intro c r q v hne
    exact get_put_of_ne v fun h => hne (BitVec.eq_of_toNat_eq h)
  case machine => exact fun c v hm => ⟨get_machine hm, put_machine v hm⟩
  case thread => exact fun c v hm => ⟨get_thread hm, put_thread v hm⟩

end Sys2Proof.Machine

/-! The Talxa core's rows (chapters 20 and 21): arithmetic, loads and stores with their faults, branches and jumps. -/

namespace Sys2Proof.Machine

/-! ### Values (R631 to R633) -/

section
variable (x y : Word)

theorem truth_decide (p : Prop) [Decidable p] : truth (decide p) = if p then 1#32 else 0#32 := by
  by_cases hp : p <;> simp [truth, hp]

theorem ltS_eq_decide : ltS x y = decide (x.toInt < y.toInt) := BitVec.slt_eq_decide

theorem ltU_eq_decide : ltU x y = decide (x.toNat < y.toNat) := BitVec.ult_eq_decide

theorem truth_ltS : truth (ltS x y) = if x.toInt < y.toInt then 1#32 else 0#32 := by rw [ltS_eq_decide, truth_decide]

theorem truth_ltU : truth (ltU x y) = if x.toNat < y.toNat then 1#32 else 0#32 := by rw [ltU_eq_decide, truth_decide]

theorem carry_eq : carry x y = if 0xFFFFFFFF < x.toNat + y.toNat then 1#32 else 0#32 := truth_decide _

theorem borrow_eq : borrow x y = if x.toNat < y.toNat then 0xFFFFFFFF#32 else 0#32 := by
  simp only [borrow, ltU_eq_decide, decide_eq_true_eq]

/-- R633: the most negative number by −1 gives itself, as the quotient modulo 2^32 does. -/
theorem opDivS_eq : opDivS x y = if y = 0 then 0xFFFFFFFF#32 else BitVec.ofInt 32 (x.toInt.tdiv y.toInt) := by
  have hdiv : x.sdiv y = BitVec.ofInt 32 (x.toInt.tdiv y.toInt) := by
    apply BitVec.eq_of_toInt_eq
    rw [BitVec.toInt_sdiv, BitVec.toInt_ofInt]
  rw [opDivS, hdiv]
  rfl

theorem opDivU_eq : opDivU x y = if y = 0 then 0xFFFFFFFF#32 else BitVec.ofNat 32 (x.toNat / y.toNat) := by
  rw [opDivU, ← BitVec.udiv_def]
  rfl

theorem opModS_eq : opModS x y = if y = 0 then x else BitVec.ofInt 32 (x.toInt.tmod y.toInt) := by
  rw [opModS, ← BitVec.toInt_srem, BitVec.ofInt_toInt]
  rfl

theorem opModU_eq : opModU x y = if y = 0 then x else BitVec.ofNat 32 (x.toNat % y.toNat) := by
  rw [opModU, ← BitVec.umod_def]
  rfl

/-- A sign-extended field keeps its number. -/
theorem toInt_sext {w : Nat} (v : BitVec w) (hw : w ≤ 32) : (sext v).toInt = v.toInt := BitVec.toInt_signExtend_of_le hw

theorem toNat_zext {w : Nat} (v : BitVec w) (hw : w ≤ 32) : (zext v).toNat = v.toNat := BitVec.toNat_setWidth_of_le hw

end

/-- Settles O49: every row is an ALU row of its value. -/
theorem arithmeticRows : Obligations.ArithmeticRows := by
  refine ⟨?add, ?sub, ?and, ?or, ?xor, ?shl, ?shr, ?sar, ?cmpLt, ?cmpLo, ?mul, ?mulhs, ?mulhu, ?cy, ?bw, ?divS, ?divU, ?modS, ?modU,
    ?addi, ?andi, ?ori, ?xori, ?cmpiLt, ?cmpiLo, ?shli, ?shri, ?sari, ?ldhi⟩
  case add => exact fun rd ra rb s h => aluRow_plain h rd (fun t => greg t ra + greg t rb) _ rfl
  case sub => exact fun rd ra rb s h => aluRow_plain h rd (fun t => greg t ra - greg t rb) _ rfl
  case and => exact fun rd ra rb s h => aluRow_plain h rd (fun t => greg t ra &&& greg t rb) _ rfl
  case or => exact fun rd ra rb s h => aluRow_plain h rd (fun t => greg t ra ||| greg t rb) _ rfl
  case xor => exact fun rd ra rb s h => aluRow_plain h rd (fun t => greg t ra ^^^ greg t rb) _ rfl
  case shl => exact fun rd ra rb s h => aluRow_plain h rd (fun t => opShl (greg t ra) (greg t rb)) _ rfl
  case shr => exact fun rd ra rb s h => aluRow_plain h rd (fun t => opShr (greg t ra) (greg t rb)) _ rfl
  case sar => exact fun rd ra rb s h => aluRow_plain h rd (fun t => opSar (greg t ra) (greg t rb)) _ rfl
  case cmpLt => exact fun rd ra rb s h => aluRow_plain h rd (fun t => truth (ltS (greg t ra) (greg t rb))) _ (truth_ltS ..)
  case cmpLo => exact fun rd ra rb s h => aluRow_plain h rd (fun t => truth (ltU (greg t ra) (greg t rb))) _ (truth_ltU ..)
  case mul => exact fun rd ra rb s h => aluRow_plain h rd (fun t => greg t ra * greg t rb) _ rfl
  case mulhs => exact fun rd ra rb s h => aluRow_plain h rd (fun t => opMulhs (greg t ra) (greg t rb)) _ rfl
  case mulhu => exact fun rd ra rb s h => aluRow_plain h rd (fun t => opMulhu (greg t ra) (greg t rb)) _ rfl
  case cy => exact fun rd ra rb s h => aluRow_plain h rd (fun t => carry (greg t ra) (greg t rb)) _ (carry_eq ..)
  case bw => exact fun rd ra rb s h => aluRow_plain h rd (fun t => borrow (greg t ra) (greg t rb)) _ (borrow_eq ..)
  case divS => exact fun rd ra rb s h => aluRow_plain h rd (fun t => opDivS (greg t ra) (greg t rb)) _ (opDivS_eq ..)
  case divU => exact fun rd ra rb s h => aluRow_plain h rd (fun t => opDivU (greg t ra) (greg t rb)) _ (opDivU_eq ..)
  case modS => exact fun rd ra rb s h => aluRow_plain h rd (fun t => opModS (greg t ra) (greg t rb)) _ (opModS_eq ..)
  case modU => exact fun rd ra rb s h => aluRow_plain h rd (fun t => opModU (greg t ra) (greg t rb)) _ (opModU_eq ..)
  case addi => exact fun rd ra imm s h => aluRow_plain h rd (fun t => greg t ra + sext imm) _ rfl
  case andi => exact fun rd ra imm s h => aluRow_plain h rd (fun t => greg t ra &&& zext imm) _ rfl
  case ori => exact fun rd ra imm s h => aluRow_plain h rd (fun t => greg t ra ||| zext imm) _ rfl
  case xori => exact fun rd ra imm s h => aluRow_plain h rd (fun t => greg t ra ^^^ zext imm) _ rfl
  case cmpiLt =>
    intro rd ra imm s h
    refine aluRow_plain h rd (fun t => truth (ltS (greg t ra) (sext imm))) _ ?_
    rw [truth_ltS, toInt_sext imm (by decide)]
  case cmpiLo => exact fun rd ra imm s h => aluRow_plain h rd (fun t => truth (ltU (greg t ra) (sext imm))) _ (truth_ltU ..)
  case shli => exact fun rd ra imm s h => aluRow_plain h rd (fun t => greg t ra <<< imm.toNat) _ rfl
  case shri => exact fun rd ra imm s h => aluRow_plain h rd (fun t => greg t ra >>> imm.toNat) _ rfl
  case sari => exact fun rd ra imm s h => aluRow_plain h rd (fun t => (greg t ra).sshiftRight imm.toNat) _ rfl
  case ldhi => exact fun rd imm s h => aluRow_plain h rd (fun _ => imm ++ 0#11) _ rfl

/-! ### Loads and stores (R604, R610, R636) -/

/-- Settles O50: each row is the load or the store of its width. -/
theorem loadAndStoreRows : Obligations.LoadAndStoreRows := by
  refine ⟨?word, ?halfSigned, ?half, ?byteSigned, ?byte, fun _ _ _ _ h hw => exec_stW_ram h hw, fun _ _ _ _ h hw => exec_stH_ram h hw,
    fun _ _ _ _ h hw => exec_stB_ram h hw⟩
  case word => exact fun rd ra imm s h hr => loadRow_plain h 19 rd ra imm hr
  case halfSigned => exact fun rd ra imm s h hr => loadRow_plain h 20 rd ra imm hr
  case half => exact fun rd ra imm s h hr => loadRow_plain h 21 rd ra imm hr
  case byteSigned => exact fun rd ra imm s h hr => loadRow_plain h 22 rd ra imm hr
  case byte => exact fun rd ra imm s h hr => loadRow_plain h 23 rd ra imm hr

/-! ### Accesses and fetches that fail (R604 to R606, R609) -/

section
variable {s : State} {a : Word} {z : Size}

theorem coreRead_misaligned {m : Bool} (rd : Option Nat) (h : misaligned a.toNat z = true) : coreRead m a z rd s = .fail 3 s := if_pos h

theorem coreWrite_misaligned {m : Bool} (v : Word) (h : misaligned a.toNat z = true) : coreWrite m a z v s = .fail 3 s := if_pos h

/-- Where nothing lies, an access is checked for no alignment. -/
theorem misaligned_nowhere {n : Nat} (hp : placeOf n = .none) : misaligned n z = false := by simp [misaligned, hp]

theorem coreRead_nowhere {m : Bool} (rd : Option Nat) (hm : mpuAllows s.core m 0 a.toNat = true)
    (hp : placeOf a.toNat = .none) : coreRead m a z rd s = .fail 2 s := by
  simp [coreRead, misaligned_nowhere hp, hm, busRead, hp]

theorem coreWrite_nowhere {m : Bool} (v : Word) (hm : mpuAllows s.core m 1 a.toNat = true)
    (hp : placeOf a.toNat = .none) : coreWrite m a z v s = .fail 2 s := by
  simp [coreWrite, misaligned_nowhere hp, hm, busWrite, hp]

theorem loadRow_fail {op e : Nat} {rd ra : Reg} {imm : BitVec 17} (h : Plain s)
    (hr : coreRead s.core.mach (greg s ra + sext imm) (opSize op) (some rd.toNat) s = .fail e s) :
    loadRow op rd ra imm s =
      .next (raiseExc { exc := e, kind := some 0, slotb := some false, addr := greg s ra + sext imm } s.core.pc s) := by
  rw [loadRow, word_plain h, loadAt_fail _ hr]
  rfl

theorem storeRow_fail {op e : Nat} {rs ra : Reg} {imm : BitVec 17} (h : Plain s)
    (hw : coreWrite s.core.mach (greg s ra + sext imm) (opSize op) (greg s rs) s = .fail e s) :
    storeRow op rs ra imm s =
      .next (raiseExc { exc := e, kind := some 1, slotb := some false, addr := greg s ra + sext imm } s.core.pc s) := by
  rw [storeRow, word_plain h, storeAt_fail _ hw]
  rfl

theorem fetchFails_unaligned (h : s.core.pc.toNat % 4 ≠ 0) : fetchFails s = some 3 := if_pos h

theorem fetchFails_denied (h4 : s.core.pc.toNat % 4 = 0) (hm : mpuAllows s.core s.core.mach 2 s.core.pc.toNat = false) :
    fetchFails s = some 6 := by
  simp [fetchFails, h4, hm]

theorem fetchFails_shared (h4 : s.core.pc.toNat % 4 = 0) (hm : mpuAllows s.core s.core.mach 2 s.core.pc.toNat = true)
    (hp : placeOf s.core.pc.toNat = .shared) : fetchFails s = some 2 := by
  simp [fetchFails, h4, hm, hp]

theorem word_halted (b : State → State) (h : s.core.run = .halted) : word b s = s := by
  simp [word, awaken, h]

end

/-- Settles O51: a failing access raises the exception of the first check that it fails, a failing fetch that of its own; both before the word
writes anything. -/
theorem accessFaults : Obligations.AccessFaults := by
  refine ⟨?ldW, ?ldHs, ?ldHz, ?stW, ?stH, ?readDenied, ?writeDenied, ?readNowhere, ?writeNowhere, ?fetchUnaligned, ?fetchDenied, ?fetchShared,
    ?halted⟩
  case ldW => exact fun rd ra imm s h hal => loadRow_fail (op := 19) h (coreRead_misaligned _ hal)
  case ldHs => exact fun rd ra imm s h hal => loadRow_fail (op := 20) h (coreRead_misaligned _ hal)
  case ldHz => exact fun rd ra imm s h hal => loadRow_fail (op := 21) h (coreRead_misaligned _ hal)
  case stW => exact fun rs ra imm s h hal => storeRow_fail (op := 24) h (coreWrite_misaligned _ hal)
  case stH => exact fun rs ra imm s h hal => storeRow_fail (op := 25) h (coreWrite_misaligned _ hal)
  case readDenied => exact fun rd ra imm s h hal hm => loadRow_fail (op := 19) h (coreRead_denied _ hal hm)
  case writeDenied => exact fun rs ra imm s h hal hm => storeRow_fail (op := 26) h (coreWrite_denied _ hal hm)
  case readNowhere => exact fun rd ra imm s h hm hp => loadRow_fail (op := 23) h (coreRead_nowhere _ hm hp)
  case writeNowhere => exact fun rs ra imm s h hm hp => storeRow_fail (op := 25) h (coreWrite_nowhere _ hm hp)
  case fetchUnaligned => exact fun rd ra rb s hr h4 => congrArg _ (word_fetchFails hr (fetchFails_unaligned h4) _)
  case fetchDenied => exact fun off s hr h4 hm => congrArg _ (word_fetchFails hr (fetchFails_denied h4 hm) _)
  case fetchShared => exact fun s hr h4 hm hp => congrArg _ (word_fetchFails hr (fetchFails_shared h4 hm hp) _)
  case halted => exact fun rd ra rb s hr => congrArg _ (word_halted _ hr)

/-! ### Branches and jumps (R609, R639, R640) -/

section
variable (x y : Word)

theorem not_ltS : (!ltS x y) = decide (y.toInt ≤ x.toInt) := by
  rw [ltS_eq_decide, ← decide_not]
  exact decide_eq_decide.2 Int.not_lt

theorem not_ltU : (!ltU x y) = decide (y.toNat ≤ x.toNat) := by
  rw [ltU_eq_decide, ← decide_not]
  exact decide_eq_decide.2 Nat.not_lt

/-- A word is the sign extension of a field when their numbers agree. -/
theorem beq_sext {w : Nat} (v : BitVec w) (hw : w ≤ 32) : (x == sext v) = decide (x.toInt = v.toInt) := by
  rw [← toInt_sext v hw]
  exact decide_eq_decide.2 BitVec.toInt_inj.symm

theorem bne_eq_decide : (x != y) = decide (x ≠ y) := by
  rw [decide_not]
  rfl

end

section
variable {s : State} {ra : Reg}

theorem poppedBad_eq_false {v : Word} (h : v.toNat % 4 = 0) : poppedBad v = false := by simp [poppedBad, h]

theorem poppedBad_eq_true {v : Word} (h : v.toNat % 4 ≠ 0) : poppedBad v = true := by simp [poppedBad, h]

/-- R609: a jump to a target that is not word-aligned. -/
theorem alignAt_plain (v : Word) : alignAt v s = raiseExc { exc := 3, kind := some 2, slotb := some false, addr := v } s.core.pc s := rfl

theorem exec_jmpR (h : Plain s) :
    exec (.jmpR ra) s = .next (if poppedBad (greg s ra) then alignAt (greg s ra) s else wentTo (greg s ra) s) := by
  change execJmpR ra s = _
  rw [execJmpR, word_plain h, goTo_plain h]

end

/-- Settles O52: every branch is a branch row of its condition, and a jump goes to its target if that is aligned. -/
theorem branchRows : Obligations.BranchRows := by
  refine ⟨?eq, ?ne, ?lt, ?ge, ?bl, ?nb, ?eqI, ?neI, ?ltI, ?geI, ?blI, ?nbI, ?jump, ?register, ?unaligned⟩
  case eq => exact fun ra rb off s h => branchRow_plain h (fun t => greg t ra == greg t rb) off _ rfl
  case ne => exact fun ra rb off s h => branchRow_plain h (fun t => greg t ra != greg t rb) off _ (bne_eq_decide ..)
  case lt => exact fun ra rb off s h => branchRow_plain h (fun t => ltS (greg t ra) (greg t rb)) off _ (ltS_eq_decide ..)
  case ge => exact fun ra rb off s h => branchRow_plain h (fun t => !ltS (greg t ra) (greg t rb)) off _ (not_ltS ..)
  case bl => exact fun ra rb off s h => branchRow_plain h (fun t => ltU (greg t ra) (greg t rb)) off _ (ltU_eq_decide ..)
  case nb => exact fun ra rb off s h => branchRow_plain h (fun t => !ltU (greg t ra) (greg t rb)) off _ (not_ltU ..)
  case eqI => exact fun ra imm off s h => branchRow_plain h (fun t => greg t ra == sext imm) off _ (beq_sext _ imm (by decide))
  case neI =>
    intro ra imm off s h
    refine branchRow_plain h (fun t => greg t ra != sext imm) off _ ?_
    rw [decide_not, ← beq_sext _ imm (by decide)]
    rfl
  case ltI =>
    intro ra imm off s h
    refine branchRow_plain h (fun t => ltS (greg t ra) (sext imm)) off _ ?_
    rw [ltS_eq_decide, toInt_sext imm (by decide)]
  case geI =>
    intro ra imm off s h
    refine branchRow_plain h (fun t => !ltS (greg t ra) (sext imm)) off _ ?_
    rw [not_ltS, toInt_sext imm (by decide)]
  case blI =>
    intro ra imm off s h
    refine branchRow_plain h (fun t => ltU (greg t ra) (zext imm)) off _ ?_
    rw [ltU_eq_decide, toNat_zext imm (by decide)]
  case nbI =>
    intro ra imm off s h
    refine branchRow_plain h (fun t => !ltU (greg t ra) (zext imm)) off _ ?_
    rw [not_ltU, toNat_zext imm (by decide)]
  case jump =>
    intro off s h
    change execJ off s = _
    rw [execJ, word_plain h, goTo_plain h]
    rfl
  case register =>
    intro ra s h h4
    rw [exec_jmpR h, poppedBad_eq_false h4]
    rfl
  case unaligned =>
    intro ra s h h4
    rw [exec_jmpR h, poppedBad_eq_true h4]
    rfl

/-! ### Calls and returns (R613, R614, R640 to R642) -/

section
variable {s : State} {ra : Reg}

theorem exec_call (off : BitVec 25) (h : Plain s) : exec (.call off) s = .next (callTo (s.core.pc + wordOff off) s) := by
  change execCall off s = _
  rw [execCall, word_plain h]

theorem exec_callR (h : Plain s) :
    exec (.callR ra) s = .next (if poppedBad (greg s ra) then alignAt (greg s ra) s else callTo (greg s ra) s) := by
  change execCallR ra s = _
  rw [execCallR, word_plain h]

theorem exec_ret (h : Plain s) : exec .ret s = .next (doRet s) := by
  change execRet s = _
  rw [execRet, word_plain h]

theorem exec_rfe (h : Plain s) : exec .rfe s = .next (doRfe s) := by
  change execRfe s = _
  rw [execRfe, word_plain h]

/-- R614: the hardware stack is full. -/
theorem callTo_overflow (a : Word) (hs : s.core.split = true) (hl : 64 ≤ s.core.hw.length) : callTo a s = stackFault false s := by
  simp [callTo, hs, hl]

theorem doRet_split {a : Word} {l : List HwEntry} (h : Plain s) (hs : s.core.split = true) (hw : s.core.hw = { ret := a, st := none } :: l)
    (h4 : a.toNat % 4 = 0) : doRet s = { s with core := { s.core with hw := l, pc := a } } := by
  simp [doRet, hs, hw, poppedBad_eq_false h4, goTo, updCore, Core.land, h.settled]

/-- R614: ret finds no return address on the hardware stack, or an entry of an exception. -/
theorem doRet_underflow (hs : s.core.split = true) (hw : ∀ a l, s.core.hw ≠ { ret := a, st := none } :: l) : doRet s = stackFault true s := by
  unfold doRet
  dsimp only
  rw [if_pos hs]
  split
  · next a l hl => exact absurd hl (hw a l)
  · rfl

theorem doRet_memory {a : Word} (h : Plain s) (hs : s.core.split = false) (hr : ReadsRam (s.core.get 15) .w s)
    (ha : unle (rdBytes s (s.core.get 15).toNat 4) = a.toNat) (h4 : a.toNat % 4 = 0) :
    doRet s = { s with core := { s.core.put 15 (s.core.get 15 + 4#32) with pc := a } } := by
  have hv : BitVec.ofNat 32 a.toNat = a := by simp
  simp [doRet, hs, coreRead_ram hr, sizeBytes, ha, poppedBad_eq_false h4, updCore, land_plain h]

/-- R642: what rfe restores of ST, no load waiting. -/
theorem restoreSt_settled {c : Core} (v : Word) (h : c.pendLoad = none) : restoreSt v c = c.setSt v := by
  simp [restoreSt, Core.land, Core.setSt, h]

theorem doRfe_split {a v : Word} {l : List HwEntry} (h : Plain s) (hm : s.core.mach = true) (hs : s.core.split = true)
    (hw : s.core.hw = { ret := a, st := some v } :: l) (h4 : a.toNat % 4 = 0) :
    doRfe s = updCore (fun c => { c.setSt v with hw := l, pc := a }) s := by
  simp [doRfe, hm, hs, hw, poppedBad_eq_false h4, updCore, restoreSt_settled v h.settled]

theorem doRfe_memory {a v : Word} (h : Plain s) (hm : s.core.mach = true) (hs : s.core.split = false) (hr : ReadsRam s.core.spm .w s)
    (hr2 : ReadsRam (s.core.spm + 4#32) .w s) (ha : unle (rdBytes s s.core.spm.toNat 4) = a.toNat)
    (hv : unle (rdBytes s (s.core.spm + 4#32).toNat 4) = v.toNat) (h4 : a.toNat % 4 = 0) :
    doRfe s = updCore (fun c => { c.setSt v with spm := s.core.spm + 8#32, pc := a }) s := by
  have h1 : coreRead true s.core.spm .w none s = .ok a.toNat s := by rw [← ha, ← hm]; exact coreRead_ram hr
  have h2 : coreRead true (s.core.spm + 4#32) .w none s = .ok v.toNat s := by rw [← hv, ← hm]; exact coreRead_ram hr2
  simp [doRfe, hm, hs, h1, h2, poppedBad_eq_false h4, updCore, restoreSt_settled v h.settled]

theorem doRfe_thread (hm : s.core.mach = false) :
    doRfe s = raiseExc { exc := 5, kind := none, slotb := some false, addr := s.core.pc } s.core.pc s := by
  simp [doRfe, hm, privFail, finish]

end

/-- Settles O53: a call pushes and a return pops one entry of the stack in force, the hardware stack or the memory at u15. -/
theorem callAndReturnRows : Obligations.CallAndReturnRows := by
  refine ⟨?call, ?callFull, ?callMemory, ?callR, ?callRMemory, ?callRUnaligned, ?ret, ?retEmpty, ?retEntry, ?retMemory, ?rfe, ?rfeMemory, ?rfeThread⟩
  case call =>
    intro off s h hs hl
    rw [exec_call off h, callTo_split h _ hs hl]
    rfl
  case callFull =>
    intro off s h hs hl
    rw [exec_call off h, callTo_overflow _ hs hl]
  case callMemory =>
    intro off s h hs hw
    rw [exec_call off h, callTo_memory h _ hs hw]
    rfl
  case callR =>
    intro ra s h h4 hs hl
    rw [exec_callR h, poppedBad_eq_false h4, callTo_split h _ hs hl]
    rfl
  case callRMemory =>
    intro ra s h h4 hs hw
    rw [exec_callR h, poppedBad_eq_false h4, callTo_memory h _ hs hw]
    rfl
  case callRUnaligned =>
    intro ra s h h4
    rw [exec_callR h, poppedBad_eq_true h4]
    rfl
  case ret =>
    intro a l s h hs hw h4
    rw [exec_ret h, doRet_split h hs hw h4]
  case retEmpty =>
    intro s h hs hw
    rw [exec_ret h, doRet_underflow hs (by simp [hw])]
  case retEntry =>
    intro a v l s h hs hw
    rw [exec_ret h, doRet_underflow hs (by simp [hw])]
  case retMemory =>
    intro a s h hs hr ha h4
    rw [exec_ret h, doRet_memory h hs hr ha h4]
  case rfe =>
    intro a v l s h hm hs hw h4
    rw [exec_rfe h, doRfe_split h hm hs hw h4]
    rfl
  case rfeMemory =>
    intro a v s h hm hs hr hr2 ha hv h4
    rw [exec_rfe h, doRfe_memory h hm hs hr hr2 ha hv h4]
    rfl
  case rfeThread =>
    intro s h hm
    rw [exec_rfe h, doRfe_thread hm]

end Sys2Proof.Machine

/-! The Talxa core's rows (chapters 20 and 21): exceptions and interrupts, the system registers, repeats, pairs and the load delay; the debug port. -/

namespace Sys2Proof.Machine

/-! ### Exceptions and interrupts (R613, R614, R617, R619 to R622, R642) -/

section
variable {s : State}

/-- No load waits, so an exception of the word is an entry through its vector. -/
theorem updCore_land (h : Plain s) : updCore Core.land s = s := by
  simp [updCore, land_plain h]

/-- R603: FADDR and FCAUSE of an exception with its KIND and SLOTB. -/
theorem record_access (exc k : Nat) (b under : Bool) (a : Word) (t : State) :
    record { exc := exc, kind := some k, slotb := some b, addr := a } under t =
      updCore (fun c => { c with faddr := a, fcause := BitVec.ofNat 8 (exc + 16 * k + 64 * b2n b + 128 * b2n under) }) t := rfl

theorem raiseExc_unrecorded (f : Fail) (ret : Word) (h : Plain s) (he : f.exc = 7 ∨ f.exc = 8) :
    raiseExc f ret s = enterOr f.exc none ret s := by
  rw [raiseExc, updCore_land h, if_pos he]

theorem raiseExc_recorded (f : Fail) (ret : Word) (h : Plain s) (h7 : f.exc ≠ 7) (h8 : f.exc ≠ 8) :
    raiseExc f ret s = enterOr f.exc none ret (record f false s) := by
  rw [raiseExc, updCore_land h, if_neg (by simp [h7, h8])]

theorem exec_syscall (h : Plain s) : exec .syscall s = .next (enterOr 7 none (s.core.pc + 4#32) s) := by
  change execSyscall s = _
  rw [execSyscall, word_plain h, raiseExc_unrecorded _ _ h (.inl rfl)]

theorem exec_break (h : Plain s) (hd : (decide (1 ≤ s.boot.debug) && s.core.debugHalt) = false) :
    exec .break_ s = .next (enterOr 8 none (s.core.pc + 4#32) s) := by
  change execBreak s = _
  rw [execBreak, word_plain h, hd, if_neg (by simp), raiseExc_unrecorded _ _ h (.inr rfl)]

/-- A debugger that holds the port open halts the core. -/
theorem exec_break_debug (h : Plain s) (hd : 1 ≤ s.boot.debug) (hh : s.core.debugHalt = true) :
    exec .break_ s = .next (updCore (fun c => { c with run := .halted }) (wentTo (s.core.pc + 4#32) s)) := by
  change execBreak s = _
  rw [execBreak, word_plain h, goTo_plain h, if_pos (by simp [hd, hh])]

theorem exec_wait (h : Plain s) :
    exec .wait_ s = .next (if enabledPends s then wentTo (s.core.pc + 4#32) s
      else updCore (fun c => { c with run := .waiting }) (wentTo (s.core.pc + 4#32) s)) := by
  change execWait s = _
  simp only [execWait, word_plain h, goTo_plain h]

theorem takeInterrupt_plain (n : Nat) (h : Plain s) :
    takeInterrupt n s = enterOr (16 + n) (some (BitVec.ofNat 4 ((at_ 0#3 s.core.ipri n).toNat + 1))) s.core.pc s := by
  simp only [takeInterrupt, updCore_land h]

theorem exec_interruptEntry_taken {n : Nat} (hr : s.core.run = .running) (hn : nextSource s = some n) :
    exec .interruptEntry s = .next (takeInterrupt n s) := by
  change execInterruptEntry s = _
  simp only [execInterruptEntry, hr, hn]

theorem exec_interruptEntry_none (hr : s.core.run = .running) (hn : nextSource s = none) : exec .interruptEntry s = .next s := by
  change execInterruptEntry s = _
  simp only [execInterruptEntry, hr, hn]

/-- No source qualifies while IE is clear. -/
theorem nextSource_disabled (h : s.core.ie = false) : nextSource s = none := by
  have hq (n : Nat) : qualifies s n = false := by simp [qualifies, h]
  have hfold (l : List Nat) (f : Nat → Option Nat → Option Nat) :
      l.foldl (fun b n => if !qualifies s n then b else f n b) none = none := by
    induction l with
    | nil => rfl
    | cons n l ih =>
      rw [List.foldl_cons, hq]
      exact ih
  unfold nextSource
  split
  · rfl
  · exact hfold _ fun n b => match b with
      | none => some n
      | some m => if (at_ 0#3 s.core.ipri m).toNat < (at_ 0#3 s.core.ipri n).toNat then some n else b

/-- R621: a core that waits goes on when an enabled source pends, and takes no interrupt while IE is clear. -/
theorem exec_interruptEntry_waiting (hr : s.core.run = .waiting) (he : enabledPends s = true) (hi : s.core.ie = false) :
    exec .interruptEntry s = .next (updCore (fun c => { c with run := .running }) s) := by
  have hw : awaken s = updCore (fun c => { c with run := .running }) s := by simp [awaken, hr, he]
  have hn : nextSource (updCore (fun c => { c with run := .running }) s) = none := nextSource_disabled hi
  change execInterruptEntry s = _
  simp only [execInterruptEntry, hr, he, hw, hn]
  rfl

/-- A write of an aligned word that the MPU allows at the given privilege. -/
theorem coreWrite_word_ram {m : Bool} {a : Word} (v : Word) (h4 : a.toNat % 4 = 0) (hm : mpuAllows s.core m 1 a.toNat = true)
    (hp : placeOf a.toNat = .ram) (hr : s.core.run = .running) : coreWrite m a .w v s = .ok 0 (wrBytes s a.toNat (le 4 v.toNat)) := by
  have hrun : ((wrBytes s a.toNat (le 4 v.toNat)).core.run == .held) = false := by rw [wrBytes_core, hr]; rfl
  simp only [coreWrite, misaligned_word_of_aligned h4, hm, busWrite, hp, sizeBytes, hrun]
  rfl

/-- The push to the stack in memory: ST first, the return address below it. -/
theorem entryPush_memory (ret : Word) (hs : s.core.split = false) (ha : s.core.spm.toNat % 4 = 0) (hr : s.core.run = .running)
    (h4 : mpuAllows s.core true 1 (s.core.spm - 4#32).toNat = true) (h8 : mpuAllows s.core true 1 (s.core.spm - 8#32).toNat = true)
    (p4 : placeOf (s.core.spm - 4#32).toNat = .ram) (p8 : placeOf (s.core.spm - 8#32).toNat = .ram) :
    entryPush ret s = .done (updCore (fun x => { x with spm := s.core.spm - 8#32 })
      (wrBytes (wrBytes s (s.core.spm - 4#32).toNat (le 4 s.core.st.toNat)) (s.core.spm - 8#32).toNat (le 4 ret.toNat))) := by
  have hfirst := coreWrite_word_ram (m := true) (a := s.core.spm - 4#32) s.core.st (by bv_omega) h4 p4 hr
  have hsecond := coreWrite_word_ram (s := wrBytes s (s.core.spm - 4#32).toNat (le 4 s.core.st.toNat)) (m := true) (a := s.core.spm - 8#32)
    ret (by bv_omega) h8 p8 hr
  simp only [entryPush, hs, ha, hfirst, hsecond]
  rfl

/-- RAM does not reach the end of the address space. -/
theorem lt_of_placeOf_ram {a : Nat} (h : placeOf a = .ram) : a < 0x30004000 := by
  unfold placeOf xipBase sharedBase at h
  repeat' split at h
  all_goals first | omega | cases h

/-- Octets beside a write read as before. -/
theorem rdBytes_wrBytes_outside (t : State) (h : MemWf t) (a b n : Nat) (l : List Byte) (hb : ∀ k < n, b + k < a ∨ a + l.length ≤ b + k) :
    rdBytes (wrBytes t a l) b n = rdBytes t b n := by
  induction n generalizing b with
  | zero => rfl
  | succ n ih =>
    have hhead : rdMem (wrBytes t a l) b = rdMem t b := rdMem_wrTab_outside a l h rfl (hb 0 (by omega))
    have htail := ih (b + 1) fun k hk => by
      have := hb (k + 1) (by omega)
      omega
    simp only [rdBytes, hhead, htail]

/-- R613, R619: an exception's entry with the stack in memory. -/
theorem enter_memory {n : Nat} {v : Word} (ret : Word) (hwf : MemWf s) (hs : s.core.split = false) (hr : s.core.run = .running)
    (hv : Vectored n v s) (ha : s.core.spm.toNat % 4 = 0)
    (h4 : mpuAllows s.core true 1 (s.core.spm - 4#32).toNat = true) (h8 : mpuAllows s.core true 1 (s.core.spm - 8#32).toNat = true)
    (p4 : placeOf (s.core.spm - 4#32).toNat = .ram) (p8 : placeOf (s.core.spm - 8#32).toNat = .ram)
    (hd : ∀ k < 4, (vectorAddr s n).toNat + k < (s.core.spm - 8#32).toNat ∨ (s.core.spm - 4#32).toNat + 4 ≤ (vectorAddr s n).toNat + k) :
    enter n none ret s = .done (
      let t := wrBytes (wrBytes s (s.core.spm - 4#32).toNat (le 4 s.core.st.toNat)) (s.core.spm - 8#32).toNat (le 4 ret.toNat)
      { t with core := { s.core with spm := s.core.spm - 8#32, mach := true, ie := false, ract := false, runi := false, pc := v,
                                     run := .running } }) := by
  have hlt := lt_of_placeOf_ram p8
  have hnext : (s.core.spm - 4#32).toNat = (s.core.spm - 8#32).toNat + 4 := by bv_omega
  have hread : rdBytes (wrBytes (wrBytes s (s.core.spm - 4#32).toNat (le 4 s.core.st.toNat)) (s.core.spm - 8#32).toNat (le 4 ret.toNat))
      (vectorAddr s n).toNat 4 = rdBytes s (vectorAddr s n).toNat 4 := by
    rw [rdBytes_wrBytes_outside _ (wrBytes_mem _ _ _ hwf), rdBytes_wrBytes_outside _ hwf]
    · intro k hk
      have := hd k hk
      rw [length_le]
      omega
    · intro k hk
      have := hd k hk
      rw [length_le]
      omega
  have hvec := coreRead_vector (t := updCore (fun x => { x with spm := s.core.spm - 8#32 })
    (wrBytes (wrBytes s (s.core.spm - 4#32).toNat (le 4 s.core.st.toNat)) (s.core.spm - 8#32).toNat (le 4 ret.toNat))) hv (fun _ _ => rfl) hread
  simp only [enter, entryPush_memory ret hs ha hr h4 h8 p4 p8, hvec, if_neg (vectored_legal hv)]
  simp [updCore, wrBytes_core]

end

/-- Settles O54: an exception or interrupt is an entry through its vector; break, wait and the waiting core change RUN alone. -/
theorem exceptionRows : Obligations.ExceptionRows := by
  refine ⟨?syscall, ?break_, ?breakDebug, ?recorded, ?syscallMemory, ?undefined_, ?interrupt, ?noInterrupt, ?wait, ?waitPending, ?awaken⟩
  case syscall =>
    intro v s h hs hl hv
    rw [exec_syscall h, enterOr_split none _ hs hl hv]
  case break_ =>
    intro v s h hs hl hv hd
    rw [exec_break h (by simp [hd]), enterOr_split none _ hs hl hv]
  case breakDebug =>
    intro s h hd hh
    rw [exec_break_debug h hd hh]
    rfl
  case recorded =>
    intro exc k b a v ret s h hs hl hv h7 h8
    let f : Fail := { exc := exc, kind := some k, slotb := some b, addr := a }
    rw [raiseExc_recorded f ret h h7 h8]
    exact enterOr_split (s := record f false s) none ret hs hl hv
  case syscallMemory =>
    intro v s h hwf hs hv ha h4 h8 p4 p8 hd
    rw [exec_syscall h, enterOr, enter_memory _ hwf hs h.running hv ha h4 h8 p4 p8 hd, ← h.running]
  case undefined_ =>
    intro w s h hw hb
    change execIllegalEncoding w s = _
    simp [execIllegalEncoding, hw, hb, word_plain h, finish]
  case interrupt =>
    intro n v s h hs hl hn hv
    rw [exec_interruptEntry_taken h.running hn, takeInterrupt_plain n h, enterOr_split _ _ hs hl hv]
  case noInterrupt => exact fun s hr hn => exec_interruptEntry_none hr hn
  case wait =>
    intro s h he
    rw [exec_wait h, if_neg (by simp [he])]
    rfl
  case waitPending =>
    intro s h he
    rw [exec_wait h, if_pos he]
  case awaken => exact fun s hr he hi => exec_interruptEntry_waiting hr he hi

end Sys2Proof.Machine

/-! The Talxa core's rows (chapters 20 and 21): the system registers, repeats, the load delay and pairs; the debug port (chapter 23). -/

namespace Sys2Proof.Machine

/-! ### System registers (R602, R603, R615, R643) -/

section
variable {s : State} {rd ra : Reg} {sr : BitVec 8} {v : Word}

theorem exec_mfs (h : Plain s) : exec (.mfs rd sr) s = .next (finish (doMfs rd sr.toNat s)) := by
  change execMfs rd sr s = _
  rw [execMfs, word_plain h]

theorem exec_mts (h : Plain s) : exec (.mts sr ra) s = .next (doMts sr.toNat (greg s ra) s) := by
  change execMts sr ra s = _
  rw [execMts, word_plain h]

/-- ST and RPC are read at either privilege. -/
theorem exec_mfs_open (h : Plain s) (hl : srListed sr.toNat = true) (ho : sr.toNat = 0 ∨ sr.toNat = 1) (hv : srRead s sr.toNat = (s, v)) :
    exec (.mfs rd sr) s = .next (wrote rd v s) := by
  have ho' : (sr.toNat == 0 || sr.toNat == 1 || sr.toNat == 8) = true := by rcases ho with ho | ho <;> rw [ho] <;> rfl
  have hdo : doMfs rd sr.toNat s = .work [(rd.toNat, v)] none s := by simp only [doMfs, hl, ho', hv, Bool.not_true, Bool.and_false]; rfl
  rw [exec_mfs h, hdo]
  exact congrArg _ (result_plain h rd v)

theorem exec_mfs_machine (h : Plain s) (hm : s.core.mach = true) (hl : srListed sr.toNat = true) (hv : srRead s sr.toNat = (s, v)) :
    exec (.mfs rd sr) s = .next (wrote rd v s) := by
  have hdo : doMfs rd sr.toNat s = .work [(rd.toNat, v)] none s := by simp only [doMfs, hl, hm, hv, Bool.not_true, Bool.false_and]; rfl
  rw [exec_mfs h, hdo]
  exact congrArg _ (result_plain h rd v)

theorem doMfs_thread (hm : s.core.mach = false) (hl : srListed sr.toNat = true) (h0 : sr.toNat ≠ 0) (h1 : sr.toNat ≠ 1) (h8 : sr.toNat ≠ 8) :
    doMfs rd sr.toNat s = privFail s := by
  simp [doMfs, hl, hm, h0, h1, h8]

theorem doMfs_unlisted (hl : srListed sr.toNat = false) : doMfs rd sr.toNat s = illegal s := by simp [doMfs, hl]

/-- A register that machine mode writes, or RPC at either privilege. -/
theorem doMts_register {n : Nat} (h : Plain s) (hl : srListed n = true) (hm : s.core.mach = true ∨ n = 1) (h0 : n ≠ 0) (h5 : ¬ (5 ≤ n ∧ n ≤ 7)) :
    doMts n v s = { s with core := { Core.srWrite n v s.core with pc := s.core.pc + 4#32 } } := by
  have hp : (!s.core.mach && n != 1) = false := by rcases hm with hm | hm <;> simp [hm]
  simp only [doMts, hl, hp, h0, h5, land_plain h, updCore]
  rfl

theorem exec_mts_machine (h : Plain s) (hm : s.core.mach = true) (hl : srListed sr.toNat = true) (h0 : sr.toNat ≠ 0)
    (h5 : ¬ (5 ≤ sr.toNat ∧ sr.toNat ≤ 7)) :
    exec (.mts sr ra) s = .next { s with core := { Core.srWrite sr.toNat (greg s ra) s.core with pc := s.core.pc + 4#32 } } := by
  rw [exec_mts h, doMts_register h hl (.inl hm) h0 h5]

/-- R615: machine mode leaves the split stack while the hardware stack is empty. -/
theorem doMts_unsplit (h : Plain s) (hm : s.core.mach = true) (hs : s.core.split = true) (hb : bit v 2 = false) (hp : s.pwr.mode ≠ .service)
    (hw : s.core.hw = []) :
    doMts 0 v s = { s with core := { s.core.setSt v with split := false, pc := s.core.pc + 4#32 } } := by
  have hland : (s.core.setSt v).land = s.core.setSt v := by simp [Core.land, Core.setSt, h.settled]
  simp [doMts, srListed, hm, hs, hb, hp, hw, updCore, hland]

theorem doMts_readOnly {n : Nat} (hm : s.core.mach = true) (h5 : 5 ≤ n) (h7 : n ≤ 7) : doMts n v s = finish (illegal s) := by
  have hl : srListed n = true := by simp only [srListed, decide_eq_true_eq]; omega
  simp [doMts, hl, hm, h5, h7]

theorem doMts_thread {n : Nat} (hm : s.core.mach = false) (hl : srListed n = true) (h1 : n ≠ 1) : doMts n v s = finish (privFail s) := by
  simp [doMts, hl, hm, h1]

end

/-- Settles O55: a listed register that the privilege permits is read or written as it is held; every other access is ILLEGAL or PRIV. -/
theorem systemRegisterRows : Obligations.SystemRegisterRows := by
  refine ⟨?st, ?rpc, ?vbase, ?spt, ?spm, ?faddr, ?fcause, ?depth, ?swi, ?readThread, ?readUnlisted, ?writeSt, ?writeStSplit, ?writeRpc, ?writeVbase,
    ?writeSpt, ?writeSpm, ?writeIen, ?writeSwi, ?writeMpuCtl, ?writeReadOnly, ?writeThread⟩
  case st => exact fun rd s h => exec_mfs_open h rfl (.inl rfl) rfl
  case rpc => exact fun rd s h => exec_mfs_open h rfl (.inr rfl) rfl
  case vbase => exact fun rd s h hm => exec_mfs_machine h hm rfl rfl
  case spt => exact fun rd s h hm => exec_mfs_machine h hm rfl rfl
  case spm => exact fun rd s h hm => exec_mfs_machine h hm rfl rfl
  case faddr => exact fun rd s h hm => exec_mfs_machine h hm rfl rfl
  case fcause => exact fun rd s h hm => exec_mfs_machine h hm rfl rfl
  case depth => exact fun rd s h hm => exec_mfs_machine h hm rfl rfl
  case swi => exact fun rd s h hm => exec_mfs_machine h hm rfl rfl
  case readThread =>
    intro rd sr s h hm hl h0 h1 h8
    rw [exec_mfs h, doMfs_thread hm hl h0 h1 h8]
    rfl
  case readUnlisted =>
    intro rd sr s h hl
    rw [exec_mfs h, doMfs_unlisted hl]
    rfl
  case writeSt =>
    intro ra s h hm hs
    rw [exec_mts_status ra h.running h.fetched hm hs]
    have hland : (s.core.setSt (greg s ra)).land = s.core.setSt (greg s ra) := by simp [Core.land, Core.setSt, h.settled]
    rw [updCore, hland]
    rfl
  case writeStSplit =>
    intro ra s h hm hs hb hp hw
    rw [exec_mts h]
    exact congrArg _ (doMts_unsplit h hm hs hb hp hw)
  case writeRpc =>
    intro ra s h
    rw [exec_mts h]
    exact congrArg _ (doMts_register h rfl (.inr rfl) (by decide) (by decide))
  case writeVbase => exact fun ra s h hm => exec_mts_machine h hm rfl (by decide) (by decide)
  case writeSpt => exact fun ra s h hm => exec_mts_machine h hm rfl (by decide) (by decide)
  case writeSpm => exact fun ra s h hm => exec_mts_machine h hm rfl (by decide) (by decide)
  case writeIen => exact fun ra s h hm => exec_mts_machine h hm rfl (by decide) (by decide)
  case writeSwi => exact fun ra s h hm => exec_mts_machine h hm rfl (by decide) (by decide)
  case writeMpuCtl => exact fun ra s h hm => exec_mts_machine h hm rfl (by decide) (by decide)
  case writeReadOnly =>
    intro sr ra s h hm h5 h7
    rw [exec_mts h, doMts_readOnly hm h5 h7]
    rfl
  case writeThread =>
    intro sr ra s h hm hl h1
    rw [exec_mts h, doMts_thread hm hl h1]
    rfl

/-! ### Repeats and the end of a word (R610, R611, R644) -/

section
variable {s : State} {k : RepCount} {w : Word}

theorem exec_repI (h : Plain s) : exec (.repI k) s = .next (doRep false k s) := by
  change execRepI k s = _
  rw [execRepI, word_plain h]

theorem exec_repU (h : Plain s) : exec (.repU k) s = .next (doRep true k s) := by
  change execRepU k s = _
  rw [execRepU, word_plain h]

/-- R611: a repeat instruction starts a repeat of the word that follows it. -/
theorem doRep_starts (uni : Bool) (h : Plain s) (hn : 0 < repCount s k) (hmax : repCount s k ≤ if uni then 64 else 256)
    (hw : peek s (s.core.pc + 4#32).toNat = some w) (hr : notRepeatable w = false) :
    doRep uni k s = { s with core := { s.core with ract := true, runi := uni, rpc := repCount s k, pc := s.core.pc + 4#32 } } := by
  simp only [doRep, if_neg (Nat.not_lt.2 hmax), hw, Option.map_some, Option.getD_some, hr, if_neg (Nat.ne_of_gt hn), updCore, land_plain h]
  rfl

/-- A count of 0 skips the word. -/
theorem doRep_skips (uni : Bool) (h : Plain s) (hn : repCount s k = 0) (hw : peek s (s.core.pc + 4#32).toNat = some w)
    (hr : notRepeatable w = false) : doRep uni k s = wentTo (s.core.pc + 8#32) s := by
  simp only [doRep, hn, Nat.not_lt_zero, hw, Option.map_some, Option.getD_some, hr, goTo_plain h]
  rfl

theorem doRep_beyond (uni : Bool) (hmax : (if uni then 64 else 256) < repCount s k) : doRep uni k s = finish (illegal s) := by
  simp [doRep, hmax]

theorem doRep_unrepeatable (uni : Bool) (hmax : repCount s k ≤ if uni then 64 else 256) (hw : peek s (s.core.pc + 4#32).toNat = some w)
    (hr : notRepeatable w = true) : doRep uni k s = finish (illegal s) := by
  simp only [doRep, if_neg (Nat.not_lt.2 hmax), hw, Option.map_some, Option.getD_some, hr]
  rfl

theorem put_pc (c : Core) (r : Nat) (v : Word) : (c.put r v).pc = c.pc := by
  unfold Core.put
  split
  · split <;> rfl
  · rfl

theorem put_setPendLoad (c : Core) (l : Option (Nat × Word)) (r : Nat) (v : Word) :
    ({ c with pendLoad := l } : Core).put r v = { c.put r v with pendLoad := l } := by
  unfold Core.put
  split
  · dsimp only
    split <;> rfl
  · rfl

/-- A later write of a register supersedes an earlier one. -/
theorem put_put {c : Core} {r : Nat} (v x : Word) (h : r ≠ 15) : (c.put r v).put r x = c.put r x := by
  simp only [put_of_ne _ h, List.set_set]

theorem land_settled {c : Core} (h : c.pendLoad = none) : c.land = c := by simp [Core.land, h]

theorem land_load {c : Core} {r : Nat} {v : Word} (h : c.pendLoad = some (r, v)) : c.land = { c.put r v with pendLoad := none } := by
  simp [Core.land, h]

/-- The end of a repeated word that runs again. -/
theorem endWord_again {c : Core} (ws : List (Nat × Word)) (l : Option (Nat × Word)) (h : c.ract = true) (hr : 1 < c.rpc) :
    Core.endWord ws l c = { ws.foldl (fun a x => a.put x.1 x.2) c.land with pendLoad := l, rpc := c.rpc - 1, pc := c.pc } := by
  simp [Core.endWord, Core.advance, h, Nat.not_le.2 hr]

theorem endWord_last {c : Core} (ws : List (Nat × Word)) (l : Option (Nat × Word)) (h : c.ract = true) (hr : c.rpc ≤ 1) :
    Core.endWord ws l c = { ws.foldl (fun a x => a.put x.1 x.2) c.land with
      pendLoad := l, ract := false, runi := false, rpc := 0, pc := c.pc + 4#32 } := by
  simp [Core.endWord, Core.advance, h, hr]

end

/-! ### Pairs (R607, R608, R635, R637) -/

section
variable {a b : Short} {s : State} {k : Bool}

/-- The slot is a register operation. -/
abbrev SlotRegister (x : Short) : Prop := x.op.toNat ≠ 0 ∧ slotLoads x = false ∧ slotStores x = false

theorem slotWork_register {x : Short} (h : SlotRegister x) :
    slotWork k x s = .work [(x.rd.toNat, slotValue x (greg s x.rd) (greg s x.rs))] none s := by
  obtain ⟨h0, hl, hs⟩ := h
  simp [slotWork, h0, hl, hs]

theorem slotWrites_register {x : Short} (h : SlotRegister x) : slotWrites x = [x.rd] := by
  obtain ⟨h0, hl, hs⟩ := h
  have hop : x.op ≠ 0#5 := fun h => h0 (by simp [h])
  simp [slotWrites, hop, hl, hs]

theorem pairFault_registers (ha : SlotRegister a) (hb : SlotRegister b) (hua : slotUndefined a = false) (hub : slotUndefined b = false)
    (hne : a.rd ≠ b.rd) : pairFault a b = none := by
  have hclash : pairClash a b = false := by simp [pairClash, slotWrites_register ha, slotWrites_register hb, hne, slotMem, ha.2]
  simp [pairFault, hua, hub, hclash]

/-- Both slots read before either writes. -/
theorem exec_pairWord_registers (h : Plain s) (ha : SlotRegister a) (hb : SlotRegister b) (hua : slotUndefined a = false)
    (hub : slotUndefined b = false) (hne : a.rd ≠ b.rd) :
    exec (.pairWord a b) s = .next { s with core :=
      { (s.core.put a.rd.toNat (slotValue a (greg s a.rd) (greg s a.rs))).put b.rd.toNat (slotValue b (greg s b.rd) (greg s b.rs)) with
        pc := s.core.pc + 4#32 } } := by
  have hwork : pairWork a b s = .work [(a.rd.toNat, slotValue a (greg s a.rd) (greg s a.rs)), (b.rd.toNat, slotValue b (greg s b.rd) (greg s b.rs))]
      none s := by simp [pairWork, slotWork_register ha, slotWork_register hb]
  rw [exec_pairWord_work h (pairFault_registers ha hb hua hub hne), hwork, finish_work h]
  simp [put_pendLoad, h.settled]

theorem pairFault_nop_left (hb : slotUndefined b = false) : pairFault nopSlot b = none := by
  have hclash : pairClash nopSlot b = false := by simp [pairClash, slotWrites, slotMem, slotLoads, slotStores]
  have hnop : slotUndefined nopSlot = false := rfl
  simp [pairFault, hb, hclash, hnop]

theorem pairWork_nop_left : pairWork nopSlot b s = slotWork true b s := by
  have hnop : slotWork false nopSlot s = .work [] none s := rfl
  rw [pairWork, hnop]
  dsimp only
  cases slotWork true b s <;> simp

theorem pairWork_load_nop {ws : List (Nat × Word)} {l : Nat × Word} {t : State} (ha : slotWork false a s = .work ws (some l) t) :
    pairWork a nopSlot s = .work ws (some l) t := by
  have hnop : slotWork true nopSlot t = .work [] none t := rfl
  rw [pairWork, ha]
  dsimp only
  rw [hnop]
  simp

theorem loadAt_ram {op : Nat} {rd : Reg} {x : Word} (ws : List (Nat × Word)) (hr : ReadsRam x (opSize op) s) :
    loadAt k op rd x ws s = .work ws (some (rd.toNat, extend op (unle (rdBytes s x.toNat (sizeBytes (opSize op)))))) s := by
  rw [loadAt, coreRead_ram hr]

end

/-- Settles O56: a repeat instruction starts, skips or is refused a repeat; a word's end lands the load before it and counts the repeat; the slots of a pair
work on the registers of the word's start. -/
theorem pairsRepeatsAndDelays : Obligations.PairsRepeatsAndDelays := by
  refine ⟨?repI, ?repU, ?skip, ?beyond, ?unrepeatable, ?again, ?last, ?lands, ?superseded, ?nops, ?moves, ?sums, ?load, ?store, ?fault⟩
  case repI =>
    intro f w s h hw hr
    have hmax : repCount s (.imm f) ≤ 256 := f.isLt
    rw [exec_repI h, doRep_starts (k := .imm f) false h (Nat.succ_pos f.toNat) hmax hw hr]
    rfl
  case repU =>
    intro f w s h hf hw hr
    have hmax : repCount s (.imm f) ≤ 64 := Nat.succ_le_succ hf
    rw [exec_repU h, doRep_starts (k := .imm f) true h (Nat.succ_pos f.toNat) hmax hw hr]
    rfl
  case skip =>
    intro ra w s h h0 hw hr
    rw [exec_repI h, doRep_skips false h (by simp [repCount, h0]) hw hr]
  case beyond =>
    intro ra s h hn
    rw [exec_repU h, doRep_beyond (k := .reg ra) true hn]
    rfl
  case unrepeatable =>
    intro f w s h hw hr
    have hmax : repCount s (.imm f) ≤ 256 := f.isLt
    rw [exec_repI h, doRep_unrepeatable false hmax hw hr]
    rfl
  case again =>
    intro rd ra rb s hr hf hp ha hn
    rw [exec_add rd ra rb hr hf, updCore, endWord_again _ _ ha hn, land_settled hp]
    simp [put_pc, put_pendLoad, hp]
  case last =>
    intro rd ra rb s hr hf hp ha hn
    rw [exec_add rd ra rb hr hf, updCore, endWord_last _ _ ha hn, land_settled hp]
    simp [put_pendLoad, hp]
  case lands =>
    intro rd ra rb r v s hr hf hp ha
    rw [exec_add rd ra rb hr hf, updCore, endWord_once _ _ ha, land_load hp, List.foldl_cons, List.foldl_nil, put_setPendLoad]
  case superseded =>
    intro rd ra rb v s hr hf hp ha hrd
    rw [exec_add rd ra rb hr hf, updCore, endWord_once _ _ ha, land_load hp, List.foldl_cons, List.foldl_nil, put_setPendLoad,
      put_put _ _ (Nat.ne_of_lt hrd)]
  case nops =>
    intro s h
    rw [exec_pairWord_work h rfl]
    have hwork : pairWork nopSlot nopSlot s = .work [] none s := rfl
    rw [hwork, finish_work h]
    simp [wentTo, h.settled]
  case moves =>
    intro a b c d s h hne
    exact exec_pairWord_registers (a := { op := 1, rd := a, rs := b, md := 0 }) (b := { op := 1, rd := c, rs := d, md := 0 }) h
      ⟨by simp, rfl, rfl⟩ ⟨by simp, rfl, rfl⟩ rfl rfl hne
  case sums =>
    intro a b c d s h hne
    exact exec_pairWord_registers (a := { op := 2, rd := a, rs := b, md := 0 }) (b := { op := 3, rd := c, rs := d, md := 0 }) h
      ⟨by simp, rfl, rfl⟩ ⟨by simp, rfl, rfl⟩ rfl rfl hne
  case load =>
    intro a b s h hne hr
    let x : Short := { op := 19, rd := a, rs := b, md := 1 }
    have hslot : slotWork false x s = .work [(b.toNat, greg s b + 4#32)]
        (some (a.toNat, BitVec.ofNat 32 (unle (rdBytes s (greg s b).toNat 4)))) s := (slotWork_load rfl).trans (loadAt_ram (op := 19) _ hr)
    rw [exec_pairWord_work h (pairFault_nop_right (slotUndefined_load (x := x) rfl (by simp [x]) hne)), pairWork_load_nop hslot, finish_work h]
    rfl
  case store =>
    intro a b s h hw
    let x : Short := { op := 24, rd := a, rs := b, md := 2 }
    have hslot : slotWork true x s = .work [(a.toNat, greg s a - 4#32)] none (wrBytes s (greg s a - 4#32).toNat (le 4 (greg s b).toNat)) :=
      (slotWork_store rfl).trans (storeAt_ram (op := 24) _ _ h hw)
    rw [exec_pairWord_work h (pairFault_nop_left (slotUndefined_store (x := x) rfl (by simp [x]))), pairWork_nop_left, hslot,
      finish_work (plain_wrBytes _ _ h)]
    simp [wrBytes_core, put_pendLoad, h.settled]
  case fault => exact fun a b f s h hf => exec_pairWord_fault h hf

/-! ### The debug port (R71, R685) -/

section
variable {s : State}

/-- R71: at debug level 0 the port opens to nothing. -/
theorem exec_debugPortAccess_closed (a : DebugAccess) (hd : s.boot.debug = 0) :
    exec (.debugPortAccess a) s = .next (updCore (fun c => { c with debugRead := 0 }) s) := by
  change execDebugPortAccess a s = _
  rw [execDebugPortAccess, if_pos hd]

theorem exec_debugPortAccess_open (a : DebugAccess) (hd : s.boot.debug ≠ 0) : exec (.debugPortAccess a) s = .next (debugServe a s) := by
  change execDebugPortAccess a s = _
  rw [execDebugPortAccess, if_neg hd]

theorem debugServe_halt (hr : s.core.run = .running) :
    debugServe .halt s = updCore (fun c => { c with run := .halted, debugHalt := true, debugRead := 0 }) s := by
  simp [debugServe, updCore, hr]

theorem debugServe_resume (hr : s.core.run = .halted) :
    debugServe .resume s = updCore (fun c => { c with run := .running, debugHalt := true, debugRead := 0 }) s := by
  simp [debugServe, updCore, hr]

/-- A word of RAM is read as it stands. -/
theorem debugServe_readMem {a : Word} (h4 : a.toNat % 4 = 0) (hp : placeOf a.toNat = .ram) :
    debugServe (.readMem a) s =
      updCore (fun c => { c with debugHalt := true, debugRead := BitVec.ofNat 32 (unle (rdBytes s a.toNat 4)) }) s := by
  have hlt := lt_of_placeOf_ram hp
  have hport : decide (0x48000000 ≤ a.toNat ∧ a.toNat < 0x48002000) = false := by
    rw [decide_eq_false_iff_not]
    omega
  simp only [debugServe, misaligned_word_of_aligned h4, hport, busRead_ram (.inl hp), sizeBytes]
  rfl

theorem debugServe_writeMem_misaligned {a : Word} (v : Word) (hal : misaligned a.toNat .w = true) :
    debugServe (.writeMem a v) s = updCore (fun c => { c with debugHalt := true, debugRead := 0 }) s := by
  simp [debugServe, hal]

end

/-- Settles O48: the level closes the port, and an open port serves each access in its own way. -/
theorem debugPortSteps : Obligations.DebugPortSteps := by
  refine ⟨?closed, ?halt, ?resume, ?coreReset, ?readReg, ?writeReg, ?readMem, ?writeMem⟩
  case closed => exact fun a s hd => exec_debugPortAccess_closed a hd
  case halt =>
    intro s hd hr
    rw [exec_debugPortAccess_open _ hd, debugServe_halt hr]
    rfl
  case resume =>
    intro s hd hr
    rw [exec_debugPortAccess_open _ hd, debugServe_resume hr]
    rfl
  case coreReset => exact fun s hd => exec_debugPortAccess_open .coreReset hd
  case readReg => exact fun r s hd => exec_debugPortAccess_open (.readReg r) hd
  case writeReg => exact fun r v s hd => exec_debugPortAccess_open (.writeReg r v) hd
  case readMem =>
    intro a s hd h4 hp
    rw [exec_debugPortAccess_open _ hd, debugServe_readMem h4 hp]
    rfl
  case writeMem =>
    intro a v s hd hal
    rw [exec_debugPortAccess_open _ hd, debugServe_writeMem_misaligned v hal]
    rfl

end Sys2Proof.Machine

/-! ### Requests with an OK answer and no change (R53, R287)

What a row that serves a reporting request needs, cut down to its core: the payload's size, and the answer of the core on a payload that passes. -/

namespace Sys2Proof.Machine

/-- The payload size of a row of the command table with one size only. -/
theorem fix_ok {n : Nat} {p : List Byte} (h : p.length = n) (hn : n ≤ 240) : (LenRule.fix n).ok p.length p = true ∧ p.length ≤ 240 := by
  subst h
  exact ⟨by simp [LenRule.ok, LenRule.fix], hn⟩

/-- The same for a row of the table that is cut off at the 232 octets that an authenticated request may have. -/
theorem fix_ok_auth {n : Nat} {p : List Byte} (h : p.length = n) (hn : n ≤ 232) : (LenRule.fix n).ok p.length p = true ∧ p.length ≤ 232 := by
  subst h
  exact ⟨by simp [LenRule.ok, LenRule.fix], hn⟩

/-- A payload whose size the row of the table takes from a field of it. -/
theorem counted_ok {lo hi base mul off w : Nat} {p : List Byte} (h : p.length = base + mul * unle (slice p off w)) (hlo : lo ≤ p.length) (hhi : p.length ≤ hi) :
    (⟨lo, hi, base, mul, off, w⟩ : LenRule).ok p.length p = true := by
  simp [LenRule.ok, hlo, hhi]
  omega

/-- A reporting request without a payload. -/
theorem reports_bare {i : Srv → Instr} {op : Nat} {core : CoreFn} {body : List Byte → State → List Byte}
    (hi : ∀ v s, exec (i v) s = .next (serve op core v s)) (hc : cmdOf op = some (getC op 0)) (hb : ∀ c p s, core c p s = okR s (body p s)) :
    Reports i op (fun p _ => p.length = 0) body :=
  reports_of (getC op 0) hi hc (fun _ _ h => fix_ok h (by decide)) rfl rfl (fun _ _ h => h) fun v p s _ => hb (ctxOf op v s) p (taken s)

/-- A reporting request with a payload of `n` octets, `op` being one whose checks do not look at who asks. -/
theorem reports_checked {i : Srv → Instr} {op : Nat} {core : CoreFn} {ok : List Byte → State → Prop} {body : List Byte → State → List Byte} (n : Nat)
    (hi : ∀ v s, exec (i v) s = .next (serve op core v s)) (hc : cmdOf op = some (getC op n)) (hn : n ≤ 240)
    (hl : ∀ p s, ok p s → p.length = n) (hk : ∀ p s, ok p s → ok p (taken s))
    (hb : ∀ v p s t, ok p t → core (ctxOf op v s) p t = okR t (body p t)) : Reports i op ok body :=
  reports_of (getC op n) hi hc (fun p s h => fix_ok (hl p s h) hn) rfl rfl hk fun v p s h => hb v p s (taken s) h

section
variable {i : Srv → Instr} {op : Nat} {core : CoreFn}

/-- A reporting request with a payload of four octets. -/
theorem reports_four {q : List Byte → State → Prop} {body : List Byte → State → List Byte}
    (hi : ∀ v s, exec (i v) s = .next (serve op core v s)) (hc : cmdOf op = some (getC op 4)) (hk : ∀ p s, q p s → q p (taken s))
    (hb : ∀ v p s t, q p t → core (ctxOf op v s) p t = okR t (body p t)) : Reports i op (fun p s => p.length = 4 ∧ q p s) body :=
  reports_checked 4 hi hc (by decide) (fun _ _ h => h.1) (fun p s h => ⟨h.1, hk p s h.2⟩) fun v p s t h => hb v p s t h.2

/-- A request of four octets that reports and clears, its checks being those of the list. -/
theorem clears_four {q : List Byte → State → Prop} {k : Nat} {clear : List Byte → State → State} {body : List Byte → State → List Byte}
    (hi : ∀ v s, exec (i v) s = .next (serve op core v s)) (hc : cmdOf op = some (getC op 4)) (hk : ∀ p s, q p s → q p (taken s))
    (hb : ∀ c p t, q p t → core c p t = okR (if u8 p k = 1 then clear p t else t) (body p t)) :
    Clears i op (fun p s => p.length = 4 ∧ q p s) k clear body :=
  clears_of (getC op 4) hi hc (fun _ _ h => fix_ok h.1 (by decide)) rfl rfl (fun p s h => ⟨h.1, hk p s h.2⟩) fun v p s h => hb _ p _ h.2

/-- A request whose first octet says whether the counters it reports are cleared. -/
theorem clears_flag {clear : List Byte → State → State} {body : List Byte → State → List Byte}
    (hi : ∀ v s, exec (i v) s = .next (serve op core v s)) (hc : cmdOf op = some (getC op 4))
    (hcore : ∀ c p t, core c p t = guardR t [(decide (u8 p 0 ≤ 1), 0), rsv p 1 3] fun _ => okR (if u8 p 0 = 1 then clear p t else t) (body p t)) :
    Clears i op (fun p _ => p.length = 4 ∧ u8 p 0 ≤ 1 ∧ zeros p 1 3) 0 clear body :=
  clears_four hi hc (fun _ _ h => h) fun c p t h => by
    obtain ⟨hflag, hrsv⟩ := h
    rw [hcore, guardR_pass _ (by simp [hflag, rsv, hrsv])]
end

/-- Settles O10: every core of the list answers its record once its checks pass. -/
theorem reportsOfSystemAndRadio : Obligations.ReportsOfSystemAndRadio := by
  refine ⟨?info, ?caps, ?mode, ?option, ?counter, ?filter, ?shot, ?radio, ?tune, ?pa, ?comp, ?div, ?ext⟩
  case info => exact reports_bare (fun _ _ => rfl) rfl (fun _ _ _ => rfl)
  case caps => exact reports_bare (fun _ _ => rfl) rfl (fun _ _ _ => rfl)
  case mode => exact reports_bare (fun _ _ => rfl) rfl (fun _ _ _ => rfl)
  case option =>
    refine reports_four (fun _ _ => rfl) rfl (fun _ _ h => h) ?_
    rintro v p s t ⟨hlo, hhi, hend⟩
    have hstart : u16 p 0 < 4096 := by omega
    simp only [optionRead]
    rw [guardR_pass _ (by simp [hstart, hlo, hhi, hend])]
  case counter => exact reports_bare (fun _ _ => rfl) rfl (fun _ _ _ => rfl)
  case filter =>
    refine reports_four (fun _ _ => rfl) rfl (fun _ _ h => h) ?_
    rintro v p s t ⟨hchan, hrsv⟩
    exact guardR_pass _ (by simp [hchan, rsv, hrsv])
  case shot => exact reports_bare (fun _ _ => rfl) rfl (fun _ _ _ => rfl)
  case radio => exact reports_bare (fun _ _ => rfl) rfl (fun _ _ _ => rfl)
  case tune => exact reports_bare (fun _ _ => rfl) rfl (fun _ _ _ => rfl)
  case pa => exact reports_bare (fun _ _ => rfl) rfl (fun _ _ _ => rfl)
  case comp => exact reports_bare (fun _ _ => rfl) rfl (fun _ _ _ => rfl)
  case div => exact reports_bare (fun _ _ => rfl) rfl (fun _ _ _ => rfl)
  case ext => exact reports_bare (fun _ _ => rfl) rfl (fun _ _ _ => rfl)

/-- Settles O11: as O10; a lane that is asked for is one of the device's. -/
theorem reportsOfLanesAndCanary : Obligations.ReportsOfLanesAndCanary := by
  refine ⟨?lanes, ?lane, ?profile, ?quality, ?canary, ?canaryCfg⟩
  case lanes => exact reports_bare (fun _ _ => rfl) rfl (fun _ _ _ => rfl)
  case lane =>
    refine reports_four (fun _ _ => rfl) rfl (fun _ _ h => h) ?_
    rintro v p s t ⟨hlane, hrsv⟩
    exact guardR_pass _ (by simp [lanePresent, hlane, rsv, hrsv])
  case profile =>
    refine reports_four (fun _ _ => rfl) rfl (fun _ _ h => h) ?_
    rintro v p s t ⟨hprofile, hrsv⟩
    exact guardR_pass _ (by simp [hprofile, rsv, hrsv])
  case quality =>
    refine reports_four (fun _ _ => rfl) rfl (fun _ _ h => h) ?_
    rintro v p s t ⟨hlane, hlo, hhi, hrsv⟩
    exact guardR_pass _ (by simp [lanePresent, hlane, hlo, hhi, rsv, hrsv])
  case canary => exact reports_bare (fun _ _ => rfl) rfl (fun _ _ _ => rfl)
  case canaryCfg => exact reports_bare (fun _ _ => rfl) rfl (fun _ _ _ => rfl)

/-- Settles O12: as O10; the checks of a row and the choice of a route are those of the core itself. -/
theorem reportsOfLinkAndTiming : Obligations.ReportsOfLinkAndTiming := by
  refine ⟨?link, ?linkCfg, ?nbr, ?find, ?route, ?lookup, ?timing, ?timingCfg, ?chseq, ?timingNbr⟩
  case link => exact reports_bare (fun _ _ => rfl) rfl (fun _ _ _ => rfl)
  case linkCfg => exact reports_bare (fun _ _ => rfl) rfl (fun _ _ _ => rfl)
  case nbr =>
    refine reports_four (fun _ _ => rfl) rfl (fun _ _ h => h) ?_
    rintro v p s t ⟨hindex, hlo, hhi, hrsv⟩
    simp only [nbrGet]
    rw [guardR_pass _ (by simp [hindex, hlo, hhi, rsv, hrsv])]
  case find =>
    refine reports_checked 12 (fun _ _ => rfl) rfl (by decide) (fun _ _ h => h.1) (fun _ _ h => h) ?_
    rintro v p s t ⟨-, hkind, hrsv, haddr⟩
    have haddr' : (u8 p 0 == 1 || (decide (u32 p 4 < 2 ^ 25) && zeros p 8 4)) = true := by simpa using haddr
    have hpass : Pass [(decide (u8 p 0 ≤ 1), 0), rsv p 1 3, (u8 p 0 == 1 || (decide (u32 p 4 < 2 ^ 25) && zeros p 8 4), 4)] := by
      simp only [List.forall_mem_cons, List.not_mem_nil, rsv]
      exact ⟨decide_eq_true hkind, hrsv, haddr', by simp⟩
    simp only [nbrFind]
    rw [guardR_pass _ hpass]
    simp only [beq_iff_eq]
  case route =>
    refine reports_four (fun _ _ => rfl) rfl (fun _ _ h => h) ?_
    rintro v p s t ⟨hindex, hrsv⟩
    have hindex' : (u16 p 0 == 0xFFFF || decide (u16 p 0 < Config.routeRanges t.dev.variant)) = true := by simpa using hindex
    exact guardR_pass _ (by simp [hindex', rsv, hrsv])
  case lookup =>
    refine reports_four (fun _ _ => rfl) rfl (fun _ _ h => h) ?_
    intro v p s t haddr
    exact guardR_pass _ (by simpa using haddr)
  case timing => exact reports_bare (fun _ _ => rfl) rfl (fun _ _ _ => rfl)
  case timingCfg => exact reports_bare (fun _ _ => rfl) rfl (fun _ _ _ => rfl)
  case chseq =>
    refine reports_four (fun _ _ => rfl) rfl (fun _ _ h => h) ?_
    rintro v p s t ⟨hlo, hhi, hrsv⟩
    exact guardR_pass _ (by simp [hlo, hhi, rsv, hrsv])
  case timingNbr =>
    refine reports_four (fun _ _ => rfl) rfl (fun _ _ h => h) ?_
    rintro v p s t ⟨hindex, hrsv⟩
    exact guardR_pass _ (by simp [hindex, rsv, hrsv])

/-- Settles O13: as O10. -/
theorem reportsOfTallyQueuesAndScheduler : Obligations.ReportsOfTallyQueuesAndScheduler := by
  refine ⟨?cfg, ?band, ?usage, ?check, ?qm, ?queue, ?status, ?qmCfg, ?sched, ?flow, ?flowState, ?shaper⟩
  case cfg => exact reports_bare (fun _ _ => rfl) rfl (fun _ _ _ => rfl)
  case band =>
    refine reports_four (fun _ _ => rfl) rfl (fun _ _ h => h) ?_
    rintro v p s t ⟨hband, hrsv⟩
    exact guardR_pass _ (by simp [hband, rsv, hrsv])
  case usage =>
    refine reports_four (fun _ _ => rfl) rfl (fun _ _ h => h) ?_
    rintro v p s t ⟨hband, hrsv⟩
    exact guardR_pass _ (by simp [hband, rsv, hrsv])
  case check =>
    refine reports_checked 12 (fun _ _ => rfl) rfl (by decide) (fun _ _ h => h.1) (fun _ _ h => h) ?_
    rintro v p s t ⟨-, hack, hrsv⟩
    exact guardR_pass _ (by simp [hack, rsv, hrsv])
  case qm => exact reports_bare (fun _ _ => rfl) rfl (fun _ _ _ => rfl)
  case queue =>
    refine reports_four (fun _ _ => rfl) rfl (fun _ _ h => h) ?_
    rintro v p s t ⟨hqueue, hrsv⟩
    exact guardR_pass _ (by simp [hqueue, rsv, hrsv])
  case status =>
    refine reports_four (fun _ _ => rfl) rfl (fun _ _ h => h) ?_
    rintro v p s t ⟨hqueue, hrsv⟩
    exact guardR_pass _ (by simp [hqueue, rsv, hrsv])
  case qmCfg => exact reports_bare (fun _ _ => rfl) rfl (fun _ _ _ => rfl)
  case sched => exact reports_bare (fun _ _ => rfl) rfl (fun _ _ _ => rfl)
  case flow =>
    refine reports_four (fun _ _ => rfl) rfl (fun _ _ h => h) ?_
    rintro v p s t ⟨hflow, hrsv⟩
    exact guardR_pass _ (by simp [hflow, rsv, hrsv])
  case flowState =>
    refine reports_four (fun _ _ => rfl) rfl (fun _ _ h => h) ?_
    rintro v p s t ⟨hflow, hrsv⟩
    exact guardR_pass _ (by simp [hflow, rsv, hrsv])
  case shaper =>
    refine reports_four (fun _ _ => rfl) rfl (fun _ _ h => h) ?_
    rintro v p s t ⟨hshaper, hrsv⟩
    exact guardR_pass _ (by simp [hshaper, rsv, hrsv])

/-- No requester of a channel finds the lock of the port in its way while neither the application core nor the field holds it (R591). -/
theorem portHeld_free (c : Ctx) {t : State} (happ : t.port.lock ≠ .app) (hfield : t.port.lock ≠ .field) : portHeld t c = false := by
  simp [portHeld, happ, hfield]

/-- Settles O14: as O10; the port's areas stand behind its lock as well. -/
theorem reportsOfStoreAndPort : Obligations.ReportsOfStoreAndPort := by
  refine ⟨?cipher, ?key, ?pwr, ?flash, ?block, ?update, ?rtc, ?time, ?alarm, ?portCfg, ?pw, ?mem, ?cred⟩
  case cipher => exact reports_bare (fun _ _ => rfl) rfl (fun _ _ _ => rfl)
  case key =>
    refine reports_four (fun _ _ => rfl) rfl (fun _ _ h => h) ?_
    rintro v p s t ⟨hslot, hlo, hhi, hend, hrsv⟩
    exact guardR_pass _ (by simp [hslot, hlo, hhi, hend, rsv, hrsv])
  case pwr => exact reports_bare (fun _ _ => rfl) rfl (fun _ _ _ => rfl)
  case flash => exact reports_bare (fun _ _ => rfl) rfl (fun _ _ _ => rfl)
  case block =>
    refine reports_four (fun _ _ => rfl) rfl (fun _ _ h => h) ?_
    rintro v p s t ⟨hlo, hhi, hend, hrsv⟩
    simp only [flashBlockGet]
    rw [guardR_pass _ (by simp [hlo, hhi, hend, rsv, hrsv])]
  case update => exact reports_bare (fun _ _ => rfl) rfl (fun _ _ _ => rfl)
  case rtc => exact reports_bare (fun _ _ => rfl) rfl (fun _ _ _ => rfl)
  case time => exact reports_bare (fun _ _ => rfl) rfl (fun _ _ _ => rfl)
  case alarm =>
    refine reports_four (fun _ _ => rfl) rfl (fun _ _ h => h) ?_
    rintro v p s t ⟨halarm, hrsv⟩
    exact guardR_pass _ (by simp [halarm, rsv, hrsv])
  case portCfg =>
    refine reports_checked 0 (fun _ _ => rfl) rfl (by decide) (fun _ _ h => h.1) (fun _ _ h => h) ?_
    rintro v p s t ⟨-, happ, hfield⟩
    simp [portCfgGet, systemArea, guardR, firstBad, portHeld_free _ happ hfield]
  case pw =>
    refine reports_four (fun _ _ => rfl) rfl (fun _ _ h => h) ?_
    rintro v p s t ⟨hpw, hrsv, happ, hfield⟩
    rw [portPwGet, systemArea, guardR_pass _ (by simp [hpw, rsv, hrsv]), portHeld_free _ happ hfield]
    rfl
  case mem =>
    refine reports_four (fun _ _ => rfl) rfl (fun _ _ h => h) ?_
    rintro v p s t ⟨hfirst, hlo, hhi, hend, hrsv, hgrant, happ, hfield⟩
    have hreq : (ctxOf 0x0E10 v s).req ≠ .port := chanOwner_ne_port s v.ch
    rw [portMemRead, if_neg hreq, wireSide, guardR_pass _ (by simp [memRange, hfirst, hlo, hhi, hend, rsv, hrsv]), portHeld_free _ happ hfield]
    simp [hgrant]
  case cred =>
    refine reports_checked 0 (fun _ _ => rfl) rfl (by decide) (fun _ _ h => h.1) (fun _ _ h => h) ?_
    rintro v p s t ⟨-, hgrant, happ, hfield⟩
    rw [portCredGet, wireSide, guardR_pass _ (by simp), portHeld_free _ happ hfield]
    simp [hgrant]

/-- Settles O15: most of the cores look at one octet that asks for the clearing; those of a lane and of a band look at its number before. -/
theorem countersReadAndClear : Obligations.CountersReadAndClear := by
  refine ⟨?radio, ?lane, ?phy, ?canary, ?link, ?timing, ?band, ?node, ?qm, ?sched, ?cipher, ?pwr, ?flash, ?port⟩
  case lane =>
    refine clears_four (fun _ _ => rfl) rfl (fun _ _ h => h) ?_
    rintro c p t ⟨hlane, hflag, hrsv⟩
    exact guardR_pass _ (by simp [lanePresent, hlane, hflag, rsv, hrsv])
  case phy =>
    refine clears_four (fun _ _ => rfl) rfl (fun _ _ h => h) ?_
    rintro c p t ⟨hlane, hflag, hrsv⟩
    exact guardR_pass _ (by simp [lanePresent, hlane, hflag, rsv, hrsv])
  case band =>
    refine clears_four (fun _ _ => rfl) rfl (fun _ _ h => h) ?_
    rintro c p t ⟨hband, hflag, hrsv⟩
    have hnode : u8 p 0 ≠ 0xFF := by omega
    rw [tallyStatsGet, guardR_pass _ (by simp [hband, hflag, rsv, hrsv])]
    simp [hnode]
  case node =>
    refine clears_four (fun _ _ => rfl) rfl (fun _ _ h => h) ?_
    rintro c p t ⟨hnode, hflag, hrsv⟩
    rw [tallyStatsGet, guardR_pass _ (by simp [hnode, hflag, rsv, hrsv])]
    simp [hnode]
  case radio => exact clears_flag (fun _ _ => rfl) rfl (fun _ _ _ => rfl)
  case canary => exact clears_flag (fun _ _ => rfl) rfl (fun _ _ _ => rfl)
  case link => exact clears_flag (fun _ _ => rfl) rfl (fun _ _ _ => rfl)
  case timing => exact clears_flag (fun _ _ => rfl) rfl (fun _ _ _ => rfl)
  case qm => exact clears_flag (fun _ _ => rfl) rfl (fun _ _ _ => rfl)
  case sched => exact clears_flag (fun _ _ => rfl) rfl (fun _ _ _ => rfl)
  case cipher => exact clears_flag (fun _ _ => rfl) rfl (fun _ _ _ => rfl)
  case pwr => exact clears_flag (fun _ _ => rfl) rfl (fun _ _ _ => rfl)
  case flash => exact clears_flag (fun _ _ => rfl) rfl (fun _ _ _ => rfl)
  case port => exact clears_flag (fun _ _ => rfl) rfl (fun _ _ _ => rfl)

end Sys2Proof.Machine

/-! ### Requests that change the block at once or begin its work: system, modes, radio and shots (R64 to R110, R149 to R154) -/

namespace Sys2Proof.Machine

section
variable {i : Srv → Instr} {op : Nat} {core : CoreFn} {ok : Srv → List Byte → State → Prop}

/-- A request of `n` octets that changes the state at once; its core may look at who asks. -/
theorem sets_fixed {run : Srv → List Byte → State → State} {body : List Byte → State → State → List Byte} (n : Nat)
    (hi : ∀ v s, exec (i v) s = .next (serve op core v s)) (hc : cmdOf op = some (setC op n)) (hn : n ≤ 240)
    (hl : ∀ v p s, ok v p s → p.length = n) (hk : ∀ v p s, ok v p s → ok v p (taken s))
    (hb : ∀ v p s t, ok v p t → chanOwner s v.ch = chanOwner t v.ch → core (ctxOf op v s) p t = okR (run v p t) (body p t (run v p t))) :
    Sets i op ok run body :=
  sets_of (setC op n) hi hc (fun v p s h => fix_ok (hl v p s h) hn) rfl rfl hk fun v p s h => hb v p s (taken s) h rfl

/-- A request of `n` octets that is answered PENDING. -/
theorem starts_fixed {run : Nat → Srv → List Byte → State → State} {body : List Byte → State → List Byte} (n : Nat)
    (hi : ∀ v s, exec (i v) s = .next (serve op core v s)) (hc : cmdOf op = some (setC op n)) (hn : n ≤ 240)
    (hl : ∀ v p s, ok v p s → p.length = n) (hk : ∀ v p s, ok v p s → ok v p (taken s))
    (hb : ∀ v p s t k, ok v p t → chanOwner s v.ch = chanOwner t v.ch → freeSlot t = some k →
      core (ctxOf op v s) p t = ⟨heldSlot op v k s (run k v p t), stPENDING, k, body p t⟩) : Starts i op ok run body :=
  starts_of (setC op n) hi hc (fun v p s h => fix_ok (hl v p s h) hn) rfl rfl hk fun v p s k h hf => hb v p s (taken s) k h rfl hf
end

/-! ### MODE_SET (R69, R445, R446) -/

@[simp] theorem codeMode_modeCode (m : Mode) : codeMode (modeCode m) = m := by cases m <;> rfl

theorem modeCode_le (m : Mode) : modeCode m ≤ 5 := by cases m <;> decide

/-- The modes with a link (R445). -/
theorem linkModes_iff (s : State) : linkModes s = true ↔ s.pwr.mode = .leaf ∨ s.pwr.mode = .relay ∨ s.pwr.mode = .wide := by
  unfold linkModes
  cases s.pwr.mode <;> simp

/-- What MODE_SET does with a payload that asks for a mode which the device has and allows, while no change of mode is under way. -/
theorem modeSet_asked {m : Mode} {p : List Byte} {s : State} (c : Ctx) (hcode : u8 p 0 = modeCode m) (hrsv : zeros p 1 3 = true)
    (hwide : m = .wide → s.dev.variant ≠ .face) (hallow : bit s.pwr.allowed (modeCode m) = true) (hdrain : s.pwr.drain = none)
    (hchange : s.pwr.changing = false) :
    modeSet c p s =
      if m = s.pwr.mode then okR s (modeRec s.pwr.mode s.pwr.mode)
      else if linkModes s && (m == .leaf || m == .relay || m == .wide) then okR (enterMode m s) (modeRec s.pwr.mode m)
      else if linkModes s then
        pendR c s fun slot => updTiming (fun t => { t with window := if exchange s then t.window else none })
          (updPwr (fun q => { q with drain := some { target := m, slot := slot } }) s)
      else if m == .service then okR (intoService s) (modeRec s.pwr.mode .service)
      else if s.pwr.mode = .service then okR (outOfService m s) (modeRec s.pwr.mode m)
      else okR (enterMode m s) (modeRec s.pwr.mode m) := by
  simp only [modeSet, hcode, codeMode_modeCode]
  rw [guardR_pass _ (by simp [modeCode_le, rsv, hrsv]), if_neg (fun h => hwide h.1 h.2)]
  simp [hallow, hdrain, hchange]

/-- Settles O16: a payload that passes the checks meets the chain of cases in `modeSet_asked`, of which each clause takes one. -/
theorem modeSetCommand : Obligations.ModeSet := by
  intro m
  refine ⟨?same, ?among, ?drain, ?into, ?out, ?idle⟩
  case same =>
    refine sets_fixed 4 (fun _ _ => rfl) rfl (by decide) (fun _ _ _ h => h.1.1) (fun _ _ _ h => h) ?_
    rintro v p s t ⟨⟨-, hcode, hrsv, hwide, hallow, hdrain, hchange⟩, hmode⟩ -
    rw [modeSet_asked _ hcode hrsv hwide hallow hdrain hchange, if_pos hmode.symm, hmode]
  case among =>
    refine sets_fixed 4 (fun _ _ => rfl) rfl (by decide) (fun _ _ _ h => h.1.1) (fun _ _ _ h => h) ?_
    rintro v p s t ⟨⟨-, hcode, hrsv, hwide, hallow, hdrain, hchange⟩, hmode, hold, hnew⟩ -
    have hnew' : m = .leaf ∨ m = .relay ∨ m = .wide := hnew
    rw [modeSet_asked _ hcode hrsv hwide hallow hdrain hchange, if_neg (Ne.symm hmode), if_pos]
    simp [(linkModes_iff t).2 hold, or_assoc, hnew']
  case drain =>
    refine starts_fixed 4 (fun _ _ => rfl) rfl (by decide) (fun _ _ _ h => h.1.1) (fun _ _ _ h => h) ?_
    rintro v p s t k ⟨⟨-, hcode, hrsv, hwide, hallow, hdrain, hchange⟩, hold, hnew⟩ - hfree
    have hmode : m ≠ t.pwr.mode := fun h => hnew (h ▸ hold)
    have hnew' : ¬ (m = .leaf ∨ m = .relay ∨ m = .wide) := hnew
    rw [modeSet_asked _ hcode hrsv hwide hallow hdrain hchange, if_neg hmode, if_neg (by simpa [or_assoc] using fun _ => hnew'),
      if_pos ((linkModes_iff t).2 hold), pendR_held _ hfree]
  case into =>
    refine sets_fixed 4 (fun _ _ => rfl) rfl (by decide) (fun _ _ _ h => h.1.1) (fun _ _ _ h => h) ?_
    rintro v p s t ⟨⟨-, hcode, hrsv, hwide, hallow, hdrain, hchange⟩, rfl, hold⟩ -
    have hlink : linkModes t = false := by rcases hold with h | h <;> simp [linkModes, h]
    have hmode : Mode.service ≠ t.pwr.mode := by rcases hold with h | h <;> simp [h]
    rw [modeSet_asked _ hcode hrsv hwide hallow hdrain hchange, if_neg hmode]
    simp [hlink]
  case out =>
    refine sets_fixed 4 (fun _ _ => rfl) rfl (by decide) (fun _ _ _ h => h.1.1) (fun _ _ _ h => h) ?_
    rintro v p s t ⟨⟨-, hcode, hrsv, hwide, hallow, hdrain, hchange⟩, hnew, hold⟩ -
    have hlink : linkModes t = false := by simp [linkModes, hold]
    rw [modeSet_asked _ hcode hrsv hwide hallow hdrain hchange, if_neg (by rw [hold]; exact hnew)]
    simp [hlink, hnew, hold]
  case idle =>
    refine sets_fixed 4 (fun _ _ => rfl) rfl (by decide) (fun _ _ _ h => h.1.1) (fun _ _ _ h => h) ?_
    rintro v p s t ⟨⟨-, hcode, hrsv, hwide, hallow, hdrain, hchange⟩, hnew, hmode, hold⟩ -
    have hlink : linkModes t = false := by rcases hold with h | h <;> simp [linkModes, h]
    have hold' : t.pwr.mode ≠ .service := by rcases hold with h | h <;> simp [h]
    rw [modeSet_asked _ hcode hrsv hwide hallow hdrain hchange, if_neg (Ne.symm hmode)]
    simp [hlink, hnew, hold']

/-! ### The system group and the radio front end (R65, R68, R76, R114, R149 to R154, R453) -/

/-- Settles O17: each core is the check of its fields followed by the change. -/
theorem systemAndRadioSettings : Obligations.SystemAndRadioSettings := by
  refine ⟨?filter, ?reset, ?survey, ?sleep, ?tune, ?pa, ?comp, ?div, ?ext⟩
  case filter =>
    refine sets_fixed 4 (fun _ _ => rfl) rfl (by decide) (fun _ _ _ h => h.1) (fun _ _ _ h => h) ?_
    rintro v p s t ⟨-, hchan, hrsv, heven⟩ -
    simp only [eventFilterSet]
    rw [guardR_pass _ (by simp [hchan, rsv, hrsv, heven])]
  case reset =>
    refine sets_fixed 4 (fun _ _ => rfl) rfl (by decide) (fun _ _ _ h => h.1) (fun _ _ _ h => h) ?_
    rintro v p s t ⟨-, hkind, hrsv⟩ -
    exact guardR_pass _ (by simp [hkind, rsv, hrsv])
  case survey =>
    refine sets_fixed 8 (fun _ _ => rfl) rfl (by decide) (fun _ _ _ h => h.1) (fun _ _ _ h => h) ?_
    rintro v p s t ⟨-, hkind, hbound, hmask, heven, hnone, hshots⟩ howner
    simp only [survey]
    rw [guardR_pass _ (by simp [hkind, hbound, hmask, heven])]
    simp only [hnone, hshots, Option.isSome_none, Bool.or_false, ctxOf_req, howner]
    rfl
  case sleep =>
    refine sets_fixed 4 (fun _ _ => rfl) rfl (by decide) (fun _ _ _ h => h.1) (fun _ _ _ h => h) ?_
    rintro v p s t ⟨-, hhost, hlo, hhi, hrsv⟩ howner
    exact guardR_pass _ (by simp [howner, hhost, hlo, hhi, rsv, hrsv])
  case tune =>
    refine sets_fixed 8 (fun _ _ => rfl) rfl (by decide) (fun _ _ _ h => h.1) (fun _ _ _ h => h) ?_
    rintro v p s t ⟨-, hfreq, hret, hrsv⟩ -
    simp only [radioTuneSet]
    rw [guardR_pass _ (by simp [hfreq, hret, rsv, hrsv])]
  case pa =>
    refine sets_fixed 4 (fun _ _ => rfl) rfl (by decide) (fun _ _ _ h => h.1) (fun _ _ _ h => h) ?_
    rintro v p s t ⟨-, hlo, hhi, hport, hrsv⟩ -
    simp only [radioPaSet]
    rw [guardR_pass _ (by simp [hlo, hhi, hport, rsv, hrsv])]
  case comp =>
    refine sets_fixed 36 (fun _ _ => rfl) rfl (by decide) (fun _ _ _ h => h.1) (fun _ _ _ h => h) ?_
    rintro v p s t ⟨-, hrsv, htab⟩ -
    simp only [radioCompSet]
    rw [guardR_pass _ (by rcases htab with h | ⟨h, htab⟩ <;> simp [rsv, *])]
  case div =>
    refine sets_fixed 8 (fun _ _ => rfl) rfl (by decide) (fun _ _ _ h => h.1) (fun _ _ _ h => h) ?_
    rintro v p s t ⟨-, hmode, hshaft, hfix, hidle, htx, hhyst, hrsv⟩ -
    have hdiv : u8 p 0 ≤ if t.dev.variant = .shaft then 0 else 1 := by
      split
      · exact Nat.le_of_eq (hshaft ‹_›)
      · exact hmode
    simp only [radioDivSet]
    rw [guardR_pass _ (by simp [hdiv, hfix, hidle, htx, hhyst, rsv, hrsv])]
  case ext =>
    refine sets_fixed 8 (fun _ _ => rfl) rfl (by decide) (fun _ _ _ h => h.1) (fun _ _ _ h => h) ?_
    rintro v p s t ⟨-, hpins, hlead, hlag, hrsv, hrsv'⟩ -
    simp only [radioExtSet]
    rw [guardR_pass _ (by simp [hpins, hlead, hlag, rsv, hrsv, hrsv'])]

/-! ### Shots (R84 to R94, R110) -/

/-- A shot named by its owner, in a state that the command accepts. -/
theorem namedShot_owned {c : Ctx} {p : List Byte} {s : State} {n : Nat} {accepts : ShotState → Bool} (go : Nat → Shot → Res) (hn : u8 p 0 = n)
    (hle : n ≤ 3) (hown : (shotOf s n).owner = some c.req) (hacc : accepts (shotOf s n).state = true) (hfree : (shotOf s n).state ≠ .free) :
    namedShot c p s accepts go = go n (shotOf s n) := by
  subst hn
  simp only [namedShot]
  rw [if_neg (by simp [hown, hfree]; omega), if_neg (by simp [hacc])]

/-- Settles O18: the four cores of a shot, each behind the check that the requester owns it. -/
theorem shotCommands : Obligations.ShotCommands := by
  intro n
  refine ⟨?opened, ?add, ?fire, ?abort⟩
  case opened =>
    refine sets_fixed 0 (fun _ _ => rfl) rfl (by decide) (fun _ _ _ h => h.1) (fun _ _ _ h => h) ?_
    rintro v p s t ⟨-, hfirst⟩ howner
    simp only [shotOpen, hfirst, ctxOf_req, howner]
  case add =>
    intro es k
    refine sets_of ⟨0x0181, false, true, .range 8 236⟩ (fun _ _ => rfl) rfl ?_ rfl rfl (fun _ _ _ h => h) ?_
    · rintro v p s ⟨hlo, hhi, -⟩
      exact ⟨by simp [LenRule.ok, LenRule.range, hlo, hhi], by omega⟩
    · rintro v p s ⟨-, -, ⟨hn, hle, hown⟩, hopen, hlo, hhi, hrsv, hparse⟩
      simp only [shotAdd]
      rw [namedShot_owned _ hn hle hown (by simp [hopen]) (by simp [hopen]), guardR_pass _ (by simp [hlo, hhi, rsv, hrsv]), hparse]
      rfl
  case fire =>
    refine starts_of (setC 0x0182 16) (fun _ _ => rfl) rfl (fun _ _ _ h => fix_ok h.1 (by decide)) rfl rfl (fun _ _ _ h => ?_) ?_
    · rw [taken_taken]
      exact h
    · rintro v p s k ⟨-, ⟨hn, hle, hown⟩, hopen, hne, htrig, hopts, hbound, hrsv, hwhen, hosf, hwalk⟩ hfree
      have hreq : (shotOf (taken s) n).req = chanOwner s v.ch := by simp [Shot.req, hown]
      have hosf' : (decide (u8 p 1 = 4) && (taken s).rtc.osf) = false := by
        by_cases h : u8 p 1 = 4 <;> simp [h, hosf]
      simp only [shotFire]
      rw [namedShot_owned _ hn hle hown (by simp [hopen]) (by simp [hopen]),
        guardR_pass _ (by simp [hne, htrig, hopts, hbound, rsv, hrsv, hwhen]), if_neg (by simp [hosf']), hreq]
      rw [taken_taken] at hwalk
      simp only [chanOwner_taken] at hwalk
      simp only [hwalk, pendR_held _ hfree, if_true]
  case abort =>
    refine sets_fixed 4 (fun _ _ => rfl) rfl (by decide) (fun _ _ _ h => h.1) (fun _ _ _ h => h) ?_
    rintro v p s t ⟨-, ⟨hn, hle, hown⟩, hstate, hrsv⟩ howner
    have hacc : ((shotOf t n).state != .quiescing) = true := by rcases hstate with h | h <;> simp [h]
    have hfree : (shotOf t n).state ≠ .free := by rcases hstate with h | h <;> simp [h]
    rw [shotAbort, namedShot_owned _ hn hle (by rw [hown, ctxOf_req, howner]) hacc hfree, guardR_pass _ (by simp [rsv, hrsv])]

end Sys2Proof.Machine

/-! ### Requests that change the block at once or begin its work: lanes, canary, link, timing, tally, queues and flows (R182 to R404) -/

namespace Sys2Proof.Machine

@[simp] theorem optsOk_fst (op : Nat) (v : Srv) (s : State) (p : List Byte) (o : Nat) : ((ctxOf op v s).optsOk p o).1 = decide (u8 p o < 2) := rfl

/-- A list of checks passes when all of them do, as a Boolean: the form in which the checks of a payload are decided one by one. -/
theorem pass_of_all {l : List (Bool × Nat)} (h : l.all (fun c => c.1) = true) : Pass l := List.all_eq_true.1 h

/-- The settings that a payload of LANE_SET holds (R183). -/
abbrev laneAsked (p : List Byte) : LaneCfg :=
  { enable := u8 p 1, phy := u8 p 2, path := u8 p 3, offset := i32 p 4, chan := u32 p 8, rate := u32 p 12, phycfg := u32 p 16 }

/-- Settles O20: a setting is taken at once, or afterwards where the lane has a frame or the canary a sequence. -/
theorem lanesAndCanarySettings : Obligations.LanesAndCanarySettings := by
  refine ⟨?lane, ?erase, ?profile, ?canary, ?send⟩
  case lane =>
    refine sets_fixed 20 (fun _ _ => rfl) rfl (by decide) (fun _ _ _ h => h.1) (fun _ _ _ h => h) ?_
    rintro v p s t ⟨-, hlane, hen, hlo, hhi, hpath, hoff, hchan, hrate, hphy, hunits⟩ -
    have hoff' : (if Config.wideband t.dev.variant then
        decide (-7200000 ≤ 2 * i32 p 4 - (u32 p 8 : Int) ∧ 2 * i32 p 4 + (u32 p 8 : Int) ≤ 7200000) else decide (i32 p 4 = 0)) = true := by
      cases h : Config.wideband t.dev.variant <;> simpa [h] using hoff
    have hunits' : (u8 p 1 == 0 || !Config.wideband t.dev.variant || 
        decide (unitsWith t (u8 p 0) (laneAsked p) ≤ Config.laneBudget t.dev.variant)) = true := by
      simpa [or_assoc] using hunits
    simp only [laneSet]
    rw [guardR_pass _ (by
      simp only [List.forall_mem_cons, hlane, hen, hlo, hhi, hpath, hchan, hrate, hphy, decide_true, and_self, true_and]
      exact ⟨hoff', hunits', by simp⟩)]
    simp only [ctxOf_shot, Bool.not_false, Bool.and_true]
  case erase =>
    refine sets_fixed 16 (fun _ _ => rfl) rfl (by decide) (fun _ _ _ h => h.1) (fun _ _ _ h => h) ?_
    rintro v p s t ⟨-, hindex, hphy, hrsv, hrsv'⟩ -
    simp only [phyProfileSet]
    rw [guardR_pass _ (by simp [hindex, hphy, rsv, hrsv, hrsv'])]
    simp only [hphy, beq_self_eq_true, if_true]
  case profile =>
    refine sets_fixed 16 (fun _ _ => rfl) rfl (by decide) (fun _ _ _ h => h.1) (fun _ _ _ h => h) ?_
    rintro v p s t ⟨-, hindex, hlo, hhi, hrsv, hrsv', hrate, hphycfg, hmcs, hpre⟩ -
    have hphy : (u8 p 1 == 0) = false := by simp; omega
    have hmcs' : (if u8 p 1 = 2 then (if rateOk 2 (u32 p 8) then decide (0 < ndbps (u32 p 8) (u8 p 2)) else decide (u8 p 2 ≤ 6)) else u8 p 2 == 0) = true := by
      by_cases h : u8 p 1 = 2
      · rw [h] at hrate
        simpa [h, hrate] using hmcs
      · simpa [h] using hmcs
    have hpre' : (if u8 p 1 = 1 then decide (4 ≤ u16 p 4 ∧ u16 p 4 ≤ 1000) else u16 p 4 == 0) = true := by
      by_cases h : u8 p 1 = 1 <;> simpa [h] using hpre
    simp only [phyProfileSet, hphy, Bool.false_or]
    rw [guardR_pass _ (by
      simp only [List.forall_mem_cons, rsv, hindex, hhi, hrsv, hrsv', hrate, hphycfg, hmcs', hpre', decide_true, true_and]
      simp)]
    rfl
  case canary =>
    refine sets_fixed 36 (fun _ _ => rfl) rfl (by decide) (fun _ _ _ h => h.1) (fun _ _ _ h => h) ?_
    rintro v p s t ⟨-, hen, hactive, hslot, hbits, hthr, h0, h1, h2, h3, hgroups⟩ -
    have hlist : (List.range 4).map (fun i => u32 p (4 + 4 * i)) = [u32 p 4, u32 p 8, u32 p 12, u32 p 16] := rfl
    have hat : at_ 0 ((List.range 4).map (fun i => u32 p (4 + 4 * i))) (u8 p 1) = u32 p (4 + 4 * u8 p 1) := by
      simp [at_, List.getD, Nat.lt_succ_of_le hactive]
    have hact' : (u8 p 0 == 0 || u32 p (4 + 4 * u8 p 1) != 0) = true := by simpa using hslot
    simp only [canarySet, hat]
    rw [guardR_pass _ (by
      simp only [List.forall_mem_cons, hen, hactive, hact', hbits, hthr, h0, h1, h2, h3, decide_true, Bool.true_and, true_and]
      simp [hgroups])]
    simp only [ctxOf_shot, hlist, Bool.not_false, and_true]
  case send =>
    refine starts_fixed 24 (fun _ _ => rfl) rfl (by decide) (fun _ _ _ h => h.1) (fun _ _ _ h => h) ?_
    rintro v p s t k ⟨-, haddr, hgroup, hlo, hhi, hplo, hphi, hant, hhz, hrsv, hwhen, hmodes, hsend⟩ - hfree
    simp only [canarySend]
    rw [guardR_pass _ (by
      simp only [List.forall_mem_cons, rsv, haddr, hgroup, hlo, hhi, hplo, hphi, hant, hhz, hrsv, decide_true, and_self, true_and]
      exact ⟨decide_eq_true hwhen, by simp⟩)]
    simp only [hmodes, hsend, pendR_held _ hfree]
    rfl

/-! ### Link settings (R287 to R291) -/

/-- A setting of the link between exchanges, stored where the payload asks for it. -/
theorem linkSet_free {op k : Nat} {v : Srv} {p : List Byte} {s t : State} (reply : State → List Byte) (hx : exchange t = false) (hsv : Savable k v p)
    (hrec : ∀ t, reply (saved k p t) = reply t) :
    linkSet (ctxOf op v s) p k reply t =
      okR (saved k p (linkKick (applyLinkSet op p t))) (reply (saved k p (linkKick (applyLinkSet op p t)))) := by
  simp only [linkSet, hx, ctxOf_shot, ctxOf_op, Bool.false_and, Bool.false_eq_true, if_false, okR]
  rw [persistR_saved _ _ hsv, hrec]

/-- A setting of the link within an exchange that is not to be stored waits for its end. -/
theorem linkSet_deferred {op k : Nat} {v : Srv} {p : List Byte} {s t : State} (reply : State → List Byte) (hx : exchange t = true) (hopts : u8 p k = 0) :
    linkSet (ctxOf op v s) p k reply t =
      okR { t with link := { t.link with deferred := t.link.deferred ++ [(op, p)] } }
        (reply { t with link := { t.link with deferred := t.link.deferred ++ [(op, p)] } }) := by
  simp [linkSet, hx, hopts, persistR, okR]

/-- A link setting's two clauses, from what its core does with a payload that passes. -/
theorem takes_of {i : Srv → Instr} {op k : Nat} {core : CoreFn} {ok : List Byte → State → Prop} {rec : List Byte → State → List Byte} (n : Nat)
    (hi : ∀ v s, exec (i v) s = .next (serve op core v s)) (hc : cmdOf op = some (setC op n)) (hn : n ≤ 240) (hl : ∀ p s, ok p s → p.length = n)
    (hk : ∀ p s, ok p s → ok p (taken s)) (hrec : ∀ p t, rec p (saved k p t) = rec p t)
    (hcore : ∀ v p s t, ok p t → u8 p k < 2 → core (ctxOf op v s) p t = linkSet (ctxOf op v s) p k (rec p) t) :
    Sets i op (fun v p s => ok p s ∧ Savable k v p ∧ exchange s = false) (fun _ p t => saved k p (linkKick (applyLinkSet op p t))) (fun p _ t => rec p t) ∧
    Sets i op (fun _ p s => ok p s ∧ u8 p k = 0 ∧ exchange s = true)
      (fun _ p t => { t with link := { t.link with deferred := t.link.deferred ++ [(op, p)] } }) (fun p _ t => rec p t) := by
  constructor
  · refine sets_fixed n hi hc hn (fun _ p s h => hl p s h.1) (fun _ p s h => ⟨hk p s h.1, h.2⟩) ?_
    rintro v p s t ⟨hok, hsv, hx⟩ -
    rw [hcore v p s t hok (savable_opts hsv), linkSet_free _ hx hsv (hrec p)]
  · refine sets_fixed n hi hc hn (fun _ p s h => hl p s h.1) (fun _ p s h => ⟨hk p s h.1, h.2⟩) ?_
    rintro v p s t ⟨hok, hopts, hx⟩ -
    rw [hcore v p s t hok (by omega), linkSet_deferred _ hx hopts]

/-- A report that does not look at the update unit, where the settings are stored, is not changed by storing them. -/
theorem saved_unseen {α : Type} (f : State → α) (hf : ∀ g t, f (updUpd g t) = f t) (k : Nat) (p : List Byte) (t : State) : f (saved k p t) = f t := by
  unfold saved
  split
  · obtain ⟨g, hg⟩ : ∃ g, writeSettings t = updUpd g t := by
      unfold writeSettings
      exact ⟨_, rfl⟩
    rw [hg, hf]
  · rfl

/-- Settles O21: every core is its checks and then `linkSet`, whose two cases are the two clauses. -/
theorem linkSettings : Obligations.LinkSettings := by
  refine ⟨?cfg, ?nbr, ?route, ?parent⟩
  case cfg =>
    refine takes_of 56 (fun _ _ => rfl) rfl (by decide) (fun _ _ h => h.1) (fun _ _ h => h) (fun p => saved_unseen (fun t => linkCfgRec t.link.cfg) (fun _ _ => rfl) 52 p) ?_
    rintro v p s t ⟨-, hshort, hnet, hretries, hopen, hprofile, hbase, hmax, hrx, hunr, hkey, hmic, hgroups, hrsv⟩ hopts
    have hshort' : ((assignable (u32 p 0) || u32 p 0 == unassigned) && !(assignable (u32 p 0) && (findShort t (u32 p 0)).isSome)) = true := by
      rcases hshort with h | ⟨h, hfind⟩
      · simp [h, assignable, unassigned]
      · simp [h, hfind]
    have hgroups' : Pass ((List.range 8).map fun i => (u32 p (20 + 4 * i) == 0 || isGroup (u32 p (20 + 4 * i)), 20 + 4 * i)) := by
      simpa [List.forall_mem_map] using hgroups
    simp only [linkCfgSet]
    refine guardR_pass _ (List.forall_mem_append.2 ⟨List.forall_mem_append.2 ⟨?_, hgroups'⟩, ?_⟩)
    · simp only [List.forall_mem_cons, linkCfgOf, hshort', hnet, hretries, hopen, hprofile, hbase, hmax, hrx, hunr, hkey, hmic, decide_true, true_and]
      simp
    · simp [optsOk_fst, hopts, rsv, hrsv]
  case nbr =>
    refine takes_of 72 (fun _ _ => rfl) rfl (by decide) (fun _ _ h => h.1) (fun _ _ h => h) (fun p => saved_unseen (fun t => nbrRec t (u16 p 0)) (fun _ _ => rfl) 2 p) ?_
    rintro v p s t ⟨-, hchecks, hrsv⟩ hopts
    simp only [nbrSet]
    refine guardR_pass _ (List.forall_mem_append.2 ⟨List.forall_mem_append.2 ⟨?_, ?_⟩, ?_⟩)
    · exact fun c hc => hchecks c (List.mem_of_mem_take hc)
    · simp [optsOk_fst, hopts, rsv, hrsv]
    · exact fun c hc => hchecks c (List.mem_of_mem_drop hc)
  case route =>
    refine takes_of 16 (fun _ _ => rfl) rfl (by decide) (fun _ _ h => h.1) (fun _ _ h => h) (fun p => saved_unseen (fun t => routeRec t (u16 p 0)) (fun _ _ => rfl) 2 p) ?_
    rintro v p s t ⟨-, hr3, hr7, hr14, ⟨hindex, hvalid, hbase, hon⟩, hpar⟩ hopts
    simp only [routeSet, routeSetOf]
    refine guardR_pass _ ?_
    by_cases h1 : u8 p 4 = 1
    · obtain ⟨hsize, hlo, hhi, hmod, hhop, hsame⟩ := hon h1
      have hsame' : (t.link.route.any fun y => y.1 != u16 p 0 && y.2.valid == 1 && y.2.base == u32 p 8 && y.2.size == u8 p 5) = false := hsame
      simp only [List.forall_mem_cons, hsame', optsOk_fst, hopts, rsv, hr3, hr7, hr14, hbase, h1, hlo, hhi, hhop, hmod, beq_false_of_ne hpar, decide_true]
      simp [hindex, hsize]
    · simp only [List.forall_mem_cons, optsOk_fst, hopts, rsv, hr3, hr7, hr14, hbase, hvalid, beq_false_of_ne h1, decide_true, Bool.not_false, Bool.true_or]
      simp [hindex]
  case parent =>
    refine takes_of 16 (fun _ _ => rfl) rfl (by decide) (fun _ _ h => h.1) (fun _ _ h => h) (fun p => saved_unseen (fun t => routeRec t (u16 p 0)) (fun _ _ => rfl) 2 p) ?_
    rintro v p s t ⟨-, hr3, hr7, hr14, hpar, hvalid, hsize, hlo, hhi, hbase, hhop⟩ hopts
    simp only [routeSet, routeSetOf]
    refine guardR_pass _ ?_
    simp only [List.forall_mem_cons, optsOk_fst, hopts, rsv, hr3, hr7, hr14, hbase, hvalid, hsize, hpar, hlo, hhi, hhop, decide_true]
    simp

/-! ### Frames that the link sends of itself (R292 to R294, R326) -/

/-- Settles O22: every core sends its frame first, and holds its slot once the frame has its cells. -/
theorem linkWork : Obligations.LinkWork := by
  refine ⟨?join, ?reply, ?beacon, ?resync⟩
  case join =>
    intro t'
    refine starts_of ⟨0x0530, false, true, ⟨16, 48, 16, 1, 12, 1⟩⟩ (fun _ _ => rfl) rfl ?_ rfl rfl (fun v p s h => ?_) ?_
    · rintro v p s ⟨hlen, hdata, -⟩
      exact ⟨counted_ok (by rw [hlen, u8_unle, Nat.one_mul]) (by omega) (by omega), by omega⟩
    · rw [taken_taken]
      exact h
    · rintro v p s n ⟨hlen, hdata, hprofile, hlo, hhi, hrole, hint, hint', hdur, hdur', hr10, hr13, hmodes, hown, hnone, hsend⟩ hfree
      rw [taken_taken] at hsend
      have hpass : ((profileOf (taken s) (taken s).link.cfg.bcastProfile).phy != 0) = true := by simpa using hprofile
      simp only [linkJoin]
      rw [guardR_pass _ (by
        simp only [List.forall_mem_cons, rsv, hpass, hlo, hhi, hrole, hint, hint', hdur, hdur', hr10, hr13, hdata, decide_true, and_self, true_and]
        simp)]
      simp only [hmodes, hsend, pendR_held _ hfree]
      simp [hown, hnone]
  case reply =>
    intro t'
    refine starts_of ⟨0x0531, false, true, ⟨24, 88, 24, 1, 20, 1⟩⟩ (fun _ _ => rfl) rfl ?_ rfl rfl (fun v p s h => ?_) ?_
    · rintro v p s ⟨hlen, hdata, -⟩
      exact ⟨counted_ok (by rw [hlen, u8_unle, Nat.one_mul]) (by omega) (by omega), by omega⟩
    · rw [taken_taken]
      exact h
    · rintro v p s n ⟨hlen, hdata, hprofile, hrole, hlo, hhi, hr14, hshort, hr21, hsend⟩ hfree
      rw [taken_taken] at hsend
      have hprofile' : ((profileOf (taken s) (replyProfile (taken s) (slice p 0 8))).phy != 0) = true := by simpa using hprofile
      have hshort' : (if u8 p 12 = 0 then assignable (u32 p 16) else decide (u32 p 16 < 2 ^ 25)) = true := by
        by_cases h : u8 p 12 = 0 <;> simpa [h] using hshort
      simp only [linkJoinReply]
      rw [guardR_pass _ (by
        simp only [List.forall_mem_cons, rsv, hprofile', hrole, hlo, hhi, hr14, hshort', hdata, hr21, decide_true, and_self, true_and]
        simp)]
      cases hfind : findEui (taken s) (slice p 0 8) with
      | none =>
        simp only [hfind] at hsend ⊢
        simp only [hsend, pendR_held _ hfree]
      | some j =>
        simp only [hfind] at hsend ⊢
        simp only [hsend, pendR_held _ hfree]
  case beacon =>
    intro t'
    refine starts_of (setC 0x0611 4) (fun _ _ => rfl) rfl (fun _ _ _ h => fix_ok h.1 (by decide)) rfl rfl (fun v p s h => ?_) ?_
    · rw [taken_taken]
      exact h
    · rintro v p s n ⟨-, hrsv, hmodes, hnbr, hsend⟩ hfree
      rw [taken_taken] at hsend
      have hnbr' : (u16 p 0 == 0xFFFF || (decide (u16 p 0 < nbrCount (taken s)) && decide ((nbrOf (taken s) (u16 p 0)).state ≠ .free))) = true := by
        simpa using hnbr
      simp only [timingBeacon]
      rw [guardR_pass _ (by simp only [List.forall_mem_cons, rsv, hrsv, hnbr']; simp)]
      simp only [hmodes, hsend, pendR_held _ hfree]
      rfl
  case resync =>
    refine starts_fixed 4 (fun _ _ => rfl) rfl (by decide) (fun _ _ _ h => h.1) (fun _ _ _ h => h) ?_
    rintro v p s t k ⟨-, hindex, hnbr, hrsv, hmodes⟩ - hfree
    simp only [timingResync]
    rw [guardR_pass _ (by simp [hindex, hnbr, rsv, hrsv])]
    simp only [hmodes, pendR_held _ hfree]
    rfl

/-! ### Mesh timing, the tally, the queues and the flows (R321 to R404) -/

/-- A setting of `n` octets that is stored where its OPTS octet at `k` says so. -/
theorem saves_fixed {i : Srv → Instr} {op k : Nat} {core : CoreFn} {ok : Srv → List Byte → State → Prop} {run0 : List Byte → State → State}
    {rec : List Byte → State → List Byte} {chk : Srv → List Byte → State → State → List (Bool × Nat)} (n : Nat)
    (hi : ∀ v s, exec (i v) s = .next (serve op core v s)) (hc : cmdOf op = some (setC op n)) (hn : n ≤ 240)
    (hl : ∀ v p s, ok v p s → p.length = n) (hk : ∀ v p s, ok v p s → ok v p (taken s))
    (hcore : ∀ v p s T, core (ctxOf op v s) p T = guardR T (chk v p s T) fun _ => persistR (ctxOf op v s) (u8 p k == 1) 0 (okR (run0 p T) (rec p (run0 p T))))
    (hsv : ∀ v p s, ok v p s → Savable k v p) (hrec : ∀ p t, rec p (saved k p t) = rec p t)
    (hpass : ∀ v p s T, ok v p T → u8 p k < 2 → Pass (chk v p s T)) :
    Sets i op ok (fun _ p t => saved k p (run0 p t)) (fun p _ t => rec p t) :=
  saves_of (setC op n) hi hc (fun v p s h => fix_ok (hl v p s h) hn) rfl rfl hcore hsv hk hpass hrec

/-- Settles O23: most of the cores are their checks, the change, and storing it. -/
theorem timingAndTallySettings : Obligations.TimingAndTallySettings := by
  refine ⟨?cfg, ?chseq, ?mtime, ?sync, ?tally, ?band, ?clear⟩
  case cfg =>
    refine saves_fixed 44 (fun _ _ => rfl) rfl (by decide) (fun _ _ _ h => h.1) (fun _ _ _ h => h) (fun _ _ _ _ => rfl) ?_
      (fun p => saved_unseen timingCfgRec (fun _ _ => rfl) 40 p) ?_
    · rintro v p s ⟨-, -, -, -, -, -, -, -, -, -, -, -, -, -, -, -, -, -, -, -, -, -, hsv, -⟩
      exact hsv
    · rintro v p s t ⟨-, hper, hseq, hoffs, hbase, hbound, hcap, hcap', hflags, hrep, hrep', hdel, hdel', hlis, hlis', hint, hint', hwake, htrim, htrim', hdate,
        hr39, -, hr41⟩ hopts
      have hwake' : (timingCfgOf p).resyncWakeHz = 0 ∨ freqOk (timingCfgOf p).resyncWakeHz = true := hwake
      have hoffs' : (timingCfgOf p).ownPeriod = 0 ∨ (timingCfgOf p).ownOffset * 256000 < (timingCfgOf p).ownPeriod * 2 ^ 24 := hoffs
      simp only [List.forall_mem_cons, optsOk_fst, rsv, Bool.and_eq_true, Bool.or_eq_true, decide_eq_true_eq, beq_iff_eq]
      exact ⟨⟨hper, hseq⟩, hoffs', hbase, hbound, ⟨hcap, hcap'⟩, hflags, ⟨hrep, hrep'⟩, ⟨hdel, hdel'⟩, ⟨hlis, hlis'⟩, ⟨hint, hint'⟩, hwake', ⟨htrim, htrim'⟩, hdate,
        hr39, hopts, hr41, by simp⟩
  case chseq =>
    refine saves_of ⟨0x0603, false, true, ⟨8, 68, 4, 4, 1, 1⟩⟩ (fun _ _ => rfl) rfl ?_ rfl rfl (fun _ _ _ _ => rfl) (fun _ _ _ h => h.2.2.2.2.2.1)
      (fun _ _ _ h => h) ?_ (fun p => saved_unseen (fun t => chseqRec t (u8 p 0)) (fun _ _ => rfl) 2 p)
    · rintro v p s ⟨hlen, -, -, hlo, hhi, -⟩
      exact ⟨counted_ok (by rw [hlen, u8_unle]) (by omega) (by omega), by omega⟩
    · rintro v p s t ⟨-, hlo, hhi, hlo', hhi', -, hrsv, hfreq⟩ hopts
      refine List.forall_mem_append.2 ⟨pass_of_all (by simp [hlo, hhi, hlo', hhi', hopts, rsv, hrsv]), ?_⟩
      simpa [List.forall_mem_map] using hfreq
  case mtime =>
    refine sets_fixed 12 (fun _ _ => rfl) rfl (by decide) (fun _ _ _ h => h.1) (fun _ _ _ h => h) ?_
    rintro v p s t ⟨-, hsource, hrsv, hmay⟩ -
    simp only [timingMtimeSet]
    rcases hsource with ⟨hkind, htime⟩ | ⟨hkind, hosf⟩
    · have htime' : decide (u64 p 0 < mtMod) = true := decide_eq_true htime
      rw [guardR_pass _ (pass_of_all (by simp [hkind, rsv, hrsv, hmay, htime']))]
      simp [hkind]
    · rw [guardR_pass _ (pass_of_all (by simp [hkind, rsv, hrsv, hmay]))]
      simp [hkind, hosf]
  case sync => 
    refine yields_of (getC 0x0620 0) (fun _ _ => rfl) rfl (fun _ _ _ h => fix_ok h.1 (by decide)) rfl rfl (fun _ _ _ h => h) ?_
    rintro v p s ⟨-, hsync, htime⟩
    simp only [timeSync, hsync]
    rw [if_neg (by simp), if_neg (by omega)]
    rfl
  case tally =>
    refine saves_fixed 4 (fun _ _ => rfl) rfl (by decide) (fun _ _ _ h => h.1) (fun _ _ _ h => h) (fun _ _ _ _ => rfl) (fun _ _ _ h => h.2.2.1)
      (fun p => saved_unseen tallyCfgRec (fun _ _ => rfl) 1 p) ?_
    rintro v p s t ⟨-, hout, -, hrsv⟩ hopts
    exact pass_of_all (by simp [hout, hopts, rsv, hrsv])
  case band =>
    refine saves_fixed 40 (fun _ _ => rfl) rfl (by decide) (fun _ _ _ h => h.1) (fun _ _ _ h => h) (fun _ _ _ _ => rfl) (fun _ _ _ h => h.2.2.2.2.1)
      (fun p => saved_unseen (fun t => bandRec t (u8 p 0)) (fun _ _ => rfl) 3 p) ?_
    rintro v p s t ⟨-, hindex, hen, hlbt, -, hlow, hup, hle, hlim, hlim', hres, hmax, hbw, hbw', hlis, hmin, htry, htry', hrsv⟩ hopts
    exact pass_of_all (by
      simp [hindex, hen, hlbt, hopts, hlow, hup, hle, hlim, hlim', hres, hmax, hbw, hbw', hlis, hmin, htry, htry', rsv, hrsv, bandCfgOf])
  case clear =>
    refine sets_fixed 4 (fun _ _ => rfl) rfl (by decide) (fun _ _ _ h => h.1) (fun _ _ _ h => h) ?_
    rintro v p s t ⟨-, hindex, hrsv, hmode⟩ -
    rw [tallyClear, guardR_pass _ (pass_of_all (by simp [hindex, rsv, hrsv])), if_neg (by simp [hmode])]
    by_cases h : u8 p 0 = 0xFF <;> simp [h]

/-- Settles O24: as O23. -/
theorem queueAndFlowSettings : Obligations.QueueAndFlowSettings := by
  refine ⟨?queue, ?cfg, ?flush, ?flow, ?shaper⟩
  case queue =>
    refine saves_fixed 8 (fun _ _ => rfl) rfl (by decide) (fun _ _ _ h => h.1) (fun _ _ _ h => h) (fun _ _ _ _ => rfl) (fun _ _ _ h => h.2.2.2.1)
      (fun p => saved_unseen (fun t => queueRec t (u16 p 0)) (fun _ _ => rfl) 3 p) ?_
    rintro v p s t ⟨-, hqueue, hkind, -, hlimit⟩ hopts
    exact pass_of_all (by simp [hqueue, hkind, hopts, hlimit])
  case cfg =>
    refine saves_fixed 4 (fun _ _ => rfl) rfl (by decide) (fun _ _ _ h => h.1) (fun _ _ _ h => h) (fun _ _ _ _ => rfl) (fun _ _ _ h => h.2.2.1)
      (fun p => saved_unseen qmCfgRec (fun _ _ => rfl) 2 p) ?_
    rintro v p s t ⟨-, hcells, -, hrsv⟩ hopts
    exact pass_of_all (by simp [hcells, hopts, rsv, hrsv])
  case flush =>
    refine sets_fixed 4 (fun _ _ => rfl) rfl (by decide) (fun _ _ _ h => h.1) (fun _ _ _ h => h) ?_
    rintro v p s t ⟨-, hqueue, hrsv⟩ -
    exact guardR_pass _ (by simp [hqueue, rsv, hrsv])
  case flow =>
    refine saves_fixed 12 (fun _ _ => rfl) rfl (by decide) (fun _ _ _ h => h.1) (fun _ _ _ h => h) (fun _ _ _ _ => rfl)
      (fun _ _ _ h => h.2.2.2.2.2.2.2.2.1) (fun p => saved_unseen (fun t => flowRec t (u16 p 0)) (fun _ _ => rfl) 9 p) ?_
    rintro v p s t ⟨-, hflow, hen, hstrict, hweight, hqueue, htaken, hshaper, -, hrsv⟩ hopts
    have htaken' : (u8 p 2 == 1 && queueTaken t (u16 p 0) (u16 p 6)) = false := by
      by_cases h : u8 p 2 = 1 <;> simp [h, htaken]
    exact pass_of_all (by simp [hflow, hen, hstrict, hweight, hqueue, htaken', hshaper, hopts, rsv, hrsv])
  case shaper =>
    refine saves_fixed 12 (fun _ _ => rfl) rfl (by decide) (fun _ _ _ h => h.1) (fun _ _ _ h => h) (fun _ _ _ _ => rfl) (fun _ _ _ h => h.2.2.2.1)
      (fun p => saved_unseen (fun t => shaperRec t (u8 p 0)) (fun _ _ => rfl) 2 p) ?_
    rintro v p s t ⟨-, hindex, hen, -, hr3, hr6, hlo, hhi⟩ hopts
    have hhi' : u32 p 8 < 1048576 := hhi
    exact pass_of_all (by simp [hindex, hen, hopts, rsv, hr3, hr6, hlo, hhi'])

end Sys2Proof.Machine

/-! ### Requests that change the block at once or begin its work: keys, power, flash, update, RTC and port (R410 to R597) -/

namespace Sys2Proof.Machine

/-- No flash write of the command fails. -/
@[simp] theorem failAt_none {c : Ctx} (h : c.wFail = none) (k : Nat) : c.failAt k = none := by simp [Ctx.failAt, h]

/-! ### Keys and the cipher engine (R410 to R419, R433 to R438) -/

/-- An entered key stands in its slot and in its record, its counter at the next reserve. -/
theorem enterKey_stored {c : Ctx} (h : c.wFail = none) (k : Nat) (x : KeySlot) (fc : Nat) (s : State) :
    enterKey c k x fc s =
      okR (putRecord k { slot := x, fcReserved := nextReserve fc, damaged := false }
          (putCtr k { KeyCounter.zero with fc := fc, fcReserved := nextReserve fc } (putSlot k x s)))
        (keyRec (putRecord k { slot := x, fcReserved := nextReserve fc, damaged := false }
          (putCtr k { KeyCounter.zero with fc := fc, fcReserved := nextReserve fc } (putSlot k x s))) k) := by
  simp [enterKey, h]

/-- Settles O25: checks, then the change of a slot or the job of the engine; the ranges of HASH_RUN depend on where the data lies. -/
theorem cipherCommands : Obligations.CipherCommands := by
  refine ⟨?usage, ?generate, ?run, ?rng, ?hash, ?verify⟩
  case usage =>
    refine sets_fixed 4 (fun _ _ => rfl) rfl (by decide) (fun _ _ _ h => h.1) (fun _ _ _ h => h) ?_
    rintro v p s t ⟨-, hlo, hhi, hstate, hnew, hwithin, hrsv, hwrite⟩ -
    simp only [keyUsageSet]
    rw [guardR_pass _ (pass_of_all (by simp [hlo, hhi, hstate, hnew, hwithin, rsv, hrsv])), failAt_none hwrite]
  case generate =>
    refine sets_fixed 24 (fun _ _ => rfl) rfl (by decide) (fun _ _ _ h => h.1) (fun _ _ _ h => h) ?_
    rintro v p s t ⟨-, hlo, hhi, hstate, htype, horigin, hallowed, husage, hrsv, hlabel, hhalt, hwrite⟩ -
    have hlabel' : (if u8 p 2 = 0 then zeros p 8 16 else u8 p 8 != 0xFF) = true := by
      by_cases h : u8 p 2 = 0 <;> simpa [h] using hlabel
    have hallowed' : within (BitVec.ofNat 8 (u8 p 3)) 0x38#8 = true := hallowed
    simp only [keyGenerate]
    rw [guardR_pass _ (pass_of_all (by simp [hlo, hhi, hstate, htype, horigin, hallowed', husage, rsv, hrsv, hlabel'])), hhalt,
      if_neg (by decide), enterKey_stored hwrite]
  case run =>
    refine starts_fixed 48 (fun _ _ => rfl) rfl (by decide) (fun _ _ _ h => h.1) (fun _ _ _ h => h) ?_
    rintro v p s t k ⟨-, hchecks, hhalt⟩ - hfree
    rw [cipherRun, guardR_pass _ hchecks, hhalt, if_neg (by decide), pendR_held _ hfree]
  case rng =>
    refine yields_of (getC 0x0A21 4) (fun _ _ => rfl) rfl (fun _ _ _ h => fix_ok h.1 (by decide)) rfl rfl (fun _ _ _ h => h) ?_
    rintro v p s ⟨-, hlo, hhi, hrsv, hhalt⟩
    rw [rngGet, guardR_pass _ (by simp [hlo, hhi, rsv, hrsv]), hhalt]
    rfl
  case hash =>
    refine starts_fixed 12 (fun _ _ => rfl) rfl (by decide) (fun _ _ _ h => h.1) (fun _ _ _ h => h) ?_
    rintro v p s t k ⟨-, hrsv, hplace⟩ - hfree
    simp only [hashRun]
    rcases hplace with ⟨hram, hlo, hhi⟩ | ⟨hflash, hsize, hfirst, hall⟩
    · have hlo' : u32 p 4 ≤ 0x8000 := by omega
      rw [guardR_pass _ (pass_of_all (by simp [hram, hlo, hlo', hhi, rsv, hrsv])), pendR_held _ hfree]
    · rw [guardR_pass _ (pass_of_all (by simp [hflash, hsize, hfirst, hall, rsv, hrsv])), pendR_held _ hfree]
  case verify =>
    refine starts_fixed 160 (fun _ _ => rfl) rfl (by decide) (fun _ _ _ h => h) (fun _ _ _ h => h) ?_
    rintro v p s t k - - hfree
    rw [sigVerify, pendR_held _ hfree]

/-! ### Power and flash (R469 to R472, R513 to R518) -/

/-- A command whose checks all pass counts no refusal. -/
theorem refusedR_pending {op : Nat} {v : Srv} {s t : State} {k off : Nat} (go : Nat → State) (h : freeSlot t = some k) :
    refusedR (pendR (ctxOf op v s) t go) off = ⟨heldSlot op v k s (go k), stPENDING, k, []⟩ := by
  rw [pendR_held _ h, refusedR, if_neg]
  rintro ⟨h, -⟩
  simp [stPENDING, stPARAM] at h

/-- Settles O26: as O23 and O25. -/
theorem powerAndFlashCommands : Obligations.PowerAndFlashCommands := by
  refine ⟨?cfg, ?read, ?program, ?erase⟩
  case cfg =>
    refine saves_fixed 16 (fun _ _ => rfl) rfl (by decide) (fun _ _ _ h => h.1) (fun _ _ _ h => h) (fun _ _ _ _ => rfl) ?_
      (fun p => saved_unseen pwrCfgRec (fun _ _ => rfl) 12 p) ?_
    · rintro v p s ⟨-, -, -, -, -, -, -, -, -, -, -, -, -, hsv, -⟩
      exact hsv
    · rintro v p s t ⟨-, hnet, hnbr, hpool, hlo, hhi, hwake, hrtc, hwatch, hr7, hdlo, hdhi, hhost, -, hr13⟩ hopts
      exact pass_of_all (by simp [hnet, hnbr, hpool, hlo, hhi, hwake, hrtc, hwatch, rsv, hr7, hdlo, hdhi, hhost, hopts, hr13])
  case read =>
    refine yields_of (getC 0x0B10 8) (fun _ _ => rfl) rfl (fun _ _ _ h => fix_ok h.1 (by decide)) rfl rfl (fun _ _ _ h => h) ?_
    rintro v p s ⟨-, hlo, hhi, hrsv, hreads⟩
    simp only [flashReadCmd]
    rw [guardR_pass _ (pass_of_all (by simp [hlo, hhi, hreads, rsv, hrsv]))]
    rfl
  case program =>
    refine starts_of ⟨0x0B11, false, true, ⟨8, 240, 8, 1, 4, 2⟩⟩ (fun _ _ => rfl) rfl ?_ rfl rfl (fun _ _ _ h => h) ?_
    · rintro v p s ⟨hlen, -, -, hlo, hhi, -⟩
      exact ⟨counted_ok (by rw [hlen, u16_unle, Nat.one_mul]) (by omega) (by omega), by omega⟩
    · rintro v p s k ⟨-, halign, hblock, hlo, hhi, hunits, hend, hverify, hrsv⟩ hfree
      simp only [flashProgram]
      rw [guardR_pass _ (pass_of_all (by simp [halign, hblock, hlo, hhi, hunits, hend, hverify, rsv, hrsv])), refusedR_pending _ hfree]
  case erase =>
    refine starts_fixed 4 (fun _ _ => rfl) rfl (by decide) (fun _ _ _ h => h.1) (fun _ _ _ h => h) ?_
    rintro v p s t k ⟨-, hlo, hhi, hverify, hblocks⟩ - hfree
    have hblocks' : ((List.range (min (u8 p 2) 16)).all fun i => mailboxBlock t (u16 p 0 + i)) = true := by rwa [Nat.min_eq_left hhi]
    simp only [flashErase]
    rw [guardR_pass _ (by simp only [List.forall_mem_cons, hblocks', hlo, hhi, hverify]; simp), refusedR_pending _ hfree]

/-! ### Staging an image (R529 to R534, R541 to R546) -/

/-- The owner of the staging area, while the area's state accepts its command. -/
theorem stageOk_owned {c : Ctx} {s : State} {need : StageState → Bool} (hown : s.upd.owner = some c.req) (hneed : need s.upd.state = true) :
    stageOk c s need = true := by
  simp [stageOk, hown, hneed]

/-- The state of the staging area goes to flash, and the command goes on. -/
theorem storeState_stored {c : Ctx} (h : c.wFail = none) (s : State) (go : Unit → Res) : storeState c s go = go () := by
  simp [storeState, h]

/-- Settles O27: the owner passes, and the rest is what the core does with octets that agree with those already there. -/
theorem updateCommands : Obligations.UpdateCommands := by
  refine ⟨?start, ?write, ?check, ?back, ?discard⟩
  case start =>
    refine starts_fixed 8 (fun _ _ => rfl) rfl (by decide) (fun _ _ _ h => h.1) (fun _ _ _ h => h) ?_
    rintro v p s t k ⟨-, hlo, hhi, hrsv, hstate⟩ howner hfree
    rw [updateStageBegin, guardR_pass _ (by simp [hlo, hhi, rsv, hrsv])]
    rcases hstate with h | h | h <;> simp only [h, pendR_held _ hfree, ctxOf_req, howner]
  case write =>
    refine sets_of ⟨0x0C11, false, true, ⟨8, 240, 8, 1, 4, 2⟩⟩ (fun _ _ => rfl) rfl ?_ rfl rfl (fun _ _ _ h => h) ?_
    · rintro v p s ⟨hlen, -, hlo, hhi, -⟩
      exact ⟨counted_ok (by rw [hlen, u16_unle, Nat.one_mul]) (by omega) (by omega), by omega⟩
    · rintro v p s ⟨-, halign, hlo, hhi, hunits, hrsv, hown, hstate, hend, hwrite, hagree, hnew⟩
      have hstage : stageOk (ctxOf 0x0C11 v s) (taken s) (fun x => x == .receiving || x == .verified) = true :=
        stageOk_owned hown (by simpa using hstate)
      have hnot : ((List.range (u16 p 4 / 16)).all fun i => tget false (u32 p 0 / 16 + i) (taken s).upd.units) = false := by
        simpa [← List.not_any_eq_all_not] using hnew
      have hok : ((List.range (u16 p 4 / 16)).any fun i => !unitAgrees (taken s) (u32 p 0) (slice p 8 (u16 p 4)) i) = false := by
        simpa using hagree
      simp only [updateStageWrite]
      rw [guardR_pass _ (pass_of_all (by simp [halign, hlo, hhi, hunits, rsv, hrsv])), hstage, hnot, hok, failAt_none hwrite]
      simp only [Bool.not_true, Bool.false_eq_true, if_false, Bool.false_and, if_neg (Nat.not_lt.2 hend)]
      rfl
  case check =>
    refine starts_fixed 0 (fun _ _ => rfl) rfl (by decide) (fun _ _ _ h => h.1) (fun _ _ _ h => h) ?_
    rintro v p s t k ⟨-, hown, hstate⟩ howner hfree
    rw [updateStageCheck, stageOk_owned (by rw [hown, ctxOf_req, howner]) (by simp [hstate]), pendR_held _ hfree]
    rfl
  case back =>
    refine sets_fixed 4 (fun _ _ => rfl) rfl (by decide) (fun _ _ _ h => h.1) (fun _ _ _ h => h) ?_
    rintro v p s t ⟨-, hkind, hrsv, hown, hstate, hwrite⟩ howner
    simp only [updateCancel]
    rw [guardR_pass _ (by simp [hkind, rsv, hrsv]), stageOk_owned (by rw [hown, ctxOf_req, howner]) (by simpa [hkind] using hstate), storeState_stored hwrite]
    simp [hkind]
  case discard =>
    refine sets_fixed 4 (fun _ _ => rfl) rfl (by decide) (fun _ _ _ h => h.1) (fun _ _ _ h => h) ?_
    rintro v p s t ⟨-, hkind, hrsv, hown, hnot, hnot', hwrite⟩ howner
    simp only [updateCancel]
    rw [guardR_pass _ (by simp [hkind, rsv, hrsv]), stageOk_owned (by rw [hown, ctxOf_req, howner]) (by simp [hkind, hnot, hnot']), storeState_stored hwrite]
    simp [hkind]

/-! ### The RTC (R557 to R566) -/

/-- Settles O28: the composed time of RTC_TIME_SET exists, so the commit answers OK. -/
theorem rtcCommands : Obligations.RtcCommands := by
  refine ⟨?time, ?alarm, ?flags⟩
  case time =>
    refine sets_fixed 16 (fun _ _ => rfl) rfl (by decide) (fun _ _ _ h => h.1) (fun _ _ _ h => h) ?_
    rintro v p s t ⟨-, hmask, hr1, hr11, hr15, hdate⟩ -
    simp only [rtcTimeSet]
    rw [guardR_pass _ (pass_of_all (by simp [hmask, rsv, hr1, hr11, hr15]))]
    simp only [hdate]
  case alarm =>
    refine sets_fixed 12 (fun _ _ => rfl) rfl (by decide) (fun _ _ _ h => h.1) (fun _ _ _ h => h) ?_
    rintro v p s t ⟨-, halarm, hen, hmask, hr3, hchecks, hr11⟩ -
    simp only [rtcAlarmSet]
    rw [guardR_pass _ (List.forall_mem_append.2 ⟨List.forall_mem_append.2
      ⟨pass_of_all (by simp [halarm, hen, hmask, rsv, hr3]), hchecks⟩, pass_of_all (by simp [rsv, hr11])⟩)]
  case flags =>
    refine sets_fixed 4 (fun _ _ => rfl) rfl (by decide) (fun _ _ _ h => h.1) (fun _ _ _ h => h) ?_
    rintro v p s t ⟨-, hflags, hrsv⟩ -
    exact guardR_pass _ (pass_of_all (by simp [hflags, rsv, hrsv]))

/-! ### The commissioning port (R582, R588 to R597) -/

/-- The port's settings go to flash and count as a write of it. -/
theorem systemWrite_written {c : Ctx} (h : c.wFail = none) (s : State) (body : List Byte) : systemWrite c (okR s body) = okR (portWritten s) body := by
  simp [systemWrite, h, okR]

/-- Blocks that are all written leave no failure. -/
theorem portWrites_all (k : Nat) (l : List (Nat × List Byte)) (s : State) : (portWrites none k l s).2 = true := by
  induction l generalizing k s with
  | nil => rfl
  | cons b l ih => exact ih (k + 1) _

/-- Settles O29: behind the lock the settings and the blocks are written. -/
theorem portCommands : Obligations.PortCommands := by
  refine ⟨?cfg, ?mem, ?cred⟩
  case cfg =>
    refine sets_fixed 4 (fun _ _ => rfl) rfl (by decide) (fun _ _ _ h => h.1) (fun _ _ _ h => h) ?_
    rintro v p s t ⟨-, hgrant, hlo, hhi, hflags, hrsv, ⟨happ, hfield⟩, hwrite⟩ -
    simp only [portCfgSet, systemArea]
    rw [guardR_pass _ (pass_of_all (by simp [hgrant, hlo, hhi, hflags, rsv, hrsv])), portHeld_free _ happ hfield, systemWrite_written hwrite]
    rfl
  case mem =>
    refine starts_of ⟨0x0E11, false, true, ⟨4, 240, 4, 32, 1, 1⟩⟩ (fun _ _ => rfl) rfl ?_ rfl rfl (fun _ _ _ h => h) ?_
    · rintro v p s ⟨hlen, -, hlo, hhi, -⟩
      exact ⟨counted_ok (by rw [hlen, u8_unle]) (by omega) (by omega), by omega⟩
    · rintro v p s k ⟨-, hfirst, hlo, hhi, hend, hrsv, hgrant⟩ hfree
      have hreq : (ctxOf 0x0E11 v s).req ≠ .port := chanOwner_ne_port s v.ch
      rw [portMemWrite, if_neg hreq, guardR_pass _ (by simp [memRange, hfirst, hlo, hhi, hend, rsv, hrsv]), if_neg hgrant, pendR_held _ hfree]
  case cred =>
    refine sets_fixed 0 (fun _ _ => rfl) rfl (by decide) (fun _ _ _ h => h.1) (fun _ _ _ h => h) ?_
    rintro v p s t ⟨-, ⟨happ, hfield⟩, hgrant, hwrite⟩ -
    simp only [portCredClear, wireSide, ctxOf_wFail, hwrite, Option.map_none]
    rw [guardR_pass _ (by simp), portHeld_free _ happ hfield, portWrites_all]
    simp [hgrant]

end Sys2Proof.Machine

/-! ### Requests with a trailer (R51 to R58) -/

namespace Sys2Proof.Machine

/-- A critical request of `n` octets with a right trailer and a fresh counter. -/
theorem setsAuth_fixed {i : Srv → Instr} {op : Nat} {core : CoreFn} {ok : Srv → List Byte → State → Prop} {run : Srv → List Byte → State → State}
    {body : List Byte → State → State → List Byte} (n : Nat) (hi : ∀ v s, exec (i v) s = .next (serve op core v s)) (hc : cmdOf op = some (critC op n))
    (hn : n ≤ 232) (hl : ∀ v p s, ok v p s → p.length = n)
    (hb : ∀ v p s t, ok v p t → chanOwner s v.ch = chanOwner t v.ch → firmwareServes t = true → core (ctxAuth op v s) p t = okR (run v p t) (body p t (run v p t))) :
    SetsAuth i op ok run body :=
  setsAuth_of (critC op n) hi hc (fun v p s h => fix_ok_auth (hl v p s h) hn) rfl hb

/-- Both copies of an option block go to flash (R73). -/
theorem optionStore_stored {c : Ctx} (h : c.wFail = none) (b : OptBlock) (s : State) (done : State → Res) :
    optionStore c b s done = done (updBoot (fun x => { x with copy1 := b, copy2 := b, optBase := some b }) s) := by
  simp only [optionStore, failAt_none h]
  cases s.boot.optCopy == 2 <;> rfl

/-- Settles O30: with flash writes that succeed, a critical command of the list is its checks and then the change. -/
theorem criticalSystemAndKeys : Obligations.CriticalSystemAndKeys := by
  refine ⟨?lock, ?debug, ?option, ?counter, ?keyIn, ?retire⟩
  case lock =>
    refine setsAuth_fixed 4 (fun _ _ => rfl) rfl (by decide) (fun _ _ _ h => h.1) ?_
    rintro v p s t ⟨-, hmask, hservice, hmode, hrsv, hwrite⟩ - -
    simp only [modeLock]
    rw [guardR_pass _ (pass_of_all (by simp [hmask, hservice, hmode, rsv, hrsv])), optionStore_stored hwrite]
  case debug =>
    refine setsAuth_fixed 4 (fun _ _ => rfl) rfl (by decide) (fun _ _ _ h => h.1) ?_
    rintro v p s t ⟨-, hlo, hhi, hrsv⟩ - -
    simp only [debugUnlock]
    rw [guardR_pass _ (by simp [hlo, hhi, rsv, hrsv])]
  case option =>
    refine setsAuth_of ⟨0x0131, true, true, ⟨5, 232, 4, 1, 2, 2⟩⟩ (fun _ _ => rfl) rfl ?_ rfl ?_
    · rintro v p s ⟨hlen, hlo, hhi, -⟩
      exact ⟨counted_ok (by rw [hlen, u16_unle, Nat.one_mul]) hlo hhi, hhi⟩
    · rintro v p s t ⟨-, -, -, hstart, hwrite, hfit⟩ - -
      simp only [optionWrite]
      rw [guardR_pass _ (by simp [hstart]), hfit]
      exact optionStore_stored hwrite _ _ _
  case counter =>
    intro r
    refine setsAuth_fixed 8 (fun _ _ => rfl) rfl (by decide) (fun _ _ _ h => h.1) ?_
    rintro v p s t ⟨-, hwho, rfl, hrsv, hraise, hwrite⟩ - -
    simp only [counterRaise]
    rw [guardR_pass _ (pass_of_all (by simp [hwho, rsv, hrsv, hraise])), failAt_none hwrite]
  case keyIn =>
    intro x
    refine setsAuth_fixed 56 (fun _ _ => rfl) rfl (by decide) (fun _ _ _ h => h.1) ?_
    rintro v p s t ⟨-, hr3, hr5, hlo, hhi, hfree, hkek, hpermits, hsize, hpad, hhalt, hunwrap, htype, hattr, hfc, hallowed, hcommand, husage, hwrite⟩ - -
    have hlen : u8 p 4 = 32 ∨ u8 p 4 = 48 := hsize.imp id And.left
    have h15 : u8 p 4 - 16 + 1 = u8 p 4 - 15 := by omega
    have h14 : u8 p 4 - 16 + 2 = u8 p 4 - 14 := by omega
    have h12 : u8 p 4 - 16 + 4 = u8 p 4 - 12 := by omega
    have hkekType : (u8 p 4 != 48 || decide ((slotOf t (u8 p 1)).type = 2)) = true := by
      rcases hsize with h | ⟨h, htype2⟩
      · simp [h]
      · simp [htype2]
    have hcommand' : (u8 p 0 != 1 || (u8 x (u8 p 4 - 16) == 1 && BitVec.ofNat 8 (u8 x (u8 p 4 - 15)) == (0x40 : BitVec 8))) = true := by
      by_cases h : u8 p 0 = 1
      · obtain ⟨h1, h2⟩ := hcommand h
        simp [h1, h2]
      · simp [h]
    have hattrs : (u8 x (u8 p 4 - 16) == (if u8 p 4 = 32 then 1 else 2) && zeros x (u8 p 4 - 14) 2 && unbe (slice x (u8 p 4 - 12) 4) != 0xFFFFFFFF &&
        within (BitVec.ofNat 8 (u8 x (u8 p 4 - 15))) (usageLimit (u8 x (u8 p 4 - 16)) (u8 p 0)) &&
        (u8 p 0 != 1 || (u8 x (u8 p 4 - 16) == 1 && BitVec.ofNat 8 (u8 x (u8 p 4 - 15)) == (0x40 : BitVec 8)))) = true := by
      rw [hcommand', hallowed, hattr, beq_iff_eq.2 htype, bne_iff_ne.2 hfc]
      rfl
    simp only [keyImport]
    rw [guardR_pass _ (pass_of_all (by simp [rsv, hr3, hr5, hlo, hhi, hfree, hkek, hpermits, hkekType, hlen, hpad])), hhalt, if_neg (by decide), hunwrap]
    simp only [h15, h14, h12, hattrs, husage, Bool.not_true, Bool.false_eq_true, if_false]
    exact enterKey_stored hwrite _ _ _ _
  case retire =>
    refine setsAuth_fixed 4 (fun _ _ => rfl) rfl (by decide) (fun _ _ _ h => h.1) ?_
    rintro v p s t ⟨-, hlo, hhi, hstate, hrsv, hwrite⟩ - -
    simp only [keyRetire]
    rw [guardR_pass _ (pass_of_all (by simp [hlo, hhi, hstate, rsv, hrsv])), failAt_none hwrite, failAt_none hwrite]

theorem returnModeOk_iff (m : Nat) : returnModeOk m = true ↔ m ≤ 5 ∨ m = 0xFF := by simp [returnModeOk]

/-- Where no image has been found broken, nothing waits for a commit (R537). -/
theorem endWait_unbroken {s : State} (bad : Option Nat) (h : s.upd.broken = none) : endWait bad s = s := by
  simp [endWait, h]

/-- What flash holds is in the flash unit alone. -/
theorem flashBytes_updBoot (f : Boot → Boot) (s : State) (n : Nat) : ∀ a, flashBytes (updBoot f s) a n = flashBytes s a n := by
  induction n with
  | zero => exact fun _ => rfl
  | succ n ih => exact fun a => congrArg (flashByte s a :: ·) (ih (a + 1))

theorem updateRec_updBoot (f : Boot → Boot) (s : State) : updateRec (updBoot f s) = updateRec s := by
  have happ : appVersion (updBoot f s) = appVersion s := by rw [appVersion, appVersion, flashBytes_updBoot]
  have hcard : cardCode (updBoot f s) = cardCode s := rfl
  rw [updateRec, updateRec, happ, hcard]
  rfl

/-- Settles O31: as O30; an update is its owner's, and the port's areas stand behind its lock. -/
theorem criticalUpdateAndPort : Obligations.CriticalUpdateAndPort := by
  refine ⟨?commit, ?schedule, ?pw, ?unlock⟩
  case commit =>
    refine setsAuth_fixed 4 (fun _ _ => rfl) rfl (by decide) (fun _ _ _ h => h.1) ?_
    rintro v p s t ⟨-, hnow, hback, hrsv, hown, hstate, hsched, hbroken, hwrite⟩ howner hserves
    simp only [updateCommit]
    rw [guardR_pass _ (pass_of_all (by simp [hnow, (returnModeOk_iff _).2 hback, rsv, hrsv])),
      stageOk_owned (by rw [hown, ctxAuth_req, howner]) (by simp [hstate]), hsched, storeState_stored hwrite, endWait_unbroken _ (by split <;> exact hbroken)]
    simp only [Bool.not_true, Bool.false_eq_true, if_false]
    rw [if_pos (by split <;> exact hserves)]
    simp only [returnModeOf]
    split
    · rw [updateRec_updBoot]
    · rfl
  case schedule =>
    refine setsAuth_fixed 12 (fun _ _ => rfl) rfl (by decide) (fun _ _ _ h => h.1) ?_
    rintro v p s t ⟨-, hback, hr1, hr11, hown, hstate, hosf, hdate, hlater, hwrite⟩ howner -
    simp only [updateSchedule]
    rw [guardR_pass _ (pass_of_all (by simp [(returnModeOk_iff _).2 hback, rsv, hr1, hr11])),
      stageOk_owned (by rw [hown, ctxAuth_req, howner]) (by simpa using hstate), hosf, storeState_stored hwrite]
    simp only [Bool.not_true, Bool.false_eq_true, if_false, hdate, Bool.false_or, decide_eq_true_eq, if_neg (Nat.not_le.2 hlater)]
    rfl
  case pw =>
    refine setsAuth_fixed 20 (fun _ _ => rfl) rfl (by decide) (fun _ _ _ h => h.1) ?_
    rintro v p s t ⟨-, hindex, hlo, hhi, hrsv, ⟨happ, hfield⟩, hwrite⟩ - -
    simp only [portPwSet, systemArea]
    rw [guardR_pass _ (pass_of_all (by simp [hindex, hlo, hhi, rsv, hrsv])), portHeld_free _ happ hfield, systemWrite_written hwrite]
    rfl
  case unlock =>
    refine setsAuth_fixed 4 (fun _ _ => rfl) rfl (by decide) (fun _ _ _ h => h.1) ?_
    rintro v p s t ⟨-, hindex, hset, hrsv, ⟨happ, hfield⟩, hwrite⟩ - -
    simp only [portPwUnlock, systemArea]
    rw [guardR_pass _ (pass_of_all (by simp [hindex, hset, rsv, hrsv])), portHeld_free _ happ hfield, systemWrite_written hwrite]
    rfl

end Sys2Proof.Machine

/-! ### The mailbox, its events and the host port (R37 to R40, R58 to R63, R79 to R82) -/

namespace Sys2Proof.Machine

theorem unle_lt (l : List Byte) : unle l < 256 ^ l.length := by
  induction l with
  | nil => simp [unle]
  | cons b r ih =>
    have hb := b.isLt
    rw [unle, List.length_cons, Nat.pow_succ]
    omega

/-- The octets of a number that octets make up. -/
theorem le_unle (l : List Byte) : le l.length (unle l) = l := by
  induction l with
  | nil => rfl
  | cons b r ih =>
    have hb := b.isLt
    have hdiv : (b.toNat + 256 * unle r) / 256 = unle r := by omega
    have hmod : BitVec.ofNat 8 (b.toNat + 256 * unle r) = b := BitVec.eq_of_toNat_eq (by rw [BitVec.toNat_ofNat]; omega)
    rw [List.length_cons, unle, le, hdiv, ih, hmod]

/-- A word holds four octets. -/
theorem le_word_unle (a b c d : Byte) : le 4 (BitVec.ofNat 32 (unle [a, b, c, d])).toNat = [a, b, c, d] := by
  have hlt : unle [a, b, c, d] < 2 ^ 32 := by simpa using unle_lt [a, b, c, d]
  rw [BitVec.toNat_ofNat, Nat.mod_eq_of_lt hlt]
  exact le_unle [a, b, c, d]

/-- What is read of RAM as a number gives its octets again. -/
theorem le_unle_rdBytes (s : State) (a k : Nat) : le k (unle (rdBytes s a k)) = rdBytes s a k := by
  have hlen : (rdBytes s a k).length = k := by
    induction k generalizing a with
    | zero => rfl
    | succ k ih => rw [rdBytes, List.length_cons, ih]
  have h := le_unle (rdBytes s a k)
  rwa [hlen] at h

section
variable {n o : Nat} {s : State}

/-- No buffer of a channel that is not BUSY refuses a write. -/
theorem busyBuffer_idle (ho : o < 0x200) (hb : at_ .idle s.mbx.chan n ≠ .busy) : busyBuffer s (reqBuf n + o) = none := by
  have hch : (0x200 * n + o) / 0x200 = n := by omega
  have hbusy : chanBusy s n = false := by simp [chanBusy, hb]
  rw [busyBuffer, reqBuf_add_sub_sharedBase, hch, hbusy, if_neg (by simp)]

theorem ramWrite_idle (l : List Byte) (ho : o < 0x200) (hb : at_ .idle s.mbx.chan n ≠ .busy) :
    ramWrite (reqBuf n + o) l s = wrBytes s (reqBuf n + o) l := by
  rw [ramWrite, busyBuffer_idle ho hb]

/-- A channel of the host's is the host's with both its buffers. -/
theorem hostOwnsBuffer_channel (hn : n < 8) (ho : o < 0x200) (hh : chanOwner s n = .host) : hostOwnsBuffer s (0x200 * n + o) = true := by
  have hch : (0x200 * n + o) / 0x200 = n := by omega
  simp only [hostOwnsBuffer, hch, hh, beq_self_eq_true, Bool.and_true, decide_eq_true_eq]
  omega

end

/-! ### A read by the host port (R79 to R81) -/

/-- R79: the header of a read of shared RAM at offset `a`. -/
def readHeader (a : Nat) : List Byte := 0x00#8 :: be 3 a

section
variable {a : Nat}

theorem length_readHeader : (readHeader a).length = 4 := by rw [readHeader, List.length_cons, length_be]

theorem sdiAddr_readHeader (ha : a < 2 ^ 24) : sdiAddr (readHeader a) = a := by
  have haddr : slice (readHeader a) 1 3 = be 3 a := (slice_append_right [0x00#8] (be 3 a) 1 3 (by simp)).trans (slice_self _ _ (length_be 3 a).symm)
  rw [sdiAddr, haddr, unbe_be]
  exact Nat.mod_eq_of_lt ha

theorem u8_readHeader : u8 (readHeader a) 0 = 0 := rfl

theorem sdiOp_readHeader : sdiOp (readHeader a) = 0 := by rw [sdiOp, u8_readHeader]

theorem sdiSpace_readHeader : sdiSpace (readHeader a) = 0 := by rw [sdiSpace, u8_readHeader]

theorem headerOk_readHeader (ha : a < 2 ^ 24) (h4 : a % 4 = 0) : headerOk (readHeader a) 0 = true := by
  simp [headerOk, length_readHeader, sdiOp_readHeader, sdiSpace_readHeader, sdiAddr_readHeader ha, h4]

/-- R81: a transaction that reads one word of a buffer the host owns. -/
theorem exec_hostReadTransaction_word {s : State} (ha : a < 2 ^ 24) (h4 : a % 4 = 0) (hm : mayAccess s .host = true)
    (hcs : s.hostp.cs = false) (ho : hostOwnsBuffer s a = true) :
    exec (.hostReadTransaction (readHeader a) 1 false) s =
      .next { s with freeCtr := s.freeCtr + 1, hostp := { s.hostp with
        err := false, sdo := [BitVec.ofNat 8 (hostStatus s), 0, 0, 0] ++ List.replicate (Config.free s.freeCtr % 3) 0 ++ 0x01#8 ::
          rdBytes s (sharedBase + a) 4 } } := by
  have hends : hostEnds s = s := by simp [hostEnds, hcs]
  have hread : hostReads 0 1 a true { s with freeCtr := s.freeCtr + 1 } =
      ({ s with freeCtr := s.freeCtr + 1 }, rdBytes s (sharedBase + a) 4, true, false) := by
    have ho' : hostOwnsBuffer { s with freeCtr := s.freeCtr + 1 } a = true := ho
    simp only [hostReads, hostRead, ho', if_true, le_unle_rdBytes, List.append_nil, Bool.and_true]
    rfl
  change execHostReadTransaction _ _ _ s = _
  simp only [execHostReadTransaction, hm, hends, sdiOp_readHeader, sdiSpace_readHeader, headerOk_readHeader ha h4, sdiAddr_readHeader ha, fresh, hread]
  rfl

end

/-- R59 to R61: an event channel that is idle takes the first event of its queue, and a completion event frees its slot. -/
theorem eventWrite_first {ch : Nat} {e : Ev} {r : List Ev} {s : State} (hch : ch = 6 ∨ ch = 7) (hactive : ch = 7 → ch7Active s = true)
    (hq : (evq s (ch == 7)).events = e :: r) (hserves : firmwareServes s = true) (hidle : at_ .idle s.mbx.chan ch = .idle) :
    eventWrite ch s =
      updMbx (fun m => { m with chan := m.chan.set ch .done,
                                pend := match e.kind with | .completion slot => m.pend.filter (fun p => p.slot != slot) | _ => m.pend })
        (wrBytes (setEvq s (ch == 7) { evq s (ch == 7) with events := r, lost := 0, seq := ((evq s (ch == 7)).seq + 1) % 65536 }) (rspBuf ch)
          (eventMessage e (evq s (ch == 7)).seq (evq s (ch == 7)).lost)) := by
  have hoff : ¬ ((ch ≠ 6 ∧ ch ≠ 7) ∨ ((ch == 7) && !ch7Active s) = true ∨ (!firmwareServes s) = true ∨ at_ .idle s.mbx.chan ch ≠ .idle) := by
    rintro (⟨h6, h7⟩ | h | h | h)
    · exact hch.elim h6 h7
    · simp at h
      exact absurd (hactive h.1) (by simp [h.2])
    · simp [hserves] at h
    · exact h hidle
  simp only [eventWrite]
  rw [if_neg hoff, hq] <;> rfl

/-- Settles O32: an access reaches the RAM or the register it names; an event goes out as the first of its queue. -/
theorem mailboxSteps : Obligations.MailboxSteps := by
  refine ⟨?app, ?host, ?ien, ?flags, ?hostWrite, ?hostRead, ?six, ?seven, ?lockout⟩
  case app =>
    intro n i v s hn hi ha hb
    rw [exec_requestBufferWrite_reqBuf hn (by omega) (by simp [sizeBytes]) ha (by simp), ramWrite_idle _ (by omega) hb]
    rfl
  case host =>
    intro n i v s hn hi ha hb hown
    rw [exec_requestBufferWrite_reqBuf hn (by omega) (by simp [sizeBytes]) ha (fun _ => ⟨rfl, hown⟩), ramWrite_idle _ (by omega) hb]
    rfl
  case ien =>
    intro who v s ha
    change execRegisterWrite who _ v s = _
    cases who <;> simp only [execRegisterWrite, ha] <;> rfl
  case flags =>
    intro who v s ha
    change execRegisterWrite who _ v s = _
    cases who <;> simp only [execRegisterWrite, ha] <;> rfl
  case hostWrite =>
    intro n i a b c d s hn hi ha hcs hown hb
    have hstep := exec_hostWriteTransaction_word a b c d (a := 0x200 * n + 4 * i) (s := s) (by omega) (by omega) ha hcs
      (hostOwnsBuffer_channel (by omega) (by omega) hown)
    rw [← Nat.add_assoc, le_word_unle] at hstep
    refine hstep.trans ?_
    rw [show sharedBase + 0x200 * n + 4 * i = reqBuf n + 4 * i from rfl, ramWrite_idle _ (by omega) hb]
    rfl
  case hostRead =>
    intro n i s hn hi ha hcs hown
    rw [Nat.add_assoc sharedBase]
    exact exec_hostReadTransaction_word (a := 0x200 * n + 4 * i) (by omega) (by omega) ha hcs (hostOwnsBuffer_channel hn (by omega) hown)
  case six =>
    intro e r s hq hserves hidle
    exact congrArg Host.Outcome.next (eventWrite_first (.inl rfl) (by simp) hq hserves hidle)
  case seven =>
    intro e r s hq hactive hserves hidle
    exact congrArg Host.Outcome.next (eventWrite_first (.inr rfl) (fun _ => hactive) hq hserves hidle)
  case lockout => exact fun _ _ => rfl

end Sys2Proof.Machine

/-! ### Surveys, delayed resets, mode changes and shots (R69, R72, R77, R78, R85 to R108, R446) -/

namespace Sys2Proof.Machine

section
variable (s : State)

/-- Either branch leaves everything but the mailbox. -/
theorem ite_onlyMbx {s t u : State} {b : Prop} [Decidable b] (ht : ∃ m, t = { s with mbx := m }) (hu : ∃ m, u = { s with mbx := m }) :
    ∃ m, (if b then t else u) = { s with mbx := m } := by
  split
  · exact ht
  · exact hu

theorem setEvq_onlyMbx (seven : Bool) (q : EvQueue) : ∃ m, setEvq s seven q = { s with mbx := m } := by
  cases seven <;> exact ⟨_, rfl⟩

/-- An event changes its queue alone. -/
theorem enqueue_onlyMbx (seven : Bool) (e : Ev) : ∃ m, enqueue seven e s = { s with mbx := m } := by
  rw [enqueue]
  exact ite_onlyMbx (setEvq_onlyMbx ..) (setEvq_onlyMbx ..)

/-- The completion of a pending command changes its slot and its event queue alone. -/
theorem complete_onlyMbx (slot st det : Nat) (r : List Byte) : ∃ m, complete slot st det r s = { s with mbx := m } := by
  unfold complete
  split
  · exact ⟨s.mbx, rfl⟩
  · obtain ⟨m, hm⟩ := enqueue_onlyMbx _ _ _
    exact ⟨m, hm⟩

@[simp] theorem complete_boot (slot st det : Nat) (r : List Byte) : (complete slot st det r s).boot = s.boot := by
  obtain ⟨m, hm⟩ := complete_onlyMbx s slot st det r
  rw [hm]

@[simp] theorem complete_pwr (slot st det : Nat) (r : List Byte) : (complete slot st det r s).pwr = s.pwr := by
  obtain ⟨m, hm⟩ := complete_onlyMbx s slot st det r
  rw [hm]

/-- Whether the network core runs is a matter of the start-up and of the power phase. -/
theorem netRuns_of {t : State} (hboot : t.boot = s.boot) (hpwr : t.pwr = s.pwr) : netRuns t = netRuns s := by
  rw [netRuns, netRuns, hboot, hpwr]

theorem resume_running {s : State} (h : netRuns s = true) : resume s = linkKick s := by rw [resume, if_pos h]

/-- The end of a shot leaves the network core as it is. -/
theorem netRuns_shotEnd (n : Nat) (applied : Bool) (st det swap us est edet : Nat) : netRuns (shotEnd n applied st det swap us est edet s) = netRuns s :=
  netRuns_of s ((complete_boot _ _ _ _ _).trans rfl) ((complete_pwr _ _ _ _ _).trans rfl)

end

/-- A step that ends in one branch of a condition. -/
theorem next_if_pos {c : Prop} [Decidable c] {s t u : State} (hc : c) (h : t = u) : (.next (if c then t else s) : Out) = .next u := by
  rw [if_pos hc, h]

theorem next_if_neg {c : Prop} [Decidable c] {s t u : State} (hc : ¬ c) (h : t = u) : (.next (if c then s else t) : Out) = .next u := by
  rw [if_neg hc, h]

/-- A trigger that falls while the network core runs wakes nothing. -/
theorem shotFalls_running {s : State} {n : Nat} (h : netRuns s = true) :
    shotFalls n s = updShot n (fun b => { b with state := .quiescing, trigAt := s.clk.mtime, begun := false, saving := false }) s := by
  rw [shotFalls, if_pos h]
  rfl

/-- Settles O33: each step is one branch of its definition. -/
theorem surveyShotAndDrainSteps : Obligations.SurveyShotAndDrainSteps := by
  refine ⟨?ends, ?unit, ?capture, ?timeout, ?sys, ?ldr, ?act, ?drained, ?drainTimeout, ?trigger, ?frame, ?quiesce, ?swap, ?bound, ?stored, ?failed⟩
  case ends =>
    intro v s hsurvey hcaptured hserves hroom hunits
    change execSurveyRecord s = _
    simp only [execSurveyRecord, hsurvey, hcaptured, hserves, hunits, decide_eq_false (Nat.not_le.2 hroom)]
    rfl
  case unit =>
    intro v us s hsurvey hcaptured hserves hroom hunits hpart hconsistent hlen
    change execSurveyRecord s = _
    simp only [execSurveyRecord, hsurvey, hcaptured, hserves, hunits, decide_eq_false (Nat.not_le.2 hroom)]
    have hmore : ¬ 216 < (linkSurvey s).length := Nat.not_lt.2 hlen
    simp [surveyPart, hpart, hconsistent, hcaptured, unitBody, hmore, List.take_of_length_le hlen]
  case capture =>
    intro v s hsurvey hconsistent hcaptured hnet hunits hradio hlink
    change execSurveyCapture s = _
    simp only [execSurveyCapture, hsurvey, hconsistent, hcaptured, hunits, List.all_cons, List.all_nil, hradio, hlink]
    exact congrArg Host.Outcome.next (resume_running hnet)
  case timeout =>
    intro v u us s hsurvey hconsistent hcaptured hnet hunits hbusy
    change execSurveyQuiesceTimeout s = _
    simp only [execSurveyQuiesceTimeout, hsurvey, hconsistent, hcaptured, hunits, List.find?_cons, hbusy]
    exact congrArg Host.Outcome.next (resume_running hnet)
  case sys =>
    intro s h
    change execResetDelayExpiry s = _
    simp only [execResetDelayExpiry, h]
  case ldr =>
    intro s h
    change execResetDelayExpiry s = _
    simp only [execResetDelayExpiry, h]
  case act =>
    intro s h
    change execResetDelayExpiry s = _
    simp only [execResetDelayExpiry, h]
  case drained =>
    intro d s hdrain hflight hexchange htarget
    change execModeDrainEnd s = _
    simp only [execModeDrainEnd, hdrain, hflight, hexchange, if_neg htarget]
    rfl
  case drainTimeout =>
    intro d s hdrain
    change execModeDrainTimeout s = _
    simp only [execModeDrainTimeout, hdrain]
    rfl
  case trigger =>
    intro n s hstate hdue hnet
    exact congrArg Host.Outcome.next ((if_pos (by simp [hstate, hdue])).trans (shotFalls_running hnet))
  case frame =>
    intro n s hstate htrig hnet
    exact congrArg Host.Outcome.next ((if_pos (by simp [hstate, htrig])).trans (shotFalls_running hnet))
  case quiesce =>
    intro n s hnext hwalk
    change execShotQuiesceStart n s = _
    simp only [execShotQuiesceStart, hnext, hwalk]
    rfl
  case swap =>
    intro n a m v s hshot
    have hstate : (shotOf s n).state = .quiescing := by rw [hshot]
    have hbegun : (shotOf s n).begun = true := by rw [hshot]
    have hsaving : (shotOf s n).saving = false := by rw [hshot]
    have hcut : (shotOf s n).rxCut = false := by rw [hshot]
    have hpersist : (shotOf s n).persist = false := by rw [hshot]
    have hentries : (shotOf s n).entries = [.reg a m v] := by rw [hshot]
    have hunits : ((maskUnits (unitMask [.reg a m v])).all (unitQuiesced s (some (shotOf s n)))) = true := by
      have hmask : unitMask [Entry.reg a m v] = 2 := by simp [unitMask, Entry.unit]
      rw [hmask, show maskUnits 2 = [1] from by decide]
      rfl
    change execShotSwap n s = _
    simp only [execShotSwap, hstate, hbegun, hsaving, hcut, hpersist, hentries, hunits]
    refine next_if_neg (by simp) ?_
    simp only [Bool.false_eq_true, if_false, List.foldl_cons, List.foldl_nil, applyEntry]
  case bound =>
    intro n s hstate hsaving hnet
    change execShotBoundExpiry n s = _
    simp only [execShotBoundExpiry, hstate, hsaving]
    exact congrArg Host.Outcome.next (resume_running ((netRuns_shotEnd ..).trans hnet))
  case stored =>
    intro n s hstate hsaving
    change execShotPersistDone n none s = _
    simp only [execShotPersistDone, hstate, hsaving]
    rfl
  case failed =>
    intro n k s hstate hsaving
    change execShotPersistDone n (some k) s = _
    simp only [execShotPersistDone, hstate, hsaving]
    rfl

end Sys2Proof.Machine

/-! ### The radio's calibrations, measurements, transitions and transmissions (R118 to R146) -/

namespace Sys2Proof.Machine

/-- A reading within the range of the scale stands as it is (R144). -/
theorem rssiAt_within {s : State} {raw : Int} (hlo : -280 ≤ raw - s.radio.ext.offA) (hhi : raw - s.radio.ext.offA ≤ -20) :
    rssiAt s 0 raw = (raw - s.radio.ext.offA, 0) := by
  have h1 : ¬ raw - s.radio.ext.offA < -280 := Int.not_lt.2 hlo
  have h2 : ¬ -20 < raw - s.radio.ext.offA := Int.not_lt.2 hhi
  simp only [rssiAt, if_true, clampI, if_neg h1, if_neg h2]

/-- A reading below the scale is clamped and says so. -/
theorem rssiAt_below {s : State} {raw : Int} (h : raw - s.radio.ext.offA < -280) : rssiAt s 0 raw = (-280, 1) := by
  simp only [rssiAt, if_true, clampI, if_pos h]

/-- No segment is due for a calibration while the radio does not receive. -/
theorem recalDue_not_rx {s : State} (h : s.radio.state ≠ .rx) : recalDue s = false := by simp [recalDue, h]

section
variable {m : Measure} {s : State}

theorem exec_rssiMeasureEnd {raw v : Int} {k : Nat} (hm : s.radio.rssi = some m) (hstate : s.radio.state = .rx) (hgoal : s.radio.goal = none)
    (hant : m.ant = 0) (hv : rssiAt s 0 raw = (v, k)) :
    exec (.rssiMeasureEnd raw) s = .next (radioKick (complete m.slot 0 0 (lei 2 v ++ le 1 k ++ le 1 0 ++ le 8 m.start)
      { s with radio := { s.radio with rssi := none } })) := by
  change execRssiMeasureEnd raw s = _
  simp only [execRssiMeasureEnd, hm, hant, hv]
  exact congrArg Host.Outcome.next (if_neg (by simp [hstate, hgoal]))

end

/-- Settles O34: each step is one branch of its definition. -/
theorem radioSteps : Obligations.RadioSteps := by
  refine ⟨?calDone, ?rssi, ?rssiLow, ?cca, ?test, ?transition, ?calSeg, ?calLock, ?lockOnce, ?lockTwice, ?temp, ?auto, ?wait, ?home, ?ack, ?frame, ?sent,
    ?asked, ?acked, ?late, ?cut, ?switch⟩
  case calDone =>
    intro slot n s h
    change execRadioCalDone s = _
    simp only [execRadioCalDone, h]
    rfl
  case rssi => exact fun m raw s hm hstate hgoal hant hlo hhi => exec_rssiMeasureEnd hm hstate hgoal hant (rssiAt_within hlo hhi)
  case rssiLow => exact fun m raw s hm hstate hgoal hant hlow => exec_rssiMeasureEnd hm hstate hgoal hant (rssiAt_below hlow)
  case cca =>
    intro m rawA rawB s hm hstate hgoal hvariant hant hlo hhi
    have hmean : ccaMean s 0 rawA rawB = (rawA - s.radio.ext.offA, 0) := by
      simp only [ccaMean, if_neg hvariant, if_true, rssiAt_within hlo hhi]
    change execCcaListenEnd rawA rawB s = _
    simp only [execCcaListenEnd, hm, hant, hmean]
    exact next_if_neg (by simp [hstate, hgoal]) rfl
  case test =>
    intro t q s ht hq hwho
    change execTestTxEnd s = _
    simp only [execTestTxEnd, ht, hq]
    exact next_if_pos hwho rfl
  case transition =>
    intro g s hgoal hsleep hrx
    change execRadioTransitionDone s = _
    simp only [execRadioTransitionDone, hgoal, bne_iff_ne.2 hsleep, bne_iff_ne.2 hrx, Bool.and_true]
    rfl
  case calSeg =>
    intro code slot seg n s hstate hjob
    change execCalEnd code s = _
    simp only [execCalEnd, hjob]
    exact next_if_neg (by simp [hstate]) rfl
  case calLock =>
    intro code s hstate hjob
    change execCalEnd code s = _
    simp only [execCalEnd, hjob]
    refine next_if_neg (by simp [hstate]) ?_
    rw [updRadio]
    simp only [hjob]
  case lockOnce =>
    intro s hlocking hsecond
    change execLockTimeout s = _
    simp only [execLockTimeout]
    exact next_if_neg (by simp [hlocking]) (if_pos (by simp [hsecond]))
  case lockTwice =>
    intro s hlocking hsecond
    change execLockTimeout s = _
    simp only [execLockTimeout]
    exact next_if_neg (by simp [hlocking]) (if_neg (by simp [hsecond]))
  case temp =>
    intro temp s hsleep hrx
    have hdue : recalDue (updRadio (fun r => { r with temp := temp }) s) = false := recalDue_not_rx hrx
    change execTempMeasure temp s = _
    simp only [execTempMeasure, hdue]
    exact next_if_neg hsleep rfl
  case auto => exact fun s hdue hexchange => next_if_pos (by simp [hdue, hexchange]) rfl
  case wait => exact fun s hdue hwait => next_if_pos (by simp [hdue, hwait]) rfl
  case home =>
    exact fun s hretune hexchange => next_if_pos (by simp [hretune, hexchange]) (if_neg (by simp [hexchange]))
  case ack =>
    intro q id vbat temp s hq hcan hwho hvbat
    change execTxStart vbat temp s = _
    simp only [execTxStart, hq, Nat.mod_eq_of_lt hvbat, beginSender, hwho]
    exact next_if_neg (by simp [hcan]) rfl
  case frame =>
    intro q id vbat temp s hq hcan hwho hvbat
    change execTxStart vbat temp s = _
    simp only [execTxStart, hq, Nat.mod_eq_of_lt hvbat, beginSender, hwho]
    exact next_if_neg (by simp [hcan]) rfl
  case sent =>
    intro q id s hq hwho har
    change execTxEnd s = _
    simp only [execTxEnd, hq, hwho, har]
    rfl
  case asked =>
    intro q id s hq hwho har
    change execTxEnd s = _
    simp only [execTxEnd, hq, hwho, har]
    rfl
  case acked =>
    intro q id s hq hwho
    change execTxEnd s = _
    simp only [execTxEnd, hq, hwho]
    rfl
  case late =>
    intro q s hq hlate
    change execTxLate s = _
    simp only [execTxLate, hq]
    refine next_if_pos hlate ?_
    simp only [abandonTold, hq]
  case cut =>
    intro lane a rssiA rssiB s hvariant hmode hstate hphy hother ha
    have hblocked : ((List.range 16).any fun i => i != lane && (at_ Lane.reset s.lanes.lane i).frame.isSome) = false := hother
    refine next_if_neg (fun h => h.elim hvariant fun h => h.elim hmode fun h => h.elim (absurd hstate) hphy) ?_
    simp only [hblocked, Nat.mod_eq_of_lt ha]
    rfl
  case switch =>
    intro lane rssiA rssiB s hvariant hmode hstate hphy hother hant hbetter
    have hblocked : ((List.range 16).any fun i => i != lane && (at_ Lane.reset s.lanes.lane i).frame.isSome) = false := hother
    refine next_if_neg (fun h => h.elim hvariant fun h => h.elim hmode fun h => h.elim (absurd hstate) hphy) ?_
    simp only [hblocked, hant, if_true, decide_eq_true hbetter]
    simp only [updRadio, hant]
    rfl

end Sys2Proof.Machine

/-! ### References, oscillators and supplies (R26 to R36, R112, R477, R480, R498, R553, R670, R679) -/

namespace Sys2Proof.Machine

/-- Settles O35: each step is one branch of its definition. -/
theorem clockAndSupplySteps : Obligations.ClockAndSupplySteps := by
  refine ⟨?refFail, ?refRetry, ?xordy, ?pllBack, ?pllBoot, ?lfxrdy, ?scal, ?mtime, ?vioLoss, ?vioReturn, ?backup, ?noBackup, ?fast, ?slow, ?erase⟩
  case refFail =>
    intro s hroot hair hheld hawait howed
    have hlost : exchangeLost (abandonTold (airLost s)) = s := by simp only [airLost, hair, abandonTold, hheld, exchangeLost, hawait, howed]
    refine next_if_pos hroot ?_
    simp only [refFails, hlost]
  case refRetry => exact fun s hfailed hnet => next_if_pos (by simp [hfailed, hnet]) rfl
  case xordy => exact fun s hstage => next_if_pos hstage rfl
  case pllBack =>
    intro env s hstage hfailed hxordy hroot
    refine congrArg Host.Outcome.next ((if_neg hstage).trans ((if_pos ?_).trans rfl))
    simp [hfailed, hxordy, hroot]
  case pllBoot => exact fun env s hstage hkind => congrArg Host.Outcome.next ((if_pos hstage).trans (if_neg hkind))
  case lfxrdy =>
    intro s haon hmode
    change execLfxrdy s = _
    simp only [execLfxrdy, beq_false_of_ne hmode]
    exact next_if_neg (by simp [haon]) rfl
  case scal =>
    intro count s hroot hlfx hcount
    refine next_if_pos (by simp [hroot, hlfx]) ?_
    rw [Nat.mod_eq_of_lt hcount]
    rfl
  case mtime => exact fun s hmay => next_if_pos hmay rfl
  case vioLoss => exact fun _ => rfl
  case vioReturn => exact fun _ => rfl
  case backup => exact fun s hbackup => next_if_pos hbackup rfl
  case noBackup => exact fun s hbackup => next_if_neg (by simp [hbackup]) rfl
  case fast =>
    intro s hlfx hruns hxordy hphase
    refine congrArg Host.Outcome.next ((if_neg ?_).trans ((if_pos ?_).trans rfl))
    · simp [hlfx, hruns]
    · simp [hxordy, hphase]
  case slow =>
    intro s hlfx hruns hxordy hunstarted hphase
    refine congrArg Host.Outcome.next ((if_neg ?_).trans ((if_neg ?_).trans ((if_neg ?_).trans ?_)))
    · simp [hlfx, hruns]
    · simp [hxordy]
    · simp [hunstarted]
    · simp [updClk, hxordy, hphase]
  case erase =>
    intro plane o r s hplane
    change (.next (suspendErase plane s) : Out) = _
    simp only [suspendErase, hplane]
    rfl

end Sys2Proof.Machine

/-! ### The lanes and the canary (R164 to R244) -/

namespace Sys2Proof.Machine

/-- Settles O36: each step is one branch of its definition. -/
theorem laneAndCanarySteps : Obligations.LaneAndCanarySteps := by
  refine ⟨?sof, ?header, ?noHeader, ?lost, ?reset, ?fcsBad, ?fcsGood, ?clipA, ?clipB, ?sent, ?preamble, ?violation, ?crc, ?again, ?unicast, ?told, ?blank⟩
  case sof =>
    intro lane path stamp coded s hvariant hstate hstopped hfrozen hstamp
    have hshaft : ¬ s.dev.variant = .shaft := by rw [hvariant]; decide
    have hpath : lanePath s lane path = s.radio.ant := if_neg hshaft
    have hagc : agcFreeze 0 s = s := if_pos hfrozen
    change execLaneSofDetect lane path coded stamp s = _
    simp only [execLaneSofDetect, hpath, if_neg hshaft, hagc, Nat.mod_eq_of_lt hstamp]
    exact next_if_neg (by simp [hstate, hstopped]) rfl
  case header =>
    intro lane f white len s hframe hphy hnone hlen
    have hout : headerOutcome (laneOf s lane).cfg (.fsk true false false white len) = some (id, some (len.toNat, white, 0)) := by
      simp [headerOutcome, hphy, Nat.not_lt.2 hlen]
    change execLaneHeader lane _ s = _
    simp only [execLaneHeader, hframe, hout]
    exact next_if_neg (by simp [hnone]) rfl
  case noHeader =>
    intro lane f ms fcs2 white len s hframe hphy hnone
    have hout : headerOutcome (laneOf s lane).cfg (.fsk false ms fcs2 white len) = some (id, none) := by
      simp [headerOutcome, hphy]
    change execLaneHeader lane _ s = _
    simp only [execLaneHeader, hframe, hout]
    exact next_if_neg (by simp [hnone]) rfl
  case lost =>
    intro lane f energy s hframe hphy hweak
    change execSeamPilotBlock lane true energy s = _
    simp only [execSeamPilotBlock, hframe]
    exact next_if_neg (by simp [hphy]) (if_pos (by simp [hweak]))
  case reset =>
    intro lane f s hframe hphy hcfg
    change execSeamPilotBlock lane false true s = _
    simp only [execSeamPilotBlock, hframe, hcfg]
    refine next_if_neg (by simp [hphy]) ((if_neg (by simp)).trans ?_)
    simp [laneStat]
  case fcsBad =>
    intro lane f r s hframe hlen hbad hack
    change execLaneFcsResult lane r s = _
    simp only [execLaneFcsResult, hframe, hack]
    exact next_if_neg (by simp [hlen]) (congrArg linkKick (if_pos (by simp [hbad])))
  case fcsGood =>
    intro lane f r s hframe hlen hgood hvariant hcopy
    have hcopy' : isCopy (updRadio (fun x => { x with heard := true })
        (laneStat lane (fun x => { x with rxOk := inc32 x.rxOk, pathB := x.pathB }) s)) (unle (r.psdu.drop (r.psdu.length - 4))) f.stamp = false := hcopy
    change execLaneFcsResult lane r s = _
    simp only [execLaneFcsResult, hframe, beq_false_of_ne hvariant, Bool.false_and, Bool.false_eq_true, if_false, hcopy']
    exact next_if_neg (by simp [hlen]) (congrArg linkKick (if_neg (by simp [hgood])))
  case clipA => exact fun s hruns => next_if_neg (by simp [hruns]) rfl
  case clipB =>
    intro path s hruns hpath
    refine next_if_neg (by simp [hruns]) ?_
    simp only [if_neg hpath]
    rfl
  case sent =>
    intro q w s hair hsend hwho hresync
    change execCanarySendEnd s = _
    simp only [execCanarySendEnd, hair, hsend, hresync]
    exact next_if_pos hwho rfl
  case preamble => exact fun s hruns hphase hquiet => next_if_neg (by simp [hruns, hphase, hquiet]) rfl
  case violation => exact fun s hruns hphase => next_if_pos (by simp [hruns, hphase]) rfl
  case crc =>
    intro r s hruns hphase hcrc
    exact next_if_neg (by simp [hruns, hphase]) (congrArg (updCanary Canary.endSequence) (if_pos hcrc))
  case again =>
    intro r s hruns hphase hcrc hrepeat
    exact next_if_neg (by simp [hruns, hphase]) (congrArg (updCanary Canary.endSequence) ((if_neg (Classical.not_not.2 hcrc)).trans (if_pos hrepeat)))
  case unicast =>
    intro r s hruns hphase hcrc hrepeat hkind
    change execCanarySequenceEnd r s = _
    simp only [execCanarySequenceEnd, hkind]
    refine next_if_neg (by simp [hruns, hphase]) (congrArg (updCanary Canary.endSequence) ?_)
    rw [if_neg (Classical.not_not.2 hcrc), if_neg (by simp [hrepeat]), if_neg (by decide)]
    rfl
  case told =>
    intro s hdue hnet hkind hevents
    refine next_if_pos (by simp [hdue, hnet]) ?_
    simp only [canaryServed, hevents, if_true]
    exact if_neg hkind
  case blank => exact fun s hphase hair => next_if_pos (by simp [hphase, hair]) rfl

end Sys2Proof.Machine

/-! ### The link and mesh time (R254 to R320) -/

namespace Sys2Proof.Machine

/-- Settles O37: each step is one branch of its definition. -/
theorem linkAndTimingSteps : Obligations.LinkAndTimingSteps := by
  refine ⟨?joinAgain, ?joinOver, ?badFrame, ?otherNet, ?collide, ?micGood, ?micBad, ?hold, ?badDesc, ?taken, ?acked, ?noAck, ?retry, ?drop, ?step, ?calEmpty,
    ?calOne, ?opened, ?skipped, ?closed, ?keepalive, ?resyncBeacon, ?resync, ?listenEnd⟩
  case joinAgain =>
    intro j t s hjoin hleft hat hsend
    change execJoinReqInterval s = _
    simp only [execJoinReqInterval, hjoin, hsend]
    exact next_if_neg (by simp [hleft, hat]) rfl
  case joinOver =>
    intro j s hjoin hend hflight
    change execJoinTimeout s = _
    simp only [execJoinTimeout, hjoin]
    refine next_if_pos hend (congrArg linkKick ?_)
    simp only [joinEnd, hjoin, hflight, List.filter_nil, List.foldl_nil]
  case badFrame =>
    intro n x s hx hphase hack hparse
    change execFrameReceive n s = _
    simp only [execFrameReceive, hx]
    refine next_if_neg (Classical.not_not.2 hphase) ((if_neg (by simp [hack])).trans (congrArg linkKick ?_))
    simp only [receiveFrame, hparse]
  case otherNet =>
    intro n x f s hx hphase hack hparse hreq hreply hnet
    change execFrameReceive n s = _
    simp only [execFrameReceive, hx]
    refine next_if_neg (Classical.not_not.2 hphase) ((if_neg (by simp [hack])).trans (congrArg linkKick ?_))
    simp only [receiveFrame, hparse]
    exact if_pos ⟨hnet, by simp [hreq, hreply]⟩
  case collide =>
    intro n x f s hx hparse hdue hopen hcollide
    change execAckDecision n s = _
    simp only [execAckDecision, hx, hparse]
    exact next_if_pos hdue (congrArg linkKick ((if_pos hcollide).trans (if_neg hopen)))
  case micGood =>
    intro n x f g s hx hparse hphase hquiet hsec hopen
    change execMicResult n .none s = _
    simp only [execMicResult, hx, hparse]
    refine next_if_pos (by simp [hphase, hquiet]) (congrArg linkKick ?_)
    simp only [micEnds, readEcc, hsec, hopen, Bool.false_eq_true, if_false, if_true]
  case micBad =>
    intro n x f g s hx hparse hphase hquiet hsec hnone hopen
    change execMicResult n .none s = _
    simp only [execMicResult, hx, hparse]
    refine next_if_pos (by simp [hphase, hquiet]) (congrArg linkKick ?_)
    have hlate : (x.ack == AckPhase.committed) = false := by rw [hnone]; rfl
    simp only [micEnds, readEcc, hsec, hopen, hlate, Bool.false_eq_true, if_false, if_true]
  case hold =>
    intro h s hhold hat
    change execPendHoldEnd s = _
    simp only [execPendHoldEnd, hhold]
    exact next_if_pos hat rfl
  case badDesc =>
    intro flow r s hfind hmodes hworking hue hhop
    change execLinkTakeFrame flow .none s = _
    simp only [execLinkTakeFrame, hfind, readEcc, hhop]
    exact next_if_neg (by simp [hmodes, hworking]) (if_neg (by simp [hue]))
  case taken =>
    intro flow i lim r s t hfind hmodes hworking hue hhop
    have hhop' : hopOf (updLink (fun l => { l with released := l.released.erase r }) s) r.packet.bytes = .nbr i lim := hhop
    change execLinkTakeFrame flow .none s = _
    simp only [execLinkTakeFrame, hfind, readEcc, hhop']
    exact next_if_neg (by simp [hmodes, hworking]) (if_neg (by simp [hue]))
  case acked =>
    intro n id x s hx hwait hphase hack
    change execAckReceive n s = _
    simp only [execAckReceive, hx, hwait]
    exact next_if_pos ⟨hphase, hack⟩ rfl
  case noAck =>
    intro id s hwait
    change execAckWaitExpiry s = _
    simp only [execAckWaitExpiry, hwait]
  case retry =>
    intro n t f s hf hphase hat
    change execRetryBackoffEnd n s = _
    simp only [execRetryBackoffEnd, hf, hphase]
    exact next_if_pos hat rfl
  case drop =>
    intro s hroute hpast
    refine next_if_neg ?_ (by simp)
    rintro (⟨-, h, -⟩ | h)
    · exact hroute h
    · simp [hpast] at h
  case step =>
    intro d src s hstep hexchange
    change execMtimeStep s = _
    simp only [execMtimeStep, hstep]
    exact next_if_neg (by simp [hexchange]) rfl
  case calEmpty =>
    intro s hquiet hwanted
    refine next_if_neg (by simp [hquiet]) ?_
    simp only [hwanted, List.map_nil, updTiming]
  case calOne =>
    intro at_ k s hquiet hwanted hsoon
    refine next_if_neg (by simp [hquiet]) ?_
    simp only [hwanted, List.map_cons, List.map_nil, hsoon, Bool.true_or, updTiming]
  case opened =>
    intro k s hnext hwindow hlisten hworking hdrain hexchange hfrom hlate
    change execOwnWindowOpen s = _
    simp only [execOwnWindowOpen, hnext]
    refine next_if_neg (by simp [hwindow, hworking, hdrain, hfrom]) ((if_neg (by simp [hlate])).trans
      ((if_neg (by simp [hlisten])).trans ((if_neg (by simp [hexchange])).trans rfl)))
  case skipped =>
    intro k s hnext hwindow hlisten hworking hdrain hexchange hfrom hlate
    change execOwnWindowOpen s = _
    simp only [execOwnWindowOpen, hnext]
    exact next_if_neg (by simp [hwindow, hworking, hdrain, hfrom]) ((if_neg (by simp [hlate])).trans
      ((if_neg (by simp [hlisten])).trans ((if_pos hexchange).trans rfl)))
  case closed =>
    intro w s hwindow hpast hexchange hrx hflag
    change execOwnWindowClose s = _
    simp only [execOwnWindowClose, hwindow]
    exact next_if_neg (by simp [hpast, hexchange, hrx]) (congrArg linkKick (if_pos (by simp [updTiming, hflag])))
  case keepalive =>
    intro i t s hflag hstate hrdv hkeep hperiod hmodes hworking hbusy hflight hsoon hsend
    change execKeepaliveBeacon i s = _
    simp only [execKeepaliveBeacon, hsend]
    exact next_if_neg (by simp [hflag, hstate, hrdv, hkeep, hperiod, hmodes, hworking]) (if_neg (by simp [hsoon, hflight, hbusy]))
  case resyncBeacon =>
    intro i r t s hr hstage hdue hbeacons hmodes hworking hflight hsend
    change execResyncBeacon i s = _
    simp only [execResyncBeacon, hr, hsend]
    exact next_if_neg (by simp [hstage, hdue, hbeacons, hmodes, hworking, hflight]) rfl
  case resync =>
    intro i r s hr hstage hdue hworking
    change execResyncInterval i s = _
    simp only [execResyncInterval, hr]
    exact next_if_pos ⟨hstage, hdue, hworking⟩ rfl
  case listenEnd =>
    intro l s hlisten hat
    change execResyncListenEnd s = _
    simp only [execResyncListenEnd, hlisten]
    exact next_if_pos hat rfl

end Sys2Proof.Machine

/-! ### The tally, the queues and the scheduler (R336 to R399) -/

namespace Sys2Proof.Machine

/-- The place and the size in the word that pushes a packet or lands one (R359, R362). -/
theorem queueWord_fields {waddr n : Nat} (hw : waddr < 8192) (hn : n < 4096) :
    (BitVec.ofNat 32 (waddr + 2 ^ 13 * n)).toNat < 2 ^ 25 ∧ bits (BitVec.ofNat 32 (waddr + 2 ^ 13 * n)).toNat 0 13 = waddr ∧
      bits (BitVec.ofNat 32 (waddr + 2 ^ 13 * n)).toNat 13 12 = n := by
  have hlt : waddr + 2 ^ 13 * n < 2 ^ 32 := by omega
  rw [BitVec.toNat_ofNat, Nat.mod_eq_of_lt hlt]
  simp only [bits]
  omega

/-- Where no read waits, a packet that comes serves none. -/
theorem serveStalls_none {q : Nat} {s : State} (h : s.qm.stalls = []) : serveStalls q s = s := by
  simp [serveStalls, h]

section
variable {q waddr n : Nat} {s : State}

/-- R359: a push that the queue admits takes the lowest free cells. -/
theorem pushWrite_admitted (hlo : 0x400 ≤ waddr) (hw : waddr < 8192) (hn : 8 ≤ n) (hn' : n ≤ 2112) (hend : waddr * 4 + n ≤ 0x8000)
    (hwhole : (queueOf s q).broken = false) (hadmits : admits s q (cellsFor n) = true) :
    pushWrite q (BitVec.ofNat 32 (waddr + 2 ^ 13 * n)) s =
      linkPacket q { cells := (allocCells (cellsFor n) s).2, bytes := rdBytes s (sharedBase + 4 * waddr) n, ue := false }
        (qmStat (fun x => { x with pushOk := inc32 x.pushOk }) (allocCells (cellsFor n) s).1) := by
  obtain ⟨hword, haddr, hsize⟩ := queueWord_fields hw (n := n) (by omega)
  simp only [pushWrite, haddr, hsize]
  rw [if_neg (by simp [hwhole]; omega), if_neg (by simp [hadmits])]

/-- R359: a push from outside the shared RAM is refused. -/
theorem pushWrite_outside (hw : waddr < 0x400) (hn : n < 4096) :
    pushWrite q (BitVec.ofNat 32 (waddr + 2 ^ 13 * n)) s =
      qmStat (fun x => { x with pushBad := inc32 x.pushBad }) (updQueue q (fun x => { x with badPush := true }) s) := by
  obtain ⟨hword, haddr, hsize⟩ := queueWord_fields (waddr := waddr) (n := n) (by omega) hn
  simp only [pushWrite, haddr, hsize]
  rw [if_pos (.inl hw)]

/-- R362: a landing within the shared RAM is taken. -/
theorem landWrite_taken (m : Master) (hlo : 0x400 ≤ waddr) (hw : waddr < 8192) (hn : 1 ≤ n) (hn' : n < 4096) (hend : waddr * 4 + n ≤ 0x8000) :
    landWrite m q (BitVec.ofNat 32 (waddr + 2 ^ 13 * n)) s =
      updQueue q (fun x => match m with | .app => { x with landApp := some (waddr, n) } | .host => { x with landHost := some (waddr, n) }) s := by
  obtain ⟨hword, haddr, hsize⟩ := queueWord_fields hw hn'
  simp only [landWrite, haddr, hsize]
  rw [if_neg (by omega), if_neg (by omega), if_neg (by omega)] <;> cases m <;> rfl

/-- R361: a packet that fits its landing is copied there, and its cells are free again. -/
theorem popRead_landed {m : Master} {cap : Nat} {p : Packet} {rest : List Packet} (hkind : (queueOf s q).kind ≠ 1) (hwhole : (queueOf s q).broken = false)
    (hpackets : (queueOf s q).packets = p :: rest) (hland : landing s m q = some (waddr, cap)) (hfits : p.bytes.length ≤ cap) (hue : p.ue = false) :
    popRead m q .none none s =
      (updQm (fun m => { m with stats := { m.stats with popOk := inc32 m.stats.popOk } })
        (releaseCells p.cells (updQueue q (fun x => { x with packets := rest }) (wrBytes s (sharedBase + 4 * waddr) (wholeWords p.bytes)))), some p.bytes.length) := by
  simp only [popRead, if_neg hkind, hwhole, hpackets, popHead, hland, if_neg (Nat.not_lt.2 hfits), readEcc, hue]
  rfl

end

/-- Settles O38: each step is one branch of its definition. -/
theorem flowSteps : Obligations.FlowSteps := by
  refine ⟨?roll, ?clear, ?busy, ?backoff, ?refused, ?push, ?pushBad, ?pop, ?landing, ?stall, ?idle, ?release, ?refill, ?wheel, ?blocked⟩
  case roll => exact fun s hlfx hclock => next_if_pos (by simp [hlfx, hclock]) rfl
  case clear =>
    intro q b rssiA rssiB s hheld hphase hstate hgoal hband hclear
    change execLbtListenEnd rssiA rssiB s = _
    simp only [execLbtListenEnd, hheld, hband]
    exact next_if_neg (by simp [hphase, hstate, hgoal]) (if_pos hclear)
  case busy =>
    intro q b rssiA rssiB s hheld hphase hstate hgoal hband htimed htries hbusy
    change execLbtListenEnd rssiA rssiB s = _
    simp only [execLbtListenEnd, hheld, hband]
    exact next_if_neg (by simp [hphase, hstate, hgoal]) ((if_neg (Int.not_lt.2 hbusy)).trans ((if_neg (by simp [htimed]; omega)).trans rfl))
  case backoff => exact fun q s hheld hphase hat => next_if_pos (by simp [hheld, hphase, hat]) rfl
  case refused => exact fun s hbands hpast => next_if_neg (by simp [hbands, hpast]) rfl
  case push =>
    intro who q waddr n s hmay hq hlo hw hn hn' hend hwhole hadmits hstalls
    refine next_if_pos hmay ((if_pos (decide_eq_true hq)).trans ?_)
    rw [pushWrite_admitted hlo hw hn hn' hend hwhole hadmits, linkPacket]
    exact congrArg linkKick (serveStalls_none hstalls)
  case pushBad =>
    intro who q waddr n s hmay hq hw hn
    refine next_if_pos hmay ((if_pos (decide_eq_true hq)).trans ?_)
    rw [pushWrite_outside hw hn]
    rfl
  case pop =>
    intro who q waddr cap p rest s hmay hq hkind hwhole hpackets hland hfits hue
    refine next_if_pos hmay ?_
    rw [portPop, if_neg (by simp [queuePresent, hq]), popRead_landed hkind hwhole hpackets hland hfits hue]
  case landing =>
    intro who q waddr n s hmay hq hlo hw hn hn' hend
    refine next_if_pos hmay ((if_pos (decide_eq_true hq)).trans ?_)
    rw [landWrite_taken _ hlo hw hn hn' hend]
    cases who <;> rfl
  case stall =>
    intro x s hstalls hmaster hperiod
    change execPopStallExpired .app s = _
    have hfind : s.qm.stalls.find? (fun t => decide (t.master = whoMaster .app)) = some x := by
      rw [hstalls, List.find?_cons_of_pos (by simp [hmaster, whoMaster])]
    simp only [execPopStallExpired, hfind]
    exact next_if_neg hperiod rfl
  case idle =>
    intro s hreleasing hlimit hpick
    refine next_if_pos (by simp [hreleasing, hlimit]) (congrArg linkKick ?_)
    simp only [schedDecide, hpick]
  case release =>
    intro i p s hreleasing hlimit hpick hhead hus
    refine next_if_pos (by simp [hreleasing, hlimit]) (congrArg linkKick ?_)
    simp only [schedDecide, hpick, hhead, hus]
  case refill => exact fun s hnet => next_if_pos hnet rfl
  case wheel =>
    intro i t s heligible hat hblock
    refine congrArg (fun x => Host.Outcome.next (linkKick x)) ?_
    simp only [wheelFlow, heligible]
    refine (if_pos hat).trans ?_
    simp only [hblock, if_true]
  case blocked => exact fun s hcount hpast => next_if_neg (by simp [hcount, hpast]) rfl

end Sys2Proof.Machine

/-! ### The cipher engine, the sleep entries, the wake sources and the pads (R405 to R465) -/

namespace Sys2Proof.Machine

/-- R466: what the network core has disabled of a register's own bits cannot have latched: nothing is there to clear. -/
theorem clearBits_zero {w : Nat} (l : List Nat) : l.foldl (fun (a : BitVec w) n => setBit a n false) 0 = 0 := by
  induction l with
  | nil => rfl
  | cons n l ih =>
    have hbit : setBit (0 : BitVec w) n false = 0 := by simp [setBit]
    rw [List.foldl_cons, hbit, ih]

/-- The compare of APPTIMER is not armed, or its time has not come: nothing happens (R464). -/
theorem appTimer_quiet {s : State} (h : s.pwr.armed = false ∨ mtReached s.pwr.wakeAt s.clk.mtime = false) : appTimer s = s := by
  rw [appTimer, if_neg]
  rcases h with h | h <;> simp [h]

/-- Only SHELF disables sources on the way into HIBERNATE (R447). -/
theorem shelfDisable_other {s : State} (h : s.pwr.mode ≠ .shelf ∨ s.pwr.seeking ≠ .hibernate) : shelfDisable s = s := by
  rw [shelfDisable, if_neg]
  rintro ⟨hmode, hseek⟩
  exact h.elim (fun h => h hmode) (fun h => h hseek)

/-- Settles O39: each step is one branch of its definition. -/
theorem cipherAndPowerSteps : Obligations.CipherAndPowerSteps := by
  refine ⟨?encrypt, ?mac, ?hash, ?sig, ?reserved, ?reserveFails, ?retry, ?reseedMask, ?reseedGen, ?halt, ?health, ?restarted, ?fault, ?depth, ?sleep, ?network,
    ?commitNap, ?commitHib, ?abort, ?nap, ?hibernate, ?wake, ?wakePin, ?gpio, ?gpioWake, ?netTimer, ?arm, ?appTimer, ?wakeEn, ?clear, ?release, ?outSet, ?outClr⟩
  case encrypt =>
    intro n key p s hjob hmode
    change execCipherRunDone s = _
    simp only [execCipherRunDone, hjob, runResult, hmode]
    rfl
  case mac =>
    intro n key p s hjob hmode
    change execCipherRunDone s = _
    simp only [execCipherRunDone, hjob, runResult, hmode]
    rfl
  case hash =>
    intro slot a n s hjob hon
    change execHashRunDone s = _
    simp only [execHashRunDone, hjob]
    exact next_if_neg (by simp [hon]) rfl
  case sig =>
    intro n p s hjob hvalid
    change execSigVerifyDone s = _
    simp only [execSigVerifyDone, hjob, hvalid]
    rfl
  case reserved =>
    intro k s hon hwriting
    refine next_if_pos hon (congrArg linkKick ?_)
    exact (if_neg (by simp [hwriting])).trans rfl
  case reserveFails =>
    intro k b s hon hwriting hfaulted
    refine next_if_pos hon (congrArg linkKick ?_)
    exact (if_neg (by simp [hwriting])).trans ((if_pos rfl).trans (if_neg (by simp [hfaulted])))
  case retry => exact fun s hon => next_if_pos hon rfl
  case reseedMask =>
    exact fun s hon hsource hhalt => congrArg (fun x => Host.Outcome.next (linkKick x))
      ((if_neg (by simp [hon, hsource])).trans (if_neg (by simp [hhalt])))
  case reseedGen =>
    exact fun s hon hsource hhalt => congrArg (fun x => Host.Outcome.next (linkKick x))
      ((if_neg (by simp [hon, hsource])).trans (if_neg (by simp [hhalt])))
  case halt =>
    intro s hon hhalt hmany
    have hmany' : decide (s.cipher.maskReq < 2 ^ 20) = false := decide_eq_false (Nat.not_lt.2 hmany)
    refine next_if_neg ?_ rfl
    simp only [hon, hhalt, if_true, hmany']
    decide
  case health => exact fun s hon hsource => next_if_neg (by simp [hon, hsource]) rfl
  case restarted => exact fun s hon hsource => next_if_neg (by simp [hon, hsource]) rfl
  case fault =>
    intro s hon hsource hthird
    have h3 : 3 ≤ s.cipher.restarts + 1 := by omega
    exact next_if_neg (by simp [hon, hsource]) ((if_neg (by simp)).trans (if_pos (by simp [hsource, updCipher, h3])))
  case depth => exact fun v s hmay hnow => next_if_pos hmay (if_pos (by simp [hnow]))
  case sleep => exact fun v s hmay hnow hdepth => next_if_pos hmay (if_neg (by simp [hnow, hdepth]))
  case network => exact fun d s hnet hphase hdeep => next_if_pos (by simp [hnet, hphase, hdeep]) rfl
  case commitNap =>
    intro s hphase hdone hseek hlatch
    change execSleepCommit s = _
    simp only [execSleepCommit, shelfDisable_other (s := s) (.inr (by simp [hseek]))]
    exact next_if_neg (by simp [hphase, hdone]) ((if_neg (Classical.not_not.2 hlatch)).trans (if_neg (by simp [hseek])))
  case commitHib =>
    intro s hphase hdone hseek hmode hlatch
    change execSleepCommit s = _
    simp only [execSleepCommit, shelfDisable_other (.inl hmode)]
    exact next_if_neg (by simp [hphase, hdone]) ((if_neg (Classical.not_not.2 hlatch)).trans (if_pos hseek))
  case abort =>
    intro s hphase hdone hseek hlatch
    change execSleepCommit s = _
    simp only [execSleepCommit, shelfDisable_other (s := s) (.inr (by simp [hseek]))]
    exact next_if_neg (by simp [hphase, hdone]) (if_pos hlatch)
  case nap =>
    intro s hphase hseek hcore
    refine next_if_pos ⟨hphase, hseek⟩ ?_
    have hstalled : ((updClk (fun c => { c with plllock := false, rootsrc := false }) s).core.run == RunState.stalledSleep) = false := beq_false_of_ne hcore
    simp only [reached, hstalled]
    rfl
  case hibernate =>
    intro s hphase hseek hcore
    refine next_if_pos ⟨hphase, hseek⟩ ?_
    have hstalled : ((updClk (fun c => { c with plllock := false, rootsrc := false, xordy := c.xordy && c.lfxrdy && c.rate == .reference }) s).core.run ==
        RunState.stalledSleep) = true := beq_iff_eq.2 hcore
    simp only [reached, hstalled]
    rfl
  case wake => exact fun s hphase hseek hlatch => next_if_neg (fun h => h.elim (absurd hphase) fun h => h.elim (absurd hseek) hlatch) rfl
  case wakePin => exact fun s hpins => next_if_pos hpins rfl
  case gpio =>
    exact fun pin held s hpin hoff => next_if_neg (Nat.not_le.2 hpin) (if_pos (by simp [hoff]))
  case gpioWake =>
    intro pin s hpin hpins hen hpol hain hflag
    refine next_if_neg (Nat.not_le.2 hpin) ((if_neg (by simp [hpins, hen, hpol, hain])).trans ?_)
    simp only [hflag]
    rfl
  case netTimer =>
    intro t s ht hat
    change execNettimer s = _
    simp only [execNettimer, ht]
    exact next_if_pos hat rfl
  case arm => exact fun v s hmay hlater => next_if_pos hmay (appTimer_quiet (.inr hlater))
  case appTimer => exact fun s harmed hat hen => congrArg Host.Outcome.next (if_pos (by simp [harmed, hat, hen]))
  case wakeEn =>
    intro v s hmay harmed hlatch
    refine next_if_pos hmay ?_
    simp only [wakeEnWrite]
    refine (appTimer_quiet (.inl (by exact harmed))).trans ?_
    simp only [updPwr, hlatch, clearBits_zero]
    rfl
  case clear => exact fun v s hmay hbit => next_if_pos (by simp [hmay, hbit]) rfl
  case release =>
    intro v r s hmay hshadow hbit
    refine next_if_pos hmay ?_
    simp only [padsRelease, hshadow]
    exact if_pos hbit
  case outSet =>
    intro v s hmay hshadow
    refine next_if_pos hmay ?_
    simp only [outSet, updPads, hshadow]
  case outClr =>
    intro v s hmay hshadow
    refine next_if_pos hmay ?_
    simp only [outClr, updPads, hshadow]

end Sys2Proof.Machine

/-! ### Resets: the supply, the pin, the watchdogs, the wake from HIBERNATE and the boot ROM (R474 to R486, R626) -/

namespace Sys2Proof.Machine

/-- The key of SYSCTL_CORERST in the low half of a word. -/
theorem coreKey_iff (v : Word) : v.toNat % 65536 = 0xC0E5 ↔ v.extractLsb' 0 16 = 0xC0E5#16 := by
  rw [← BitVec.toNat_inj, BitVec.extractLsb'_toNat]
  simp

/-- A start that nothing holds any more: the option blocks are loaded and the reference starts (R480). -/
theorem heldEnds_starts {s : State} (hstage : s.boot.stage = .held) (hbor : s.boot.bor = false) (hbackup : s.boot.backup = false)
    (haon : s.boot.aonLost = false) (hnrst : s.boot.nrst = false) : heldEnds s = updBoot (fun b => { b with stage := .reference }) (optionLoad s) := by
  rw [heldEnds, if_pos hstage, beginStart, if_neg (by simp [hbor, hbackup, haon, hnrst])]

/-- A start that is held goes on being held. -/
theorem heldEnds_held {s : State} (hbor : s.boot.bor = true) : heldEnds s = s := by
  unfold heldEnds
  split
  · rw [beginStart, if_pos (by simp [hbor])]
  · rfl

/-- Settles O40: each step is one branch of its definition. -/
theorem resetSteps : Obligations.ResetSteps := by
  refine ⟨?por, ?bor, ?borEnds, ?retainAgain, ?retain, ?back, ?aon, ?pin, ?pinHeld, ?pinEnds, ?nwdt, ?core, ?noCore, ?restart, ?wake, ?boot⟩
  case por => exact fun s haon hstate => next_if_pos haon (if_neg hstate)
  case bor => exact fun s hbor haon => next_if_neg (by simp [hbor, haon]) rfl
  case borEnds =>
    intro s hbor haon hbackup hstage hfield hnrst
    refine next_if_pos (by simp [hbor, haon, hbackup]) ?_
    rw [portVbatBack, if_pos (show (updBoot (fun b => { b with bor := false }) s).port.field = true from hfield)]
    exact heldEnds_starts hstage rfl hbackup haon hnrst
  case retainAgain =>
    exact fun s hbor haon hbackup hsw => next_if_neg (by simp [hbor, haon, hbackup]) (if_pos hsw)
  case retain =>
    exact fun s hbor haon hbackup hsw => next_if_neg (by simp [hbor, haon, hbackup]) (if_neg (by simp [hsw]))
  case back => exact fun s hbackup => next_if_pos hbackup rfl
  case aon =>
    intro s hbor haon hbackup
    refine next_if_pos (by simp [hbor, haon, hbackup]) ?_
    simp only [aonLoss, hbackup]
  case pin => exact fun s hnrst haon => next_if_neg (by simp [hnrst]) (if_neg (by simp [haon]))
  case pinHeld => exact fun s hnrst hstage hbor => next_if_pos hnrst (heldEnds_held hbor)
  case pinEnds => exact fun s hnrst hstage hbor hbackup haon => next_if_pos hnrst (heldEnds_starts hstage hbor hbackup haon rfl)
  case nwdt => exact fun s hnet => next_if_pos hnet rfl
  case core => exact fun v s hmay hkey => next_if_pos hmay (if_pos ((coreKey_iff v).2 hkey))
  case noCore => exact fun v s hmay hkey => next_if_pos hmay (if_neg (mt (coreKey_iff v).1 hkey))
  case restart => exact fun s hrestart => next_if_pos hrestart rfl
  case wake =>
    intro s hphase hseek hlatch hmode
    refine next_if_pos (by simp [hphase, hseek]; exact hlatch) ?_
    rw [wakeReset, if_neg hmode]
  case boot =>
    intro t h st s hrom hstarted hread hmagic hcrc htype
    change execBootHandover s = _
    simp only [execBootHandover, hread]
    refine next_if_neg (by simp [hrom, hstarted]) ((if_pos ?_).trans ?_)
    · simp [execBootHandover.headFormatRom, hmagic, hcrc, htype]
    · simp only [handOver, updCore, Nat.mul_one, Nat.mul_zero, Nat.add_zero]

end Sys2Proof.Machine

/-! ### The flash: its commands, its reads and the registers of FLASHC (R500 to R517) -/

namespace Sys2Proof.Machine

/-- The key of FLASHC_CMD in the high half of a word. -/
theorem flashKey_iff (v : Word) : bits v.toNat 16 16 = 0xF1A5 ↔ v.extractLsb' 16 16 = 0xF1A5#16 := by
  rw [← BitVec.toNat_inj, BitVec.extractLsb'_toNat, Nat.shiftRight_eq_div_pow]
  simp [bits]

/-- A program command of FLASHC that passes its checks is accepted, with its source in the core's RAM (R508). -/
theorem flashcCmd_program {s : State} (hop : opOf s .app = false) (halign : programAligned s.flash.addr s.flash.len = true)
    (hregion : regionError s .app (s.flash.addr / blk) = 0) (hlo : 0x400 ≤ s.flash.waddr) (hhi : 4 * s.flash.waddr + s.flash.len ≤ 0x8000) :
    flashcCmd 0xF1A50001#32 s = acceptOp
      { master := .app, erase := false, addr := s.flash.addr, data := [], src := some (s.flash.waddr, s.flash.len), done := 0 }
      (updFlash (fun f => { f with busy := true }) s) := by
  have hsource : ¬(s.flash.waddr < 0x400 ∨ 0x8000 < 4 * s.flash.waddr + s.flash.len) := by omega
  simp [flashcCmd, bits, hop, halign, hregion, hsource, errBUSY]

/-- An erase command of FLASHC that passes its checks is accepted (R508). -/
theorem flashcCmd_erase {s : State} (hop : opOf s .app = false) (halign : s.flash.addr % blk = 0)
    (hregion : regionError s .app (s.flash.addr / blk) = 0) :
    flashcCmd 0xF1A50002#32 s = acceptOp { master := .app, erase := true, addr := s.flash.addr, data := [], src := none, done := 0 }
      (updFlash (fun f => { f with busy := true }) s) := by
  simp [flashcCmd, bits, hop, halign, hregion, errBUSY]

/-- Units without an error leave their notes as they are. -/
theorem foldl_noteUnit_clean (s : State) (us : List Nat) (hclean : ∀ u ∈ us, unitStatus s u = 0) : us.foldl noteUnit s = s := by
  induction us with
  | nil => rfl
  | cons u us ih =>
    have hu : noteUnit s u = s := if_pos (hclean u (by simp))
    rw [List.foldl_cons, hu]
    exact ih fun w hw => hclean w (by simp [hw])

/-- Units without an error together have none. -/
theorem foldl_unitStatus_clean (s : State) (us : List Nat) (hclean : ∀ u ∈ us, unitStatus s u = 0) :
    us.foldl (fun x u => x ||| unitStatus s u) 0 = 0 := by
  induction us with
  | nil => rfl
  | cons u us ih =>
    rw [List.foldl_cons, hclean u (by simp)]
    exact ih fun w hw => hclean w (by simp [hw])

/-- A read of units without an error on an idle plane changes nothing (R500). -/
theorem flashRead_clean {s : State} {a n : Nat} (sus : Bool) (hidle : planeSt s (planeOf s (a / blk)) = .idle)
    (hclean : ∀ u ∈ unitsOf a n, unitStatus s u = 0) : flashRead a n sus s = some (s, flashBytes s a n, 0) := by
  simp only [flashRead, serveRead, hidle, foldl_noteUnit_clean s _ hclean, foldl_unitStatus_clean s _ hclean]

/-- Settles O41: each step is one branch of its definition. -/
theorem flashSteps : Obligations.FlashSteps := by
  refine ⟨?program, ?erase, ?busy, ?noKey, ?start, ?programDone, ?eraseDone, ?xip, ?resume, ?bsel, ?query, ?lock, ?count⟩
  case program =>
    exact fun s hmay hop halign hregion hlo hhi => next_if_pos (by simp [hmay]) (flashcCmd_program hop halign hregion hlo hhi)
  case erase => exact fun s hmay hop halign hregion => next_if_pos (by simp [hmay]) (flashcCmd_erase hop halign hregion)
  case busy =>
    intro s hmay hop
    refine next_if_pos (by simp [hmay]) ?_
    simp [flashcCmd, bits, hop, countRefused, updFlash]
  case noKey =>
    intro v s hmay hkey
    have hcmd : flashcCmd v s = s := if_pos (.inl (mt (flashKey_iff v).1 hkey))
    change execFlashcProgram v s = _
    rw [execFlashcProgram, hcmd, ite_self]
  case start =>
    intro plane o s hidle hfind
    change execFlashCommandStart plane s = _
    simp only [execFlashCommandStart, hfind]
    exact next_if_neg (by simp [hidle]) rfl
  case programDone =>
    intro o s hplane hmaster
    change execFlashProgramDone 0 _ s = _
    simp only [execFlashProgramDone, show planeSt s 0 = .programming o from hplane, hmaster]
    rfl
  case eraseDone =>
    intro o a s hplane hmaster
    change execFlashEraseDone 1 _ s = _
    simp only [execFlashEraseDone, show planeSt s 1 = .erasing o a from hplane, hmaster]
    rfl
  case xip =>
    intro a o s hrun hplace hrange halign ho hidle hclean
    subst ho
    have hread := flashRead_clean s.flash.autosus hidle hclean
    refine next_if_neg (by simp [hrun, hplace, sizeBytes, halign]) ?_
    simp [xipRead, sizeBytes, hrange, hread, bits, updFlash]
  case resume =>
    intro o s hplane
    change execEraseResume 1 s = _
    simp only [execEraseResume, show planeSt s 1 = .suspended o from hplane]
    rfl
  case bsel => exact fun v s hmay => next_if_pos hmay rfl
  case query => exact fun s hquery => next_if_neg (by simp [hquery]) rfl
  case lock => exact fun v s hmay => next_if_pos hmay rfl
  case count => exact fun s hmay => next_if_pos hmay rfl

end Sys2Proof.Machine

/-! ### Staging, the SD card and the real-time clock (R525 to R533, R552 to R564) -/

namespace Sys2Proof.Machine

/-- The card is seen where the variant has a card host (R532). -/
theorem seeCard_of_sdHost {s : State} (c : SdCard) (hsd : Config.sdHost s.dev.variant = true) :
    seeCard c s = updUpd (fun u => { u with card := c }) s := if_pos hsd

/-- A rollover with no activation armed matches the alarms and lets a shot fall due (R552, R559). -/
theorem rolledOver_noAct {s : State} (hact : s.rtc.act = none) : rolledOver false s = shotsFall 4 (alarmMatches s) := by
  unfold rolledOver
  simp only [hact]
  rfl

/-- Settles O42: each step is one branch of its definition. -/
theorem updateAndRtcSteps : Obligations.UpdateAndRtcSteps := by
  refine ⟨?begun, ?beginFails, ?checked, ?noCard, ?installed, ?read, ?readLast, ?set, ?thaw, ?badCommit, ?commit, ?second, ?stop, ?stale⟩
  case begun =>
    intro slot s hjob hblocks
    change execUpdateStageBeginDone none s = _
    simp only [execUpdateStageBeginDone, hjob, hblocks]
    rfl
  case beginFails =>
    intro slot b c s hjob hblocks hstate hc
    change execUpdateStageBeginDone (some c) s = _
    simp only [execUpdateStageBeginDone, hjob, hblocks, List.foldl_cons, List.foldl_nil, if_neg hstate, Nat.mod_eq_of_lt hc, stFLASH]
  case checked =>
    intro slot t d st s hjob hread hcheck
    change execUpdateStageCheckDone s = _
    simp only [execUpdateStageCheckDone, hjob, hread, hcheck, Option.getD_some, if_true]
  case noCard =>
    intro env s hstarted hstate hsd hpick
    change execSdCardSearch env s = _
    simp only [execSdCardSearch, seeCard_of_sdHost env.card hsd, hpick]
    exact next_if_neg (by simp [hstarted, hstate]) rfl
  case installed =>
    intro env f s s1 t hstarted hstate hsd hbroken hpick hnone hstage
    have hcard : seeCard env.card s = s1 := seeCard_of_sdHost env.card hsd
    change execSdCardSearch env s = _
    simp only [execSdCardSearch, hcard, hbroken, Option.getD_some, hpick]
    exact next_if_neg (by simp [hstarted, hstate]) ((if_neg (by simp [t, hnone])).trans ((if_neg hstage).trans (if_pos trivial)))
  case read =>
    intro k s hmay hk hfrz
    refine next_if_pos (by simp [rtcAccess, hmay]; omega) ?_
    simp [rtcRead, rtcCore, updRtcCore, updRtc, hfrz, show k ≠ 7 by omega]
  case readLast =>
    intro s hnet hfrz
    refine next_if_pos (by simp [rtcAccess, hnet]) ?_
    simp [rtcRead, rtcCore, updRtcCore, updRtc, hfrz]
  case set =>
    intro v s hmay hfields
    refine next_if_pos (by simp [rtcAccess, hmay]) ((if_neg (by simp [rtcCore, hfields])).trans ?_)
    simp [updRtcCore, updRtc]
  case thaw => exact fun v s hnet hbit => next_if_pos (by simp [rtcAccess, hnet]) (if_pos hbit)
  case badCommit =>
    intro s hrun haon happ hnet hroll hbad
    have hnone : (s.rtc.now.tick.1.compose s.rtc.app.stage s.rtc.app.fields).bad.isNone = false := by
      cases hb : (s.rtc.now.tick.1.compose s.rtc.app.stage s.rtc.app.fields).bad <;> simp_all
    refine next_if_pos (by simp [hrun, haon]; exact .inr happ) ?_
    simp [commitTick, rtcCore, updRtcCore, updRtc, hrun, hnet, hroll, hnone]
  case commit =>
    intro s hrun haon happ hnet hwrap hact hfull hgood
    refine next_if_pos (by simp [hrun, haon]; exact .inr happ) ?_
    simp [commitTick, rtcCore, updRtcCore, updRtc, hrun, hnet, hwrap, hgood, committed, hfull, hact]
  case second =>
    intro s hrun haon hwrap hact
    refine next_if_neg (by simp [hrun, haon]) ?_
    simp only [hwrap]
    exact rolledOver_noAct hact
  case stop => exact fun s hready haon => next_if_pos (by simp [hready, haon]) rfl
  case stale => exact fun s hfrz => next_if_pos hfrz rfl

end Sys2Proof.Machine

/-! ### The field, the activation and the wire side of the port (R568 to R575, R583, R586, R591 to R595) -/

namespace Sys2Proof.Machine

/-- A session that ends does not touch a lock that the field does not hold (R591). -/
theorem fieldRelease_other {p : Port} (hlock : p.lock ≠ .field) : p.fieldRelease = p := if_pos hlock

/-- The level bytes are five: the UID's, or the cascade tag's, and their checksum (R573). -/
theorem slice_levelBytes (s : State) (two : Bool) (a b : Byte) : slice ([a, b] ++ levelBytes s two) 2 5 = levelBytes s two := by
  have hlen : (levelBytes s two).length = 5 := by cases two <;> simp [levelBytes, slice] <;> omega
  simp only [slice, List.cons_append, List.nil_append, List.drop_succ_cons, List.drop_zero]
  rw [List.take_of_length_le (Nat.le_of_eq hlen), hlen]
  simp

/-- A field with nothing waiting changes nothing when the wire side gives the lock back (R591). -/
theorem fieldProceeds_idle {s : State} (hwait : s.port.wait = none) : fieldProceeds s = s := by
  simp [fieldProceeds, hwait]

/-- An activation that a frame error breaks off returns to where it came from (R573). -/
theorem frameError_ready1 {s : State} (hstate : s.port.fstate = .ready1) :
    frameError s = { s with port := { s.port with fstate := if s.port.fromHalt then .halt else .idle, answer := [] } } := by
  simp [frameError, updPort, hstate]

/-- Settles O43: each step is one branch of its definition. -/
theorem portFieldAndWireSteps : Obligations.PortFieldAndWireSteps := by
  refine ⟨?on, ?loss, ?lossPrio, ?reqa, ?reqaHalt, ?wupa, ?anti1, ?anti2, ?select1, ?select2, ?halt, ?haltReady, ?rats, ?pps, ?deselect, ?wtx,
    ?chainIn, ?chainOut, ?frame, ?take, ?prio, ?release, ?noGrant, ?readCmd, ?writeCmd, ?noLock, ?writeDone, ?readDone, ?block, ?lastBlock⟩
  case on =>
    intro s hfield hbor
    refine next_if_neg (by simp [hfield]) ?_
    simp [hbor, updPort]
  case loss =>
    intro s hfield hbor hlock
    refine next_if_neg (by simp [hfield]) ((if_neg (by simp [hbor])).trans ?_)
    simp only [updPort, Port.sessionEnd, fieldRelease_other (p := { s.port with
      sel := .none, auth := none, chainIn := [], chainOut := [], wait := none, mbxReq := none, mbxResp := none }) hlock]
  case lossPrio =>
    intro s hfield hbor hlock hprio
    refine next_if_neg (by simp [hfield]) ((if_neg (by simp [hbor])).trans ?_)
    simp [updPort, Port.sessionEnd, Port.fieldRelease, hlock, hprio]
  case reqa =>
    intro s hstate
    change execReqa s = _
    simp only [execReqa, hstate]
    rfl
  case reqaHalt =>
    intro s hstate
    change execReqa s = _
    simp only [execReqa, hstate, updPort]
  case wupa =>
    intro s hstate
    change execWupa s = _
    simp only [execWupa, hstate]
    rfl
  case anti1 =>
    intro s hstate
    change execAnticollision _ s = _
    simp [execAnticollision, currentLevel, hstate, u8, updPort]
  case anti2 =>
    intro s hstate
    change execAnticollision _ s = _
    simp [execAnticollision, currentLevel, hstate, u8, updPort]
  case select1 =>
    intro s hstate
    change execCascadeSelect _ s = _
    simp only [execCascadeSelect, currentLevel, hstate, slice_levelBytes]
    exact next_if_pos (by simp [u8]) rfl
  case select2 =>
    intro s hstate
    change execCascadeSelect _ s = _
    simp only [execCascadeSelect, currentLevel, hstate, slice_levelBytes]
    exact next_if_pos (by simp [u8]) rfl
  case halt => exact fun s hstate => next_if_pos hstate rfl
  case haltReady => exact fun s hstate => next_if_neg (by simp [hstate]) (frameError_ready1 hstate)
  case rats =>
    intro fsdi cid s hstate hfsdi hcid
    have hparam : (BitVec.ofNat 8 (16 * fsdi + cid)).toNat = 16 * fsdi + cid := by rw [BitVec.toNat_ofNat]; omega
    have hdiv : (16 * fsdi + cid) / 16 = fsdi := by omega
    have hmod : (16 * fsdi + cid) % 16 = cid := by omega
    refine next_if_neg ?_ ?_
    · rw [hparam, hdiv, hmod]
      simp [hstate]
      omega
    · rw [hparam, hdiv, hmod]
      rfl
  case pps =>
    intro s hstate hcid
    have hpps : u8 [BitVec.ofNat 8 (0xD0 + s.port.cid), 0x11, 0x05] 0 = 0xD0 + s.port.cid := Nat.mod_eq_of_lt (by omega)
    have hrates : ppsRates [BitVec.ofNat 8 (0xD0 + s.port.cid), 0x11, 0x05] = some (212, 212) := by simp [ppsRates, u8]
    change execPps _ s = _
    simp only [execPps, hrates]
    exact next_if_neg (not_or.2 ⟨Classical.not_not.2 hstate, Classical.not_not.2 hpps⟩) rfl
  case deselect =>
    intro s hstate hlock
    refine next_if_pos hstate ?_
    simp only [updPort, Port.sessionEnd, fieldRelease_other (p := { s.port with
      sel := .none, auth := none, chainIn := [], chainOut := [], wait := none, mbxReq := none, mbxResp := none }) hlock]
  case wtx => exact fun wtxm s hwait hlo hhi => next_if_pos (by simp [Option.isSome_iff_ne_none, hwait, hlo, hhi]) rfl
  case chainIn =>
    intro n f s hstate hwait hn
    have hkinds : ∀ n : Byte, n.toNat < 2 →
        (0x12 + n) &&& 0xE2 = 0x02 ∧ (0x12 + n) &&& 0x10 ≠ 0 ∧ 0xA2 ||| ((0x12 + n) &&& 0x01) = 0xA2 + n := by decide
    obtain ⟨hinf, hmore, hack⟩ := hkinds n hn
    refine next_if_neg (by simp [hstate, hwait]) ((if_pos hinf).trans ((if_neg hmore).trans ?_))
    rw [hack]
    rfl
  case chainOut =>
    intro n f s hstate hwait hn hout
    have hkinds : ∀ n : Byte, n.toNat < 2 → (0xA2 + n) &&& 0xE2 ≠ 0x02 ∧ (0xA2 + n) &&& 0xF2 = 0xA2 := by decide
    obtain ⟨hinf, hack⟩ := hkinds n hn
    exact next_if_neg (by simp [hstate, hwait]) ((if_neg hinf).trans ((if_pos hack).trans (if_neg (by simp [hout]))))
  case frame => exact fun s hstate => congrArg _ (frameError_ready1 hstate)
  case take =>
    intro s hmay hgrant hlock
    refine next_if_pos hmay ?_
    simp [portwLock, bit, hgrant, hlock, updPort]
  case prio =>
    intro s hmay hgrant hlock
    refine next_if_pos hmay ?_
    simp [portwLock, bit, hgrant, hlock, updPort]
  case release =>
    intro s hmay hgrant hlock hwait
    refine next_if_pos hmay ?_
    simp [portwLock, bit, hgrant, hlock, updPort, fieldProceeds, hwait]
  case noGrant => exact fun s hmay hgrant => next_if_pos hmay (if_pos (by simp [hgrant]))
  case readCmd =>
    intro s hmay hgrant hcmd hlock hblock
    exact next_if_pos hmay ((if_neg (by simp [hgrant])).trans ((if_neg (by simp [hcmd])).trans
      ((if_neg (by simp [hlock])).trans ((if_neg (by omega)).trans rfl))))
  case writeCmd =>
    intro s hmay hgrant hcmd hlock hblock
    exact next_if_pos hmay ((if_neg (by simp [hgrant])).trans ((if_neg (by simp [hcmd])).trans
      ((if_neg (by simp [hlock])).trans ((if_neg (by omega)).trans rfl))))
  case noLock =>
    exact fun s hmay hgrant hcmd hlock =>
      next_if_pos hmay ((if_neg (by simp [hgrant])).trans ((if_neg (by simp [hcmd])).trans ((if_pos hlock).trans rfl)))
  case writeDone =>
    intro s hcmd hlock
    change execPortwCmdDone true s = _
    simp only [execPortwCmdDone, hcmd]
    exact next_if_neg (by simp [hlock]) rfl
  case readDone =>
    intro s hcmd hlock
    change execPortwCmdDone true s = _
    simp only [execPortwCmdDone, hcmd]
    exact next_if_neg (by simp [hlock]) rfl
  case block =>
    intro j b c r s hjob hnet hlock hblocks
    change execPortBlockWrite true s = _
    simp only [execPortBlockWrite, hjob, hblocks]
    exact next_if_neg (by simp [hnet]) ((if_neg (by simp [hlock])).trans rfl)
  case lastBlock =>
    intro j b s hjob hnet hlock hblocks hwait
    change execPortBlockWrite true s = _
    simp only [execPortBlockWrite, hjob, hblocks]
    refine next_if_neg (by simp [hnet]) ((if_neg (by simp [hlock])).trans ?_)
    simp [memJobEnds, fieldProceeds, portWrite, portWritten, portStore, updPort, hlock, hwait]

end Sys2Proof.Machine

/-! ### The applications of the commissioning port (R576 to R591) -/

namespace Sys2Proof.Machine

/-! #### What a reader's APDU says (R581) -/

/-- An APDU of a header and Le. -/
theorem parseApdu_le (cla ins p1 p2 e : Byte) :
    parseApdu [cla, ins, p1, p2, e] =
      { cla := cla.toNat, ins := ins.toNat, p1 := p1.toNat, p2 := p2.toNat, data := [], le := some (if e.toNat = 0 then 256 else e.toNat), ok := true } := rfl

/-- An APDU of a header, Lc and that many bytes of data. -/
theorem parseApdu_data (cla ins p1 p2 lc : Byte) {d : List Byte} (hlc : lc.toNat = d.length) (hd : d ≠ []) :
    parseApdu ([cla, ins, p1, p2, lc] ++ d) =
      { cla := cla.toNat, ins := ins.toNat, p1 := p1.toNat, p2 := p2.toNat, data := d, le := none, ok := true } := by
  have hpos : 0 < d.length := List.length_pos_iff.2 hd
  have hslice : slice ([cla, ins, p1, p2, lc] ++ d) 5 d.length = d := by simp [slice]
  have hu : u8 ([cla, ins, p1, p2, lc] ++ d) 4 = d.length := hlc
  have hn : ([cla, ins, p1, p2, lc] ++ d).length = 5 + d.length := by simp; omega
  have hne : (d.length != 0) = true := by simpa using hd
  simp only [parseApdu, hu, hn]
  rw [if_neg (by omega), if_neg (by omega), if_pos trivial, hslice, hne, decide_eq_true (by omega : 4 ≤ 5 + d.length)]
  rfl

/-! #### A command that finds the port free (R591) -/

/-- The field may take a command: the protocol is active, and neither a wait, a lock nor a chain stands before it. -/
def fieldOpen (s : State) : Prop := s.port.fstate = .protocol ∧ s.port.wait = none ∧ s.port.lock = .free ∧ s.port.chainIn = []

/-- The field has taken a command and holds the lock. -/
def fieldTaken (s : State) : State := updPort (fun p => { p with chainIn := [], chainOut := [], lock := .field }) s

/-- A command that finds the port free is served at once. -/
theorem apduArrives_open {s : State} {cmd : List Byte} {ins : Nat} (w : Option Nat) (hopen : fieldOpen s) (hins : u8 cmd 1 = ins) :
    apduArrives ins cmd w s = fieldServe cmd 1 w (updPort (fun p => { p with chainIn := [], chainOut := [] }) s) := by
  obtain ⟨hstate, hwait, hlock, hchain⟩ := hopen
  simp only [apduArrives, hchain, List.nil_append]
  rw [if_neg (by simp [hstate, hwait, hins])]
  exact if_pos hlock

/-- The class of a command that no chain precedes. -/
theorem claOf_open {s : State} (hopen : fieldOpen s) (cmd : List Byte) : claOf s cmd = u8 cmd 0 := by
  obtain ⟨-, -, -, hchain⟩ := hopen
  rw [claOf, hchain, List.nil_append]

/-- A command with an answer is answered. -/
theorem apduArrives_answer {s t : State} {cmd d : List Byte} {ins : Nat} {w : Option Nat} (hopen : fieldOpen s) (hins : u8 cmd 1 = ins)
    (hrun : apduRun cmd w (fieldTaken s) = (t, some d)) : apduArrives ins cmd w s = fieldAnswer d t := by
  rw [apduArrives_open w hopen hins]
  unfold fieldServe
  rw [show updPort (fun p => { p with lock := .field }) (updPort (fun p => { p with chainIn := [], chainOut := [] }) s) = fieldTaken s from rfl]
  simp only [hrun]

/-- A command without an answer waits. -/
theorem apduArrives_wait {s t : State} {cmd : List Byte} {ins : Nat} {w : Option Nat} (hopen : fieldOpen s) (hins : u8 cmd 1 = ins)
    (hrun : apduRun cmd w (fieldTaken s) = (t, none)) : apduArrives ins cmd w s = updPort (fun p => { p with wait := some (cmd, 1) }) t := by
  rw [apduArrives_open w hopen hins]
  unfold fieldServe
  rw [show updPort (fun p => { p with lock := .field }) (updPort (fun p => { p with chainIn := [], chainOut := [] }) s) = fieldTaken s from rfl]
  simp only [hrun]

/-- The commissioning application runs a command that passes its checks. -/
theorem apduRun_comm {s : State} {cmd : List Byte} {a : Apdu} (w : Option Nat) (ha : parseApdu cmd = a) (hsel : s.port.sel = .commissioning)
    (hpass : commRefusal a s = none) : apduRun cmd w s = commRun a w s := by
  simp only [apduRun, ha, hsel, commApdu, hpass]

/-- The commissioning application turns a command away. -/
theorem apduRun_refused {s : State} {cmd : List Byte} {a : Apdu} {x : Nat} (w : Option Nat) (ha : parseApdu cmd = a) (hsel : s.port.sel = .commissioning)
    (hrefused : commRefusal a s = some x) : apduRun cmd w s = (s, some (sw x)) := by
  simp only [apduRun, ha, hsel, commApdu, hrefused]

/-- The NDEF application runs a command. -/
theorem apduRun_ndef {s : State} {cmd : List Byte} {a : Apdu} {n : Nat} (w : Option Nat) (ha : parseApdu cmd = a) (hsel : s.port.sel = .ndef n) :
    apduRun cmd w s = ((ndefApdu a s).1, some (ndefApdu a s).2) := by
  simp only [apduRun, ha, hsel]

/-- SELECT by the name of the commissioning application, whichever application is selected (R580). -/
theorem apduRun_selectComm (s : State) :
    apduRun ([0x00, 0xA4, 0x04, 0x00, 0x07] ++ commAid) none s =
      (updPort (fun p => { p with sel := .commissioning, auth := none, sessions := inc32 p.sessions }) s, some [0x90, 0x00]) := by
  have ha := parseApdu_data 0x00 0xA4 0x04 0x00 0x07 (d := commAid) rfl (by decide)
  have hselect : ∀ e ok, apduSelect { cla := 0, ins := 0xA4, p1 := 4, p2 := 0, data := commAid, le := e, ok := ok } s =
      (updPort (fun p => { p with sel := .commissioning, auth := none, sessions := inc32 p.sessions }) s, [0x90, 0x00]) := fun _ _ => rfl
  unfold apduRun
  rw [ha]
  split
  · exact congrArg (fun r : State × List Byte => (r.1, some r.2)) (hselect none true)
  · exact congrArg (fun r : State × List Byte => (r.1, some r.2)) (hselect none true)

/-- A message that the firmware does not serve yet goes on waiting (R590). -/
theorem mailboxServe_unserved {s : State} (cf : Option Nat) (wf : Option (Nat × Nat)) (hfirm : firmwareServes s = false) : mailboxServe cf wf s = s := by
  unfold mailboxServe
  split
  · exact if_pos (by simp [hfirm])
  · rfl

/-- Without a message there is nothing for the firmware to serve. -/
theorem mailboxServe_noMessage {s : State} (cf : Option Nat) (wf : Option (Nat × Nat)) (hreq : s.port.mbxReq = none) : mailboxServe cf wf s = s := by
  unfold mailboxServe
  simp [hreq]

/-- A wait behind the lock of the wire side goes on (R585). -/
theorem fieldProceeds_locked {s : State} (hlock : s.port.lock ≠ .free) : fieldProceeds s = s := by
  unfold fieldProceeds
  split
  · exact if_neg fun h => hlock h.1
  · rfl

/-- The password that VERIFY finds right: counted down, counted up again, and the session is authenticated (R587). -/
theorem verifyPw_right {s : State} {slot : Nat} {pw : List Byte} (hslot : slot ≤ 3) (hlen : s.port.pw.length = 4) (hpw : pw = (pwOf s slot).pw) :
    verifyPw slot pw none s =
      (updPort (fun p => { p with auth := some slot, blockWrites := inc32 (inc32 p.blockWrites),
                                  pw := p.pw.set slot { pwOf s slot with remaining := (pwOf s slot).limit } }) s, [0x90, 0x00]) := by
  have hget : ∀ x : PwSlot, at_ PwSlot.reset (s.port.pw.set slot x) slot = x := fun x => at_set_self (by omega)
  unfold verifyPw
  rw [if_neg (by simp), if_pos hpw, if_neg (by simp)]
  simp only [updPw, portWritten, updPort, hget, List.set_set]
  rfl

/-- SELECT by a file identifier within the NDEF application (R580). -/
theorem ndefApdu_selectFile {s : State} {n : Nat} (hsel : s.port.sel = .ndef n) :
    ndefApdu { cla := 0x00, ins := 0xA4, p1 := 0x00, p2 := 0x0C, data := [0xE1, 0x04], le := none, ok := true } s =
      (updPort (fun p => { p with sel := .ndef 0xE104, auth := none }) s, [0x90, 0x00]) := by
  simp only [ndefApdu, apduSelect, hsel]
  rfl

/-- READ BINARY of a file from an offset within it (R576). -/
theorem ndefApdu_read {s : State} {id o k : Nat} (hsel : s.port.sel = .ndef id) (hid : id ≠ 0) (ho : o ≤ (ndefFile s id).length) :
    ndefApdu { cla := 0x00, ins := 0xB0, p1 := 0x00, p2 := o, data := [], le := some k, ok := true } s =
      (s, ((ndefFile s id).drop o).take k ++ [0x90, 0x00]) := by
  have hread : apduRead { cla := 0x00, ins := 0xB0, p1 := 0x00, p2 := o, data := [], le := some k, ok := true } s =
      (s, ((ndefFile s id).drop o).take k ++ [0x90, 0x00]) := by
    simp only [apduRead, hsel, Nat.mul_zero, Nat.zero_add, Option.getD_some]
    exact if_neg (by omega)
  exact hread

/-- A write of one block that succeeds (R589). -/
theorem portWrites_one {s : State} (b : Nat) {d : List Byte} (hd : d.length = 32) :
    portWrites none 0 [(b, d)] s = (updPort (fun p => { p with mem := wrTab p.mem (32 * b) d, blockWrites := inc32 p.blockWrites }) s, true) := by
  simp only [portWrites, portWrite, portWritten, portStore, updPort, slice_self d 32 hd.symm]
  rfl

/-- STAGE_CRED runs the block writes of a credential (R588). -/
theorem commRun_stageCred (d : List Byte) (w : Option Nat) (s : State) :
    commRun { cla := 0x80, ins := 0xE0, p1 := 0x00, p2 := 0x00, data := d, le := none, ok := true } w s = ((stageCred d w s).1, some (stageCred d w s).2) := by
  simp only [commRun]

/-- Settles O44: each command passes its checks and is answered, or waits. -/
theorem portCommandSteps : Obligations.PortCommandSteps := by
  refine ⟨?selectApp, ?selectFile, ?readBinary, ?getInfo, ?verify, ?readBlock, ?noRights, ?writeBlock, ?stageCred, ?mailbox, ?again, ?giveUp⟩
  case selectApp => exact fun s hopen => congrArg _ (apduArrives_answer hopen rfl (apduRun_selectComm (fieldTaken s)))
  case selectFile =>
    intro n s hopen hsel
    have hrun := apduRun_ndef (s := fieldTaken s) none (parseApdu_data 0x00 0xA4 0x00 0x0C 0x02 (d := [0xE1, 0x04]) rfl (by decide)) hsel
    exact congrArg _ (apduArrives_answer hopen rfl (hrun.trans (congrArg (fun r : State × List Byte => (r.1, some r.2)) (ndefApdu_selectFile hsel))))
  case readBinary =>
    intro o k s hopen hsel ho hk
    have hparse := parseApdu_le 0x00 0xB0 0x00 o k
    rw [if_neg (Nat.ne_of_gt hk)] at hparse
    have hrun := apduRun_ndef (s := fieldTaken s) none hparse hsel
    refine next_if_neg ?_ (apduArrives_answer hopen rfl
      (hrun.trans (congrArg (fun r : State × List Byte => (r.1, some r.2)) (ndefApdu_read (s := fieldTaken s) hsel (by decide) ho))))
    rw [claOf_open hopen]
    exact (by decide : (0x00 : Byte).toNat ≠ 0x80)
  case getInfo =>
    intro s hopen hsel
    exact congrArg _ (apduArrives_answer hopen rfl (apduRun_comm (s := fieldTaken s) none (parseApdu_le 0x80 0x10 0x00 0x00 0x00) hsel rfl))
  case verify =>
    intro slot pw s hopen hsel hslot hlen hset hpw hslots
    have hslot8 : (BitVec.ofNat 8 slot).toNat = slot := Nat.mod_eq_of_lt (by omega)
    have hparse := parseApdu_data 0x80 0x20 0x00 (BitVec.ofNat 8 slot) 0x10 (d := pw) hlen.symm (by rintro rfl; simp at hlen)
    rw [hslot8] at hparse
    have hpass : commRefusal { cla := 0x80, ins := 0x20, p1 := 0x00, p2 := slot, data := pw, le := none, ok := true } (fieldTaken s) = none := by
      simp [commRefusal, hlen, show ¬3 < slot by omega, show (pwOf (fieldTaken s) slot).state = 1 from hset]
    exact congrArg _ (apduArrives_answer hopen rfl ((apduRun_comm (s := fieldTaken s) none hparse hsel hpass).trans
      (congrArg (fun r : State × List Byte => (r.1, some r.2)) (verifyPw_right (s := fieldTaken s) hslot hslots hpw))))
  case readBlock =>
    intro b s hopen hsel hb hread
    have hpass : commRefusal { cla := 0x80, ins := 0xB0, p1 := 0x00, p2 := b.toNat, data := [], le := some 0x20, ok := true } (fieldTaken s) = none := by
      simp [commRefusal, hb, show mayRead (fieldTaken s) = true from hread]
    refine next_if_neg ?_ (apduArrives_answer hopen rfl (apduRun_comm (s := fieldTaken s) none (parseApdu_le 0x80 0xB0 0x00 b 0x20) hsel hpass))
    rw [claOf_open hopen]
    exact (by decide : (0x80 : Byte).toNat ≠ 0)
  case noRights =>
    intro b s hopen hsel hb hread
    have hrefused : commRefusal { cla := 0x80, ins := 0xB0, p1 := 0x00, p2 := b.toNat, data := [], le := some 0x20, ok := true } (fieldTaken s) =
        some 0x6982 := by
      simp [commRefusal, hb, show mayRead (fieldTaken s) = false from hread]
    refine next_if_neg ?_ (apduArrives_answer hopen rfl (apduRun_refused (s := fieldTaken s) none (parseApdu_le 0x80 0xB0 0x00 b 0x20) hsel hrefused))
    rw [claOf_open hopen]
    exact (by decide : (0x80 : Byte).toNat ≠ 0)
  case writeBlock =>
    intro b d s hopen hsel hb hlen hwrite
    have hparse := parseApdu_data 0x80 0xD0 0x00 b 0x20 (d := d) hlen.symm (by rintro rfl; simp at hlen)
    have hpass : commRefusal { cla := 0x80, ins := 0xD0, p1 := 0x00, p2 := b.toNat, data := d, le := none, ok := true } (fieldTaken s) = none := by
      simp [commRefusal, hb, hlen, show mayWrite (fieldTaken s) = true from hwrite]
    exact congrArg _ (apduArrives_answer hopen rfl ((apduRun_comm (s := fieldTaken s) none hparse hsel hpass).trans
      (congrArg (fun r : State × Bool => (r.1, some (if r.2 then sw 0x9000 else sw 0x6581))) (portWrites_one (s := fieldTaken s) b.toNat hlen))))
  case stageCred =>
    intro d s hopen hsel hlo hhi hwrite
    have hlc : (BitVec.ofNat 8 d.length).toNat = d.length := Nat.mod_eq_of_lt (by omega)
    have hparse := parseApdu_data 0x80 0xE0 0x00 0x00 (BitVec.ofNat 8 d.length) hlc (by rintro rfl; simp at hlo)
    have hpass : commRefusal { cla := 0x80, ins := 0xE0, p1 := 0x00, p2 := 0x00, data := d, le := none, ok := true } (fieldTaken s) = none := by
      simp [commRefusal, hlo, hhi, show mayWrite (fieldTaken s) = true from hwrite]
    have hrun := (apduRun_comm (s := fieldTaken s) none hparse hsel hpass).trans (commRun_stageCred d none (fieldTaken s))
    have harrives := apduArrives_answer (ins := 0xE0) hopen rfl hrun
    change execStageCred _ none s = _
    rw [execStageCred, harrives]
    rfl
  case mailbox =>
    intro m cf wf s hopen hsel hlen hok hauth hserved hflag hfirm
    have hlong : 16 ≤ m.length := by
      have hboth := Bool.and_eq_true_iff.1 hok
      exact of_decide_eq_true hboth.1
    have hlc : (BitVec.ofNat 8 m.length).toNat = m.length := Nat.mod_eq_of_lt (by omega)
    have hparse := parseApdu_data 0x80 0x40 0x00 0x00 (BitVec.ofNat 8 m.length) hlc (by rintro rfl; simp at hlong)
    have hpass : commRefusal { cla := 0x80, ins := 0x40, p1 := 0x00, p2 := 0x00, data := m, le := none, ok := true } (fieldTaken s) = none := by
      simp [commRefusal, hok, show (fieldTaken s).port.auth = some 2 from hauth, show portServed (fieldTaken s) = true from hserved,
        show bit (fieldTaken s).port.flags 1 = false from hflag]
    have harrives := apduArrives_wait (ins := 0x40) hopen rfl (apduRun_comm (s := fieldTaken s) none hparse hsel hpass)
    refine next_if_neg (by simp [show s.port.wait = none from hopen.2.1]) ?_
    rw [harrives, mailboxServe_unserved cf wf (by exact hfirm)]
    rfl
  case again =>
    intro n cmd cf wf s hwait hreq hlock hn
    change execWtxExpiry cf wf s = _
    simp only [execWtxExpiry, fieldProceeds_locked hlock, mailboxServe_noMessage cf wf hreq, hwait]
    exact next_if_pos hn rfl
  case giveUp =>
    intro cmd cf wf s hwait hreq hlock
    change execWtxExpiry cf wf s = _
    simp only [execWtxExpiry, fieldProceeds_locked hlock, mailboxServe_noMessage cf wf hreq, hwait]
    rfl

end Sys2Proof.Machine

/-! ### The serial engines and the ADC (R652 to R662) -/

namespace Sys2Proof.Machine

/-- Two changes of an engine that agree on its state there are one change. -/
theorem updSe_congr {n : Nat} {f g : Se → Se} {s : State} (h : f (seOf s n) = g (seOf s n)) : updSe n f s = updSe n g s := by
  unfold seOf at h
  unfold updSe
  split
  · rename_i hn
    rw [if_pos hn] at h
    rw [h]
  · rename_i hn
    rw [if_neg hn] at h
    rw [h]

/-- An engine is busy outside its idle phase. -/
theorem Se.busy_eq_true {e : Se} (h : e.phase ≠ .idle) : e.busy = true := by simp [Se.busy, h]

theorem Se.busy_eq_false {e : Se} (h : e.phase = .idle) : e.busy = false := by simp [Se.busy, h]

/-- An SPI transfer that stores nothing takes its bytes from the transmit FIFO and ends without an error (R654). -/
theorem Se.spi_writeOnly {e : Se} (got : List Byte) (hrx : e.rxen = false) (htx : e.wleft ≤ e.tx.length) (hlen : e.wleft ≤ 255) :
    e.spi got = { e with tx := e.tx.drop e.wleft, wleft := 0, rleft := 0, phase := .idle, done := true, err := 0, csHeld := e.csHeld && bit e.xfer 23 } := by
  have hmin : min e.wleft (min e.tx.length 255) = e.wleft := by omega
  simp [Se.spi, hrx, hmin, Se.finish, Se.nostop]

/-- Settles O46: each step is one branch of its definition, on the engine it names. -/
theorem serialAndAdcSteps : Obligations.SerialAndAdcSteps := by
  refine ⟨?goSpi, ?goI2c, ?goBusy, ?abortBusy, ?abortIdle, ?busclr, ?push, ?pushFull, ?pop, ?config, ?configBusy, ?spiEnds, ?i2cFails, ?timeout,
    ?uartByte, ?uartParity, ?uartFull, ?uartSends, ?cts, ?adcStart, ?adcLost, ?adcOther, ?settled, ?result, ?noPin, ?overrun, ?read⟩
  case goSpi =>
    intro n s hmay hen hrole hphase hlen
    exact next_if_pos hmay (updSe_congr (by simp [Se.go, hen, hrole, Se.busy_eq_false hphase, hlen]))
  case goI2c =>
    intro n s hmay hen hrole hphase
    exact next_if_pos hmay (updSe_congr (by simp [Se.go, hen, hrole, Se.busy_eq_false hphase]))
  case goBusy =>
    intro n s hmay hen hrole hphase
    exact next_if_pos hmay (updSe_congr ((if_neg (by simp [hen, hrole])).trans (if_pos (Se.busy_eq_true hphase))))
  case abortBusy =>
    intro n s hmay hrole hphase
    exact next_if_pos hmay (updSe_congr ((if_neg (by simp [hrole])).trans (if_pos (Se.busy_eq_true hphase))))
  case abortIdle =>
    intro n s hmay hrole hphase
    exact next_if_pos hmay (updSe_congr ((if_neg (by simp [hrole])).trans (if_neg (by simp [Se.busy, hphase]))))
  case busclr =>
    intro n s hmay hen hrole hphase
    exact next_if_pos hmay (updSe_congr (if_pos (by simp [hen, hrole, Se.busy_eq_false hphase])))
  case push => exact fun n v s hmay hroom => next_if_pos hmay (updSe_congr (if_pos hroom))
  case pushFull => exact fun n v s hmay hfull => next_if_pos hmay (updSe_congr (if_neg (by omega)))
  case pop =>
    intro n b r s hmay hrx
    exact next_if_pos hmay (updSe_congr (by simp only [Se.pop, hrx]))
  case config =>
    intro n v s hmay hphase
    exact next_if_pos hmay (updSe_congr (if_neg (by simp [Se.busy_eq_false hphase])))
  case configBusy => exact fun n reg v s hmay hphase => next_if_pos hmay (updSe_congr (if_pos (Se.busy_eq_true hphase)))
  case spiEnds =>
    intro n r s hphase hrole hrx htx hlen
    refine congrArg _ (updSe_congr ?_)
    simp only [Se.ends, hphase]
    exact (if_pos hrole).trans (Se.spi_writeOnly r.got hrx htx hlen)
  case i2cFails =>
    intro n sent s hphase hrole
    refine congrArg _ (updSe_congr ?_)
    simp [Se.ends, hphase, hrole, Se.finish]
  case timeout =>
    intro n s hphase hrole
    refine congrArg _ (updSe_congr ?_)
    exact if_pos ⟨hphase, hrole⟩
  case uartByte =>
    intro n b s hen hrole hroom
    refine congrArg _ (updSe_congr ?_)
    exact (if_neg (by simp [hen, hrole])).trans (if_neg (by omega))
  case uartParity =>
    intro n b s hen hrole hroom
    refine congrArg _ (updSe_congr ?_)
    exact (if_neg (by simp [hen, hrole])).trans (if_neg (by omega))
  case uartFull =>
    intro n b x s hen hrole hfull
    refine congrArg _ (updSe_congr ?_)
    exact (if_neg (by simp [hen, hrole])).trans (if_pos hfull)
  case uartSends =>
    intro n b r s hen hrole htx hcts
    have hsends : (seOf s n).uartSends = true := by
      rcases hcts with hoff | hlow
      · simp [Se.uartSends, hen, hrole, htx, hoff]
      · simp [Se.uartSends, hen, hrole, htx, hlow]
    refine congrArg _ (updSe_congr ?_)
    exact (if_pos hsends).trans (by rw [htx]; rfl)
  case cts => exact fun n level s => rfl
  case adcStart =>
    intro v s hmay hbit htrig hen hslot
    refine next_if_pos hmay ((if_pos (by simp [hbit, htrig])).trans ?_)
    simp [updAdc, Adc.trigger, hen, hslot]
  case adcLost =>
    intro v k s hmay hbit htrig hen hslot
    refine next_if_pos hmay ((if_pos (by simp [hbit, htrig])).trans ?_)
    simp [updAdc, Adc.trigger, hen, hslot]
  case adcOther => exact fun v s hmay htrig => next_if_pos hmay (if_neg (by simp [htrig]))
  case settled =>
    intro s hen
    change execAdcSettled s = _
    simp [execAdcSettled, updAdc, hen]
  case result =>
    intro volt vref k s hslot hsettled hpin hvref hroom hmore
    change execAdcConversionEnd volt vref s = _
    simp only [execAdcConversionEnd, hslot, hpin]
    refine next_if_neg (by simp [hsettled]) ?_
    simp [updAdc, Adc.result, Adc.next, hroom, hmore, adcCode, hvref]
  case noPin =>
    intro volt vref k s hslot hsettled hpin hroom hlast hrepeat
    change execAdcConversionEnd volt vref s = _
    simp only [execAdcConversionEnd, hslot, hpin]
    refine next_if_neg (by simp [hsettled]) ?_
    simp [updAdc, Adc.result, Adc.next, hroom, Nat.not_lt.2 hlast, hrepeat]
  case overrun =>
    intro volt vref k s hslot hsettled hfull hlast hrepeat
    change execAdcConversionEnd volt vref s = _
    simp only [execAdcConversionEnd, hslot]
    refine next_if_neg (by simp [hsettled]) ?_
    simp [updAdc, Adc.result, Adc.next, Nat.not_lt.2 hfull, Nat.not_lt.2 hlast, hrepeat]
  case read =>
    intro x r s hmay hfifo
    refine next_if_pos hmay ?_
    simp only [updAdc, Adc.pop, hfifo]

end Sys2Proof.Machine

/-! ### The timers and the watchdog (R663 to R667, R473, R484) -/

namespace Sys2Proof.Machine

/-- Two changes of a timer that agree on its state there are one change. -/
theorem updTmr_congr {n : Nat} {f g : Tmr → Tmr} {s : State} (h : f (tmrOf s n) = g (tmrOf s n)) : updTmr n f s = updTmr n g s := by
  simp only [updTmr, h]

/-- A timer that a change leaves as it is leaves the block as it is. -/
theorem updTmr_unchanged {n : Nat} {f : Tmr → Tmr} {s : State} (hn : n < s.tmr.length) (h : f (tmrOf s n) = tmrOf s n) : updTmr n f s = s := by
  have hset : s.tmr.set n (tmrOf s n) = s.tmr := by
    rw [tmrOf, at_, List.getD_eq_getElem?_getD, List.getElem?_eq_getElem hn, Option.getD_some, List.set_getElem_self]
  simp only [updTmr, h, hset]

/-- A changed timer reads back. -/
theorem tmrOf_updTmr {n : Nat} (f : Tmr → Tmr) {s : State} (hn : n < s.tmr.length) : tmrOf (updTmr n f s) n = f (tmrOf s n) := at_set_self hn

/-- A running timer whose compare value is within its range matches (R663). -/
theorem execTimerMatch_hits {n : Nat} {s : State} (hclk : pclkRuns s = true) (hn : n < 4) (hen : (tmrOf s n).en = true) (hmode : (tmrOf s n).mode ≤ 1)
    (hcmp : (tmrOf s n).cmp ≤ (tmrOf s n).top) : execTimerMatch n s = .next (adcTimer n (updTmr n Tmr.matches s)) :=
  next_if_pos (by simp [hclk, hn, hen, hmode, hcmp]) rfl

/-- A match of a timer that does not trigger the ADC changes the timer alone (R660, R663). -/
theorem execTimerMatch_quiet {n : Nat} {f : Tmr → Tmr} {s : State} (hclk : pclkRuns s = true) (hn : n < 4) (hen : (tmrOf s n).en = true)
    (hmode : (tmrOf s n).mode ≤ 1) (hcmp : (tmrOf s n).cmp ≤ (tmrOf s n).top) (htrig : s.adc.trig ≠ n + 1) (hf : (tmrOf s n).matches = f (tmrOf s n)) :
    execTimerMatch n s = .next (updTmr n f s) := by
  have hother : adcTimer n (updTmr n Tmr.matches s) = updTmr n Tmr.matches s := if_neg htrig
  rw [execTimerMatch_hits hclk hn hen hmode hcmp, hother, updTmr_congr hf]

/-- In output-compare mode a match turns the output over (R663). -/
theorem Tmr.matches_compare {t : Tmr} (hmode : t.mode = 0) : t.matches = { t with cnt := t.cmp, stat := setBit t.stat 0 true, out := !t.out } := if_pos hmode

/-- In PWM mode a match ends the active part of the period (R663). -/
theorem Tmr.matches_pwm {t : Tmr} (hmode : t.mode = 1) : t.matches = { t with cnt := t.cmp, stat := setBit t.stat 0 true, out := false } :=
  (if_neg (show ¬t.mode = 0 by omega)).trans (if_pos hmode)

/-- In output-compare mode a wrap starts the count again, once only where the timer says so (R663). -/
theorem Tmr.wrap_compare {t : Tmr} (hmode : t.mode = 0) (hcmp : t.cmp ≠ 0) :
    t.wrap = { t with stat := setBit t.stat 1 true, cnt := 0, ctl := if bit t.ctl 11 then setBit t.ctl 0 false else t.ctl } := by
  simp only [Tmr.wrap, hmode, Tmr.flag, Nat.zero_ne_one, if_false, if_neg hcmp]
  split <;> rfl

/-- In PWM mode a wrap takes the values that wait, and starts the active part of the period (R663). -/
theorem Tmr.wrap_pwm {t : Tmr} {top cmp : Word} (hmode : t.mode = 1) (htop : t.topNext = some top) (hnext : t.cmpNext = some cmp) (hcmp : cmp ≠ 0)
    (honce : bit t.ctl 11 = false) :
    t.wrap = { t with top := top, cmp := cmp, topNext := none, cmpNext := none, stat := setBit t.stat 1 true, cnt := 0, out := true } := by
  have hbits : bits t.ctl.toNat 1 2 = 1 := hmode
  have hcmp' : ¬cmp = 0#32 := hcmp
  simp [Tmr.wrap, Tmr.flag, Tmr.mode, hbits, htop, hnext, hcmp', honce]

/-- A running timer whose compare value is not 0 after the wrap wraps, and does not match there (R663). -/
theorem execTimerWrap_noMatch {n : Nat} {s : State} (hclk : pclkRuns s = true) (hn : n < 4) (hlen : s.tmr.length = 4) (hen : (tmrOf s n).en = true)
    (hcmp : (tmrOf s n).wrap.cmp ≠ 0) : execTimerWrap n s = .next (updTmr n Tmr.wrap s) := by
  have hread := tmrOf_updTmr (n := n) Tmr.wrap (s := s) (by omega)
  refine next_if_neg (by simp [hclk, hn, hen]) ?_
  simp only [hread]
  exact if_neg fun h => hcmp h.1

/-- A start leaves the output of a timer that runs, and sets that of a PWM by its count (R663). -/
theorem Tmr.start_eq (t : Tmr) :
    t.start = { t with ctl := setBit t.ctl 0 true, out := if !t.en && t.mode == 1 then decide (t.cnt < t.cmp) else t.out } := by
  cases hen : t.en
  · simp [Tmr.start, hen]
  · simp [Tmr.start, hen]

/-- A locked watchdog that runs takes nothing from its control register (R667). -/
theorem Wdg.ctlWrite_locked {w : Wdg} (v : Word) (hen : w.en = true) (hlock : w.lock = true) : w.ctlWrite v = w := by
  cases w
  simp_all [Wdg.ctlWrite]

/-- Settles O47: each step is one branch of its definition, on the timer it names. -/
theorem timerAndWatchdogSteps : Obligations.TimerAndWatchdogSteps := by
  refine ⟨?sync, ?matchOut, ?matchPwm, ?matchAdc, ?noMatch, ?wrap, ?wrapOnce, ?wrapPwm, ?capture, ?captureAgain, ?noCapture, ?start, ?startLocked, ?feed,
    ?feedWrong, ?reload, ?warn, ?expireAll, ?expireCore, ?expireOff⟩
  case sync =>
    intro v s hmay
    refine next_if_pos hmay ?_
    simp only [tmrSync, Tmr.start_eq]
  case matchOut =>
    intro n s hclk hn hen hmode hcmp htrig
    exact execTimerMatch_quiet hclk hn hen (by omega) hcmp htrig (Tmr.matches_compare hmode)
  case matchPwm =>
    intro n s hclk hn hen hmode hcmp htrig
    exact execTimerMatch_quiet hclk hn hen (by omega) hcmp htrig (Tmr.matches_pwm hmode)
  case matchAdc =>
    intro n s hclk hn hen hmode hcmp htrig hadc hslot
    have htimer := updTmr_congr (n := n) (f := Tmr.matches) (g := fun t => { t with cnt := t.cmp, stat := setBit t.stat 0 true, out := !t.out })
      (Tmr.matches_compare hmode)
    have hgo : s.adc.trigger = { s.adc with slot := some 0 } := by simp [Adc.trigger, hadc, hslot]
    refine (execTimerMatch_hits hclk hn hen (by omega) hcmp).trans (congrArg _ ?_)
    rw [htimer]
    exact (if_pos htrig).trans (by simp only [updAdc, updTmr, hgo])
  case noMatch => exact fun n s hclk hn hen hcmp => next_if_neg (by simpa [hclk, hn, hen] using fun _ => hcmp) rfl
  case wrap =>
    intro n s hclk hn hlen hen hmode hcmp honce
    have hwrap := Tmr.wrap_compare hmode hcmp
    refine (execTimerWrap_noMatch hclk hn hlen hen (by rw [hwrap]; exact hcmp)).trans (congrArg _ (updTmr_congr ?_))
    rw [hwrap, honce]
    rfl
  case wrapOnce =>
    intro n s hclk hn hlen hen hmode hcmp honce
    have hwrap := Tmr.wrap_compare hmode hcmp
    refine (execTimerWrap_noMatch hclk hn hlen hen (by rw [hwrap]; exact hcmp)).trans (congrArg _ (updTmr_congr ?_))
    rw [hwrap, honce]
    rfl
  case wrapPwm =>
    intro n top cmp s hclk hn hlen hen hmode htop hnext hcmp honce
    have hwrap := Tmr.wrap_pwm hmode htop hnext hcmp honce
    exact (execTimerWrap_noMatch hclk hn hlen hen (by rw [hwrap]; exact hcmp)).trans (congrArg _ (updTmr_congr hwrap))
  case capture =>
    intro n count s hclk hn hen hmode hedge hstat
    refine next_if_pos (by simp [hclk, hn]) (updTmr_congr ?_)
    simp [Tmr.capture, hen, hmode, hedge, hstat, Tmr.flag]
  case captureAgain =>
    intro n count rising s hclk hn hen hmode hedge hstat
    refine next_if_pos (by simp [hclk, hn]) (updTmr_congr ?_)
    simp [Tmr.capture, hen, hmode, hedge, hstat, Tmr.flag]
  case noCapture =>
    intro n count s hclk hn hlen hmode hedge
    refine next_if_pos (by simp [hclk, hn]) (updTmr_unchanged (by omega) ?_)
    simp [Tmr.capture, hmode, hedge]
  case start =>
    intro v s hmay hen hbit hlock
    refine next_if_pos hmay ?_
    simp [updWdg, Wdg.ctlWrite, Wdg.from_, hen, hbit, hlock]
  case startLocked =>
    intro v s hmay hen hlock
    refine next_if_pos hmay ?_
    simp only [updWdg, Wdg.ctlWrite_locked v hen hlock]
  case feed =>
    intro v s hmay hen hkey
    refine next_if_pos hmay ?_
    simp [updWdg, Wdg.feed, hen, hkey]
  case feedWrong =>
    intro v s hmay hen hkey
    refine next_if_pos hmay ?_
    simp [updWdg, Wdg.feed, hen, hkey]
  case reload =>
    intro s hen hfeeding hexpired
    change execWdgReload s = _
    simp [execWdgReload, updWdg, Wdg.from_, hen, hfeeding, hexpired]
  case warn => exact fun s hcounts => next_if_pos hcounts rfl
  case expireAll => exact fun s hcounts hscope => next_if_neg (by simp [hcounts]) (if_pos hscope)
  case expireCore => exact fun s hen hexpired hscope => next_if_neg (by simp [hen, hexpired]) (if_neg (by simp [hscope]))
  case expireOff => exact fun s hen => next_if_pos (by simp [wdgCounts, hen]) rfl

end Sys2Proof.Machine
